-- ==== Sys2Proof/Word.lean ====
section
/-! DEFINITION. The word types of the machine: the manual's bytes, 32-bit words and 64-bit words (R2, R6). -/

namespace Sys2Proof

/-- A byte of any storage of the device (R2). -/
abbrev Byte := BitVec 8

/-- A 32-bit strand or walker word, scalar register, or local address (R54, R81, R137). -/
abbrev Word := BitVec 32

/-- A 64-bit move word or move register (R69, R223). -/
abbrev DWord := BitVec 64

/-- A 256-bit tile command word (R65). -/
abbrev TileWord := BitVec 256

end Sys2Proof
end

