-- ==== Sys2Proof/Syntax.lean ====
section
/-! DEFINITION. The syntax of the device's steps: one constructor of `Instr` per row of the opcode table.
Strand words, tile command words, walker words and move words carry the operand fields of their encodings
(R54 to R72); rows without an encoding are events and carry the names of what they act on. -/

namespace Sys2Proof

/-- A scalar register x0 to x31 (R6). -/
abbrev XReg := BitVec 5
/-- A vector register v0 to v31 (R6). -/
abbrev VReg := BitVec 5
/-- A predicate p0 to p7 (R6); as a mask, p0 means all lanes (R60). -/
abbrev PReg := BitVec 3
/-- A move-program register a0 to a15 (R6). -/
abbrev AReg := BitVec 4
/-- A walker register k0 to k15 (R6). -/
abbrev KReg := BitVec 4

/-- The control part of a tile command word, bits [63:12] (R65). -/
structure TileHdr where
  waitSem : BitVec 8
  waitEn  : Bool
  sigSem  : BitVec 8
  sigEn   : Bool
  scope   : BitVec 2
  waitAmt : BitVec 8
  sigAmt  : BitVec 8
  chain   : BitVec 16
  deriving DecidableEq, Repr

/-- A region descriptor (R67); `rows` and `cols` hold the counts less one. -/
structure Desc where
  addr  : BitVec 24
  peer  : BitVec 3
  peerF : Bool
  map   : BitVec 4
  fmt   : BitVec 4
  rows  : BitVec 12
  cols  : BitVec 12
  acc   : Bool
  tr    : Bool
  mask  : Bool
  deriving DecidableEq, Repr

/-- The fields of a data move word (R229). -/
structure DataWord where
  dst   : AReg
  src1  : AReg
  src2  : AReg
  rc    : Bool
  after : Bool
  blk   : BitVec 20
  deriving DecidableEq, Repr

/-- The header of a management request (R308) and the session it travels in: the operation byte as received, the context,
the tag, the payload length that the request declares, and whether the secured message that carries it verifies. -/
structure Mgmt where
  sess  : Nat
  op    : BitVec 8
  ctx   : BitVec 6
  tag   : BitVec 16
  len   : BitVec 32
  sound : Bool
  deriving DecidableEq, Repr

/-- A sealed packet of a context connection (R376, R378): the context and port of the connection, the key phase and
sequence number of its seal header, whether its tag verifies, and whether it is a retransmission with a duplicate PSN
of a packet already accepted (R379). -/
structure Sealed where
  ctx   : BitVec 6
  port  : Bool
  phase : Bool
  seq   : BitVec 63
  tagOk : Bool
  dup   : Bool
  deriving DecidableEq, Repr

/-- The connection on which a packet arrives (R375, R376): a management connection of a port, or one of a context, whose packets
are sealed. -/
inductive ConnPacket where
  | management (port : Bool)
  | context (p : Sealed)
  deriving DecidableEq, Repr

/-- A firmware image as downloaded (R384). -/
structure Image where
  magic   : BitVec 32
  index   : BitVec 8
  version : BitVec 32
  bodyLen : BitVec 32
  body    : List Byte
  sig     : List Byte
  deriving DecidableEq, Repr

/-- The payload of BIND QUEUE (R321), every field as wide as the map gives it. -/
structure Binding where
  qid : BitVec 12
  pri : BitVec 2
  wgt : BitVec 4
  hof : Bool
  lsz : BitVec 5
  csz : BitVec 5
  lva : BitVec 52
  cva : BitVec 52
  /-- The reserved bits of the payload are zero; they are RO, and a write of them is ignored (R4). -/
  resZero : Bool
  deriving DecidableEq, Repr

/-- One reduction window of the list the switches advertise (R372). -/
structure RedWindow where
  base : BitVec 48
  size : BitVec 40
  deriving DecidableEq, Repr

/-- What SPARE replaces (R390). -/
inductive SpareUnit where
  | row     (row : Nat)
  | channel (pc : Nat)
  deriving DecidableEq, Repr

/-- What REGISTER_WRITE writes: a core register by a strand's store (R139), or a word of a context's storage pairs in
the host window (R380). -/
inductive RegTarget where
  | core (core : BitVec 9) (off : BitVec 12)
  | pair (p : Sealed) (h : BitVec 4) (off : BitVec 6)
  deriving DecidableEq, Repr

/-- The steps of the device: one constructor per row of the opcode table. -/
inductive Instr where
  -- Base instructions (R85 to R90)
  | lui (d : XReg) (imm : BitVec 20)
  | auipc (d : XReg) (imm : BitVec 20)
  | jal (d : XReg) (off : BitVec 20)
  | jalr (d s : XReg) (imm : BitVec 12)
  | beq (s t : XReg) (off : BitVec 12)
  | bne (s t : XReg) (off : BitVec 12)
  | blt (s t : XReg) (off : BitVec 12)
  | bge (s t : XReg) (off : BitVec 12)
  | bltu (s t : XReg) (off : BitVec 12)
  | bgeu (s t : XReg) (off : BitVec 12)
  | lb (d s : XReg) (imm : BitVec 12)
  | lh (d s : XReg) (imm : BitVec 12)
  | lw (d s : XReg) (imm : BitVec 12)
  | lbu (d s : XReg) (imm : BitVec 12)
  | lhu (d s : XReg) (imm : BitVec 12)
  | sb (t s : XReg) (imm : BitVec 12)
  | sh (t s : XReg) (imm : BitVec 12)
  | sw (t s : XReg) (imm : BitVec 12)
  | addi (d s : XReg) (imm : BitVec 12)
  | slti (d s : XReg) (imm : BitVec 12)
  | sltiu (d s : XReg) (imm : BitVec 12)
  | xori (d s : XReg) (imm : BitVec 12)
  | ori (d s : XReg) (imm : BitVec 12)
  | andi (d s : XReg) (imm : BitVec 12)
  | slli (d s : XReg) (sh : BitVec 5)
  | srli (d s : XReg) (sh : BitVec 5)
  | srai (d s : XReg) (sh : BitVec 5)
  | add (d s t : XReg)
  | sub (d s t : XReg)
  | sll (d s t : XReg)
  | slt (d s t : XReg)
  | sltu (d s t : XReg)
  | xor (d s t : XReg)
  | srl (d s t : XReg)
  | sra (d s t : XReg)
  | or (d s t : XReg)
  | and (d s t : XReg)
  | mul (d s t : XReg)
  | mulh (d s t : XReg)
  | mulhsu (d s t : XReg)
  | mulhu (d s t : XReg)
  | div (d s t : XReg)
  | divu (d s t : XReg)
  | rem (d s t : XReg)
  | remu (d s t : XReg)
  | fence (imm : BitVec 12) (s d : XReg)
  | fenceI (imm : BitVec 12) (s d : XReg)
  | ecall
  | ebreak
  | csrrw (d : XReg) (csr : BitVec 12) (s : XReg)
  | csrrs (d : XReg) (csr : BitVec 12) (s : XReg)
  | csrrc (d : XReg) (csr : BitVec 12) (s : XReg)
  | csrrwi (d : XReg) (csr : BitVec 12) (u : BitVec 5)
  | csrrsi (d : XReg) (csr : BitVec 12) (u : BitVec 5)
  | csrrci (d : XReg) (csr : BitVec 12) (u : BitVec 5)
  /-- A fetched strand word that R55 to R63 make illegal (R64). -/
  | illegalInstruction (w : Word)
  /-- A fetch outside the instruction scratchpad (R100, cause 9). -/
  | fetchAddressTrap (a : Word)
  -- Loops, traps, full/empty (R92 to R110)
  | lpBegin (s : XReg) (e : BitVec 11)
  | lpBeginRot (s : XReg) (e : BitVec 11)
  | lpBegini (n : BitVec 10) (e : BitVec 11)
  | lpBeginiRot (n : BitVec 10) (e : BitVec 11)
  | lpExit
  | lpPop
  | lpIdx (d : XReg) (lvl : BitVec 5)
  | trap (code : BitVec 5)
  | tret
  | sdone
  | feWait (s : XReg)
  | feChk (d s : XReg)
  /-- The pending result of register `r` of the strand named by its key arrives (R91). -/
  | asyncResultArrive (key : Nat) (r : XReg)
  | yield
  | depWait
  | depTrig
  -- Tile command registers, stook (R156 to R158, R180, R194)
  | tcLd (s : XReg)
  | tcSet (n : BitVec 3) (s : XReg)
  | tcPush (d : XReg)
  | vcsLd (off : BitVec 4) (s t : XReg)
  | tcForce (s t : XReg)
  | tcDrain
  -- Semaphores and windrows (R148, R152)
  | semWait (n : BitVec 8) (s : XReg)
  | semSig (n : BitVec 8) (s : XReg)
  | semTry (d : XReg) (n : BitVec 8) (s : XReg)
  | semRd (d : XReg) (n : BitVec 8)
  | semSet (n : BitVec 8) (s : XReg)
  | wrAdv (n : BitVec 8) (s : XReg)
  -- Groups and barriers (R355, R363)
  | grpJoin (s : XReg)
  | grpLeave (s : XReg)
  | grpSize (d s : XReg)
  | grpRank (d s : XReg)
  | barInit (n : BitVec 6) (s : XReg)
  | barArrive (n : BitVec 6) (s : XReg)
  | barWait (d : XReg) (n : BitVec 6)
  | barSync (d : XReg) (n : BitVec 6) (s : XReg)
  -- Work ranges and pipes (R341, R347)
  | rngInit (s t : XReg)
  | rngNext (d : XReg)
  | ppPush (n : BitVec 5) (s : XReg)
  | ppPop (d : XReg) (n : BitVec 5)
  | ppPeek (d : XReg) (n : BitVec 5)
  -- Granary (R206)
  | grBegin (rg : BitVec 4) (s : XReg)
  | grEnd (rg : BitVec 4)
  | grCfg (s : XReg)
  | grInval (s : XReg)
  -- Vector words (R60 to R63)
  | vaddF (d s t : VReg) (p : PReg)
  | vsubF (d s t : VReg) (p : PReg)
  | vmulF (d s t : VReg) (p : PReg)
  | vfmaF (d s t : VReg) (p : PReg)
  | vminF (d s t : VReg) (p : PReg)
  | vmaxF (d s t : VReg) (p : PReg)
  | vabsF (d s : VReg) (p : PReg)
  | vnegF (d s : VReg) (p : PReg)
  | vrcp (d s : VReg) (p : PReg)
  | vsqrt (d s : VReg) (p : PReg)
  | vrsqrt (d s : VReg) (p : PReg)
  | vexp2 (d s : VReg) (p : PReg)
  | vlog2 (d s : VReg) (p : PReg)
  | vaddI (d s t : VReg) (p : PReg)
  | vsubI (d s t : VReg) (p : PReg)
  | vmulI (d s t : VReg) (p : PReg)
  | vmulhI (d s t : VReg) (p : PReg)
  | vminI (d s t : VReg) (p : PReg)
  | vmaxI (d s t : VReg) (p : PReg)
  | vand (d s t : VReg) (p : PReg)
  | vor (d s t : VReg) (p : PReg)
  | vxor (d s t : VReg) (p : PReg)
  | vshl (d s t : VReg) (p : PReg)
  | vshr (d s t : VReg) (p : PReg)
  | vsra (d s t : VReg) (p : PReg)
  | vcmpFEq (d : PReg) (s t : VReg) (p : PReg)
  | vcmpFNe (d : PReg) (s t : VReg) (p : PReg)
  | vcmpFLt (d : PReg) (s t : VReg) (p : PReg)
  | vcmpFLe (d : PReg) (s t : VReg) (p : PReg)
  | vcmpIEq (d : PReg) (s t : VReg) (p : PReg)
  | vcmpINe (d : PReg) (s t : VReg) (p : PReg)
  | vcmpILt (d : PReg) (s t : VReg) (p : PReg)
  | vcmpILe (d : PReg) (s t : VReg) (p : PReg)
  | vcmpILtu (d : PReg) (s t : VReg) (p : PReg)
  | vcmpILeu (d : PReg) (s t : VReg) (p : PReg)
  | vsel (d s t : VReg) (p : PReg)
  | vmv (d s : VReg) (p : PReg)
  | vbcast (d : VReg) (s : XReg) (p : PReg)
  | vpand (d s t : PReg)
  | vpor (d s t : PReg)
  | vpnot (d s : PReg)
  | vpcnt (d : XReg) (s : PReg)
  | vld (d : VReg) (s : XReg) (p : PReg)
  | vst (d : VReg) (s : XReg) (p : PReg)
  | vlds (d : VReg) (s t : XReg) (p : PReg)
  | vsts (d : VReg) (s t : XReg) (p : PReg)
  | vldx (d : VReg) (s : XReg) (t : VReg) (p : PReg)
  | vperm (d s t : VReg) (p : PReg)
  | vslide (d s : VReg) (t : XReg) (p : PReg)
  | vscan (d s : VReg) (p : PReg)
  | vcvt (d s : VReg) (fmt : BitVec 4) (sat : Bool) (p : PReg)
  | vredSum (d : XReg) (s : VReg) (p : PReg)
  | vredMax (d : XReg) (s : VReg) (p : PReg)
  | vredMin (d : XReg) (s : VReg) (p : PReg)
  | vredAnd (d : XReg) (s : VReg) (p : PReg)
  | vredOr (d : XReg) (s : VReg) (p : PReg)
  | vnz (d s : VReg) (x : XReg) (p : PReg)
  | vcst (d : VReg) (s : XReg) (p : PReg)
  | vhist (d s : VReg) (p : PReg)
  | vhmerge (d s : VReg) (p : PReg)
  -- Tile commands (R66)
  | mm (h : TileHdr) (a : Desc) (b : DWord) (d : Desc)
  | mmTri (h : TileHdr) (a : Desc) (b : DWord) (d : Desc)
  | wload (h : TileHdr) (a b : Desc) (d : DWord)
  | wloadAns (h : TileHdr) (a b : Desc) (d : DWord)
  | tstore (h : TileHdr) (a d : Desc)
  | tconv (h : TileHdr) (a : Desc) (b : DWord) (d : Desc)
  | tcopy (h : TileHdr) (a d : Desc)
  | tfill (h : TileHdr) (b : DWord) (d : Desc)
  | tclr (h : TileHdr) (d : Desc)
  | vtCall (h : TileHdr) (a : Desc) (b : DWord) (d : Desc)
  | twalk (h : TileHdr) (a : Desc) (b : DWord) (d : Desc)
  | xfer (h : TileHdr) (a b d : DWord)
  -- Walker words (R217)
  | wkNop
  | wkLd (d a : KReg) (imm : BitVec 14)
  | wkLdx (d a b : KReg) (sz : BitVec 2)
  | wkMov (d a : KReg)
  | wkAdd (d a b : KReg)
  | wkAddi (d a : KReg) (imm : BitVec 14)
  | wkCmp (d a b : KReg) (cc : BitVec 2)
  | wkBr (a : KReg) (imm : BitVec 14)
  | wkLoop (a : KReg) (imm : BitVec 14)
  | wkEmit (a b : KReg)
  | wkZero
  | wkFlush
  | wkSkip (a : KReg)
  | wkEnd
  /-- The walker's next word is illegal or out of range (R218). -/
  | walkerIllegalWord
  /-- The walker has executed 2^24 words and fetches another (R218). -/
  | walkerStepLimit
  -- Move words (R70)
  | mvNop
  | mvLi (d : AReg) (imm : BitVec 40)
  | mvAdd (d s t : AReg)
  | mvAddi (d s : AReg) (imm : BitVec 40)
  | mvSub (d s t : AReg)
  | mvAnd (d s t : AReg)
  | mvShl (d s t : AReg)
  | mvMul (d s t : AReg)
  | mvBr (cc : BitVec 4) (s t : AReg) (imm : BitVec 40)
  | mvJal (d : AReg) (imm : BitVec 40)
  | mvJalReg (d s : AReg)
  | mvNest (k : BitVec 4) (s : AReg)
  | mvLp (k : BitVec 4) (imm : BitVec 40)
  | mvCopy (w : DataWord)
  | mvGath (w : DataWord)
  | mvScat (w : DataWord)
  | mvTpose (w : DataWord)
  | mvCvt (w : DataWord)
  | mvRed (w : DataWord)
  | mvMcast (w : DataWord)
  | mvAtom (d s t : AReg) (op : BitVec 4) (ty : BitVec 2) (ret : Bool)
  | mvWin (w : DataWord)
  | mvZip (w : DataWord)
  | mvUnzip (w : DataWord)
  | mvCsum (d : AReg)
  | mvCsumSrc (d : AReg)
  | mvNvm (d s t : AReg) (qp : BitVec 16) (dir : Bool)
  | mvSig (s : AReg) (n amt : BitVec 8) (scope : BitVec 2)
  | mvTw (s t : AReg)
  | mvTwSem (n : BitVec 8) (s t : AReg)
  | mvFence
  | mvFenceRd (d : AReg)
  | mvRet
  | mvTrap (imm : BitVec 40)
  /-- The engine's next word is illegal, or its fetch lies outside move-program memory (R71). -/
  | illegalMoveWord
  -- Steps of commands, walks, teams, queues and kernels that the device takes by itself; a command is named by its
  -- engine and number, a team by its key
  | moveCommandStart (eng num : Nat)
  | scoreboardRegister (eng num core : Nat)
  | moveCommandRetire (eng num : Nat)
  | moveRunRetire (eng : Nat)
  | moveUncorrectableError (eng num : Nat)
  | rollbackComplete (lid : Nat)
  | windrowRowArrival (eng num : Nat)
  | pageWalkComplete (die idx : Nat)
  | faultEventQueue (eng num : Nat)
  | teamPlace (team core : Nat)
  | teamSwitchComplete (core : Nat)
  | loftFill (core team : Nat)
  | spillComplete (core : Nat)
  | launchRecordFetch (qid : BitVec 12)
  | recordAdmission (qid : BitVec 12)
  | kernelLoadComplete (lid : Nat)
  | completionRecordWrite (rec : Nat)
  /-- The steal request of the strand named by its key reaches its next victim (R347). -/
  | rangeSteal (key : Nat)
  | eventRingPost (ctx : BitVec 6)
  | evictTeam (core : Nat)
  /-- The timeout of barrier `n` of kernel `lid` expires (R362). -/
  | barrierTimeout (lid : Nat) (n : BitVec 6)
  -- Page and host-memory events
  | nvmeCompletion (eng num : Nat) (status : BitVec 15) (data : List Byte)
  | remoteAccessTimeout (eng num : Nat)
  | rrbLineExpiry (die : Nat) (line : Nat)
  | contributionAccept (pkg eng num elem : Nat)
  | contributionResend (pkg eng num elem : Nat)
  | contributionDeliver (pa : Nat)
  -- Register events
  | counterLowWordRead (key : Nat) (off : BitVec 12)
  | regionFieldWrite (core : BitVec 9) (off : BitVec 12) (v : Word)
  | windrowEnable (core : BitVec 9) (w : BitVec 3)
  | registerWrite (t : RegTarget) (v : Word)
  -- Team events (R317, R342, R343)
  | teamSwitchRequest (core : Nat)
  | switchPointTimeout (core : Nat)
  | residencyQuantumExpiry (core : Nat)
  | pipeOccupancySample (rec : Nat)
  | pipeRebalanceWindow (rec : Nat)
  -- Queue and kernel events
  | recordAging (qid : BitVec 12)
  | tailWrite (p : Sealed) (qid : BitVec 12) (v : Word)
  | cheadWrite (p : Sealed) (qid : BitVec 12) (v : Word)
  | queueRestart (p : Sealed) (qid : BitVec 12)
  | eheadWrite (p : Sealed) (v : Word)
  | erestart (p : Sealed)
  | storageConnect (p : Sealed) (h : BitVec 4)
  | storageDisconnect (p : Sealed) (h : BitVec 4)
  | storageConnectComplete (ctx : BitVec 6) (h : BitVec 4) (ok : Bool) (nst cntlid : BitVec 16)
  | storagePairFailure (ctx : BitVec 6) (h : BitVec 4)
  -- Management requests (R311)
  | create (m : Mgmt) (q : BitVec 6) (digest : List Byte)
  | grant (m : Mgmt) (base size : DWord)
  | release (m : Mgmt) (base size : DWord)
  | writeConfig (m : Mgmt) (off : Nat) (words : List DWord)
  | readConfig (m : Mgmt) (off n : Nat)
  | bindQueue (m : Mgmt) (b : Binding)
  | unbindQueue (m : Mgmt) (qid : BitVec 12)
  | lock (m : Mgmt)
  | getReport (m : Mgmt) (nonce : List Byte)
  | start (m : Mgmt)
  | stop (m : Mgmt)
  | teardown (m : Mgmt)
  | resumeOne (m : Mgmt) (eng num : Nat)
  | resumeRange (m : Mgmt) (lo hi : DWord)
  | failCommand (m : Mgmt) (eng num : Nat)
  | readSuspension (m : Mgmt) (eng num : Nat)
  | invalidate (m : Mgmt) (all : Bool) (lo hi : DWord)
  | setPackage (m : Mgmt) (pkg : BitVec 8)
  | countersRead (m : Mgmt) (die : Nat) (offs : List Nat)
  | countersWrite (m : Mgmt) (die : Nat) (offs : List Nat) (vs : List Word)
  | errorLogRead (m : Mgmt) (unit : BitVec 16) (arr : Nat)
  | errorLogClear (m : Mgmt) (unit : BitVec 16) (arr : Nat)
  | errorLogPop (m : Mgmt) (unit : BitVec 16) (arr : Nat)
  | inject (m : Mgmt) (unit : BitVec 16) (arr : Nat) (addr : BitVec 48) (arm iue : Bool)
  | loadImage (m : Mgmt) (dies : BitVec 12) (img : Image)
  | activate (m : Mgmt) (dies : BitVec 12) (idx : BitVec 8)
  | imageActivationComplete (idx : BitVec 3)
  | startDeviceCold (m : Mgmt)
  | startDeviceWarm (m : Mgmt)
  | deviceStartComplete
  | retrainLink (m : Mgmt) (link : Nat)
  | spare (m : Mgmt) (unit : BitVec 16) (u : SpareUnit)
  | retireCore (m : Mgmt) (core : BitVec 16)
  | fenceIn (m : Mgmt) (unit : BitVec 16)
  | fenceOut (m : Mgmt) (unit : BitVec 16)
  -- SPDM (R306, R307); `conn` is a management connection
  | getVersion (conn : Nat)
  | getCapabilities (conn : Nat)
  | negotiateAlgorithms (conn : Nat)
  | getDigests (conn : Nat)
  | getCertificate (conn : Nat)
  | challenge (conn : Nat) (nonce : List Byte)
  | getMeasurements (conn : Nat)
  | keyExchange (conn : Nat) (mutualAuth : Bool) (tenant : Option (List Byte))
  | finish (sess : Nat) (keyDigest : List Byte) (sigOk : Bool)
  | heartbeat (sess : Nat)
  | heartbeatExpiry (sess : Nat)
  | keyUpdate (sess : Nat)
  | endSession (sess : Nat)
  | unsupportedRequest (conn : Nat) (code : BitVec 8)
  -- RoCEv2 (R375 to R379, R398)
  | managementConnectionRequest (port : Bool) (priv0 : Byte)
  | contextConnectionRequest (port : Bool) (priv0 : Byte) (ctx : BitVec 8)
  /-- With R_Key 2; `key` also stands for the other values of the R_Key (R377). -/
  | rdmaWriteVirtual (p : Sealed) (key : Word) (va : DWord) (data : List Byte)
  | rdmaReadVirtual (p : Sealed) (key : Word) (va : DWord) (n : Nat)
  | rdmaWritePhysical (p : Sealed) (pa : DWord) (data : List Byte)
  | rdmaReadPhysical (p : Sealed) (pa : DWord) (n : Nat)
  | invalidRequest (conn : ConnPacket)
  -- Links (R368 to R372, R382)
  | flitCrcFailure (link : Nat) (lane : BitVec 4)
  | flitReceive (link : Nat) (seq : Nat)
  | linkTrainingResult (link : Nat) (good : BitVec 9) (swid : BitVec 16)
  | linkTrainingTimeout (link : Nat)
  | linkLaneFailure (link : Nat) (lane : BitVec 4)
  | linkSpareSwap (link : Nat) (lane : BitVec 4)
  | portCarrierChange (port up : Bool)
  | windowListAdvertise (ws : List RedWindow)
  -- Power and cooling (R386, R392, R393)
  | powerApplied
  | powerRemoved
  | thermalTrip
  | flowLossTrip
  | thermalHold
  | thermalRelease
  | clockStep (up : Bool)
  /-- An error found by refresh or scrub (R296): the unit, array and address of its ECC word, its class, channel and
  syndrome. -/
  | scrubError (unit : BitVec 16) (arr : Nat) (addr : BitVec 48) (ue : Bool) (chan : BitVec 7) (syn : Word)
  deriving DecidableEq, Repr

end Sys2Proof
end

