-- ==== Sys2Proof/Config.lean ====
section
/-! DEFINITION. What the manual leaves free, as constants without a body, and the constants of the part.
Each opaque constant is applied to the step counter of the state (and an index), so that every use is a fresh value
that nothing constrains. -/

namespace Sys2Proof.Config

/-- A free choice of hardware where the manual says "may" (log 12). -/
opaque freeBool : Nat → Nat → Bool
/-- A free 32-bit value the manual does not state, such as an error syndrome (log 12). -/
opaque freeWord : Nat → Nat → Word
/-- A free byte the manual does not state (log 12). -/
opaque freeByte : Nat → Nat → Byte
/-- The transfer cycles between two instants, which the model does not count (R329, log 9). -/
opaque cycles : Nat → Nat → BitVec 64

/-- Entries of each engine queue of a core beyond the 64 words of the longest chain, which the manual does not give (R158,
log 43). -/
opaque queueSpare : Nat
/-- The rows and pseudo-channels that fail the full memory test of a cold start, which the manual leaves to the part (R387,
log 12). -/
opaque failedUnits : Nat → List (BitVec 16 × SpareUnit)
/-- The export master secret of a session, which the SPDM specification gives (R378, log 10). -/
opaque exportSecret : Nat → Nat → List Byte
/-- HKDF-Expand with SHA-512, of a secret, an info string and a length (R378, R379, log 10). -/
opaque hkdfExpand : List Byte → List Byte → Nat → List Byte
/-- The transport headers, from the BTH on, of a packet that the device sends (R378, log 10). -/
opaque transportHeaders : Nat → List Byte
/-- SHA-512 (R306, R384), not defined by the manual (log 10). -/
opaque sha512 : List Byte → List Byte
/-- Whether an Ed25519 signature by the Palric firmware key verifies (R384, log 10). -/
opaque firmwareSigOk : List Byte → List Byte → Bool
/-- The Ed25519 signature by the device identity key (R312, log 10). -/
opaque deviceSign : List Byte → List Byte
/-- The answer of the device to an SPDM request, whose bytes the SPDM specification gives (R306, log 10). -/
opaque spdmAnswer : Nat → Nat → List Byte
/-- The old or the new bytes that a failed storage read leaves in its buffer (R242, log 12). -/
opaque storageByte : Nat → Nat → Byte

end Sys2Proof.Config
end

