-- ==== Sys2Proof/Machine/State.lean ====
section
/-! DEFINITION. The state of the device as plain data, its faults and refusals, and the state after reset.
Tables are sparse lists sorted by key; a key that is absent has the value its object has when it is created. -/

namespace Sys2Proof.Machine

/-- A sparse table: entries in rising order of key. -/
abbrev Tbl (α : Type) := List (Nat × α)

/-- Memory: bytes by location, strictly rising, never the byte 0 that an unlisted location reads as. -/
abbrev Mem := List Host.Cell

/-- Who makes the step (log 1). -/
inductive Agent where
  /-- Nobody. -/
  | none
  /-- The strand in a slot of a core's active team issues its next word (R84). -/
  | strand (core slot : Nat)
  /-- A transfer engine executes its next move word (R222). -/
  | engine (id : Nat)
  /-- A walker executes its next walker word (R217). -/
  | walker (id : Nat)
  /-- A tile engine runs one dispatched sub-tile of a sheaf (R190). -/
  | tile (core seq sub : Nat)
  /-- The head of a core's `tstore` queue (false) or `xfer` queue (true) starts (R161). -/
  | queue (core : Nat) (xfer : Bool)
  /-- A box of a move command performs up to `n` elements (R249). -/
  | box (eng num box n : Nat)
  /-- An event of the device or an input from outside it. -/
  | event (i : Instr)
  /-- A management request that arrived earlier and waits is tried again (R302, R389). -/
  | waiting (i : Instr)
  deriving DecidableEq, Repr

/-- A hardware loop level (R81, R96). -/
structure LoopLevel where
  start : Word
  stop  : Word
  count : BitVec 16
  index : BitVec 16
  rot   : Bool
  deriving DecidableEq, Repr

/-- The states of a strand slot's strand (R83); VACANT is the absence of a strand, HELD is the place of its team. -/
inductive StrandSt where
  | running
  | blocked
  /-- Stopped at its switch point while a team switch is pending (R317). -/
  | stopped
  | ended
  deriving DecidableEq, Repr

/-- What a BLOCKED strand waits in (R83, R108). -/
inductive Wait where
  /-- The word executes again; its demands and forces keep the order point `mark` of its first issue (R189). -/
  | poll (mark : Nat)
  /-- A source register is empty: the word has not issued (R84). -/
  | full (r : XReg)
  /-- The vector engine still executes another strand's word: the word has not issued (R84, R119). -/
  | engine
  /-- A queued `sem.wait`, completed when it is served (R153). -/
  | sem
  /-- A `bar.sync` that has arrived and waits as `bar.wait` (R363). -/
  | synced
  /-- A `rng.next` whose steal is in flight: its destination and the victims not yet asked (R347). -/
  | steal (d : XReg) (victims : List Nat)
  /-- A `tc.push` that has appended its words eagerly and waits for the sheaves numbered lo to hi (exclusive) (R201); it
  completes with the command number `num`, the tile word `last` and the template `tmpl`, and until then has had no effect
  on its strand (R195). -/
  | pushed (lo hi : Nat) (num : Word) (last : TileWord) (tmpl : Option Word)
  /-- A `tc.push` that waits for one of the entries `live` to be released; its order point is `mark` (R197). -/
  | room (mark : Nat) (live : List Nat)
  deriving DecidableEq, Repr

/-- The latest arrival of a strand at a barrier: its phase, and whether it has not been waited on (R359). -/
structure Arrival where
  phase : Nat
  flag  : Bool
  deriving DecidableEq, Repr

/-- The context of a strand (R81). -/
structure Strand where
  lid     : Nat
  num     : Nat
  st      : StrandSt
  wait    : Option Wait
  /-- The word in which it waits, as fetched (R280), and the step in which that word issued (R84). -/
  held    : Option Instr
  issue   : Nat
  /-- Stopped at a `yield` for a park that is pending (R344). -/
  yielded : Bool
  pc      : Word
  x       : Vector Word 32
  /-- Pending results: registers that are empty, with the value that will arrive (R91). -/
  pend    : List (XReg × Word)
  /-- Live loop levels, innermost first. -/
  loops   : List LoopLevel
  hflag   : Bool
  saved   : List LoopLevel
  fmt     : BitVec 4
  wg      : BitVec 2
  cdir    : Bool
  vbase   : BitVec 9
  rrb     : BitVec 4
  femode  : Bool
  vfflags : BitVec 5
  vfrm    : BitVec 10
  zmul    : Bool
  srseed  : Word
  /-- Generators that have advanced since the last write of `srseed`; the others hold their seed (R37). -/
  gens    : Tbl Word
  ktvec   : Word
  kepc    : Word
  kcode   : BitVec 5
  kdone   : Bool
  kinfo   : Word
  bias    : Vector (BitVec 16) 6
  /-- p0 to p7; entry 0 is never stored to (R118). -/
  p       : Vector (BitVec 512) 8
  c       : Vector Word 8
  tmpl    : Option Word
  arrivals : Tbl Arrival
  trig    : Bool
  /-- The high words latched by reads of the low words of 64-bit counters, by the high word's offset (R139). -/
  latch   : Tbl Word
  deriving DecidableEq, Repr

/-- Where a team is (R83, R318, R319). -/
inductive Place where
  | waiting
  | active (core : Nat)
  /-- Every strand has ended and the slots are VACANT (R83); the core keeps the team's bytes, rows and weight halves
  (R187, R260). -/
  | spent (core : Nat)
  | held (core : Nat)
  | saved (slot : Nat)
  deriving DecidableEq, Repr

/-- An entry of a team's region table (R140). -/
structure Region where
  base : BitVec 32
  size : BitVec 32
  mode : BitVec 2
  sk   : BitVec 4
  h    : Vector (BitVec 12) 6
  cfl  : Word
  deriving DecidableEq, Repr

/-- Block state of a strand's granary block (R205): capture, run without capture, replay; absent is none. -/
inductive BlockSt where
  | capture
  | run
  | replay
  deriving DecidableEq, Repr

/-- Who waits on a semaphore (R150). -/
inductive Waiter where
  | strand (key : Nat)
  | sheaf (core seq : Nat)
  /-- A sheaf of a swapped-out team, by the team's key. -/
  | kept (team seq : Nat)
  | queue (core : Nat) (xfer : Bool)
  | engine (id : Nat)
  deriving DecidableEq, Repr

/-- An OWNED or OVERFLOWED semaphore; an absent one is FREE (R151). -/
structure Sem where
  count : Word
  ovf   : Bool
  /-- A signal at system scope is among those before: a wait served from now on is a system-scope acquire (R268). -/
  sys   : Bool
  q     : List (Waiter × Word)
  deriving DecidableEq, Repr

/-- A windrow (R149). -/
structure Windrow where
  en      : Bool
  sem     : BitVec 8
  base    : BitVec 23
  rows    : BitVec 12
  pitch   : BitVec 17
  head    : Word
  arrived : Word
  /-- A `mv.win` (engine, number) serves it (R240). -/
  served  : Option (Nat × Nat)
  deriving DecidableEq, Repr

/-- The demand or force that dispatched a sub-tile, as the fault record needs it (R195, R196). -/
structure Demander where
  kind  : Nat
  pc    : Word
  sid   : Nat
  agent : Nat
  /-- The strand word that made it, if a strand is to trap (key). -/
  key   : Option Nat
  /-- The move command of the engine `agent` that made it, for kind 6. -/
  num   : Nat
  deriving DecidableEq, Repr

/-- The state of a sub-tile (R186, R190). -/
inductive SubSt where
  | opn
  | disp (by_ : Demander)
  | done
  | dropped
  deriving DecidableEq, Repr

/-- The wait of a sheaf (R162). -/
inductive SheafWait where
  | notQueued
  | queued
  | served
  deriving DecidableEq, Repr

/-- A live stook entry (R160, R186). -/
structure Sheaf where
  seq   : Nat
  lid   : Nat
  team  : Nat
  /-- The bank of the team on its core. -/
  bank  : Nat
  word  : TileWord
  cmdNo : Word
  pc    : Word
  sid   : Nat
  vfrm  : BitVec 10
  zmul  : Bool
  /-- Captured maps of A and D (64 bytes each), for a nonzero map number. -/
  mapA  : Option (List Byte)
  nest  : List (BitVec 16)
  /-- The latched format of the half that an `mm` or `mm.tri` reads, as its push found it (R168, R173). -/
  wfmt  : BitVec 4
  subs  : List SubSt
  wait  : SheafWait
  faulted : Bool
  /-- The kernel has failed or left draining: only started work still completes. -/
  dying : Bool
  /-- Strand whose open granary block appended it (R210). -/
  block : Option Nat
  /-- Walker work of this sheaf has begun. -/
  begun : Bool
  /-- Its place among the sheaves of its core whose first work has been dispatched or dropped whole (R162, R190), and the
  step in which that happened (R219). -/
  due   : Option Nat
  since : Option Nat
  deriving DecidableEq, Repr

/-- A team and the team state of R315. -/
structure Team where
  lid    : Nat
  num    : Nat
  place  : Place
  /-- Which of the core's two banks holds its control store and weight halves. -/
  bank   : Nat
  cmdNo  : Word
  regions : Vector Region 16
  wfmt   : Vector (BitVec 4) 2
  gthr   : Word
  gfmt   : BitVec 4
  grel   : Bool
  glim   : BitVec 4
  gstep  : Word
  /-- Open granary blocks by slot, with the key of the entry (R205, R209). -/
  blocks : Tbl (BlockSt × Word)
  lo     : Word
  hi     : Word
  started : Bool
  /-- A park of this team is requested, to give its core to another kernel (R342, R344). -/
  park   : Option Nat
  parked : Bool
  /-- Save slot reserved for the team, if any. -/
  slot   : Option Nat
  /-- The core that last held the team. -/
  lastCore : Option Nat
  /-- The retired core on whose spare the team resumes (R391). -/
  home   : Option Nat
  /-- When the team began to wait (R343). -/
  waited : Nat
  /-- Its stook entries while it is swapped out (R187, R319). -/
  kept   : List Sheaf
  deriving DecidableEq, Repr

/-- A word in an engine queue: a `tstore` or an `xfer` (R161). -/
structure Queued where
  seq   : Nat
  lid   : Nat
  team  : Nat
  word  : TileWord
  cmdNo : Word
  pc    : Word
  sid   : Nat
  mapA  : Option (List Byte)
  wait  : SheafWait
  /-- Peer cores whose bytes a `tstore` reads, with its order point on each (R161). -/
  far   : List (Nat × Nat)
  deriving DecidableEq, Repr

/-- A range scoreboard entry (R145): granules lo to hi of the data scratchpad, for a move command. -/
structure SbEntry where
  lo   : Nat
  hi   : Nat
  eng  : Nat
  num  : Nat
  /-- Stook sequence at the registration's order point. -/
  mark : Nat
  live : Bool
  deriving DecidableEq, Repr

/-- The states of a granary entry; EMPTY is absence (R204). -/
inductive GSt where
  | filling
  | valid
  deriving DecidableEq, Repr

/-- A granary entry (R202 to R204). -/
structure GEntry where
  ctx   : Nat
  key   : Word
  st    : GSt
  fmt   : BitVec 4
  input : List Byte
  output : List Byte
  /-- The runs of the granary store where the input and the output lie. -/
  place : List (Nat × Nat)
  outPlace : List (Nat × Nat)
  rc    : Nat
  step  : Word
  pins  : List Nat
  /-- Reached by `gr.inval` while pinned. -/
  inval : Bool
  /-- Order of last use (R211). -/
  used  : Nat
  deriving DecidableEq, Repr

/-- The loft bank of a core (R318). -/
inductive LoftSt where
  | empty
  | filled
  | held
  | spilling
  | clean
  deriving DecidableEq, Repr

/-- The counters of a core (R144, R145, R201, R205). -/
structure Counters where
  bkacc : DWord
  bkcfl : DWord
  bkfull : Word
  bkhigh : BitVec 5
  sbstall : Word
  sbfull : Word
  shapp : DWord
  shsub : DWord
  shdrop : DWord
  shdisc : Word
  shovf : Word
  shstray : Word
  shfault : Word
  shdem : Word
  shpeak : BitVec 11
  ghit : DWord
  gmiss : DWord
  gstale : Word
  gevict : Word
  deriving DecidableEq, Repr

/-- A core (R11). -/
structure Core where
  active  : Option Nat
  /-- Teams all of whose strands have ended, and which still hold bytes of the core (R83, R187). -/
  spent   : List Nat
  held    : Option Nat
  /-- The slot that issued last (R84). -/
  last    : Nat
  loft    : LoftSt
  /-- A team switch has been requested (R317); `due`: the deadline of 4,096 cycles has passed. -/
  switch  : Bool
  due     : Bool
  stook   : List Sheaf
  nextSeq : Nat
  /-- Dispatches and drops so far, which put the waits of sheaves in their order (R162). -/
  clock   : Nat
  tq      : List Queued
  xq      : List Queued
  windrows : Vector Windrow 8
  sb      : Tbl SbEntry
  eager   : Bool
  cnt     : Counters
  gran    : List GEntry
  gclock  : Nat
  /-- Words of the instruction scratchpad that a store has changed since the last `fence.i`: word offset and the word
  a buffered fetch may still give (R89, R280). -/
  stale   : List (Nat × Word)
  /-- RETIRE CORE takes the core out, and its spare comes in once it holds no team (R391). -/
  retired : Bool
  deriving DecidableEq, Repr

/-- Work on a cluster's walker (R216, R219). -/
structure WalkRun where
  core  : Nat
  seq   : Nat
  k     : Vector Word 16
  wpc   : Int
  er    : Nat
  buf   : List (Nat × Nat)
  steps : Nat
  deriving DecidableEq, Repr

/-- A box in a slot of a command (R253). -/
structure BoxSlot where
  box : Nat
  /-- `mv.scat` in its write phase. -/
  ph  : Bool
  cur : Nat
  /-- Read values of a `mv.scat` box, an index and an element at a time; of a `mv.nvm`, the locations of its buffer's pieces,
  each with its ordering kind. -/
  saved : List (Nat × List Byte)
  deriving DecidableEq, Repr

/-- The states of a move command (R252). -/
inductive CmdSt where
  | issued
  | active
  | suspended
  | retired
  | ended
  | cancelled
  deriving DecidableEq, Repr

/-- An access of a command's box that met an uncorrectable error, or that waits for another package: its move address,
its box, the array code of R256, and whether it reads an old value. -/
structure Trouble where
  va   : DWord
  box  : Nat
  arr  : BitVec 2
  old  : Bool
  deriving DecidableEq, Repr

/-- A move command (R224, R249 to R253). -/
structure Cmd where
  num   : Nat
  lid   : Nat
  /-- Byte offset of the word that issued it. -/
  pc    : BitVec 20
  op    : Instr
  /-- Registers and parameter block as they stood at issue (R224). -/
  a     : Vector DWord 16
  blk   : List Byte
  rows  : Nat
  st    : CmdSt
  after : Bool
  /-- Bit b: box b is complete. -/
  bmp   : BitVec 64
  slots : List BoxSlot
  flags : BitVec 5
  status : Word
  info  : DWord
  nres  : Nat
  /-- Status word and move address of the suspension record (R253). -/
  susp  : Option (Word × DWord)
  /-- The fault event of the suspension is in the die's fault queue (R288). -/
  posted : Bool
  /-- An uncorrectable error that an access has met (R257). -/
  ue    : Option Trouble
  /-- An access that waits because no link reaches its package (R370). -/
  far   : Option Trouble
  /-- Cores whose scoreboard the command has found full, for the registration that waits there (R145). -/
  full  : List Nat
  /-- Bytes written and element bytes read, by move address, for `mv.csum` (R241). -/
  wrote : Tbl Byte
  readB : Tbl Byte
  /-- Bytes of row `arrived` that a `mv.win` has written (R249), and the windrow as that row began (R240). -/
  done  : Nat
  row   : Option Windrow
  deriving DecidableEq, Repr

/-- A run of a move program (R222, R223). -/
structure Run where
  lid   : Nat
  /-- The pushing core and team, and the header of the `xfer` word. -/
  core  : Nat
  team  : Nat
  hdr   : TileHdr
  a     : Vector DWord 16
  n     : Vector DWord 6
  pc    : DWord
  /-- Offset of the word that passed control to `pc` (R247). -/
  from_ : BitVec 20
  ended : Bool
  status : Word
  /-- Waits on a scratchpad semaphore; `served` once the wait is served (R244). -/
  semW  : SheafWait
  /-- `mv.atom` with ret = 1 that the engine waits for: command number and result register (R239). -/
  atomW : Option (Nat × AReg)
  /-- The last command issued in this run (R241). -/
  last  : Option Nat
  /-- The word at `pc` has found eight commands unretired, with the retire counter at this value (R224). -/
  stuck : Option Nat
  deriving DecidableEq, Repr

/-- A transfer engine (R223, R224). -/
structure Engine where
  issue  : Nat
  retire : Nat
  run    : Option Run
  cmds   : List Cmd
  deriving DecidableEq, Repr

/-- A cached leaf translation (R285). -/
structure TlbEntry where
  ctx  : Nat
  va   : Nat
  size : Nat
  leaf : DWord
  deriving DecidableEq, Repr

/-- A cached table pointer of the walk cache (R285). -/
structure WalkPtr where
  ctx : Nat
  lvl : Nat
  va  : Nat
  tbl : Nat
  deriving DecidableEq, Repr

/-- An access that waits for a walk: its place among the requests of its die (R286), its engine, command and box, its move
address, the permissions it needs, and whether its fault counts as a write (R249, R284). -/
structure WalkReq where
  seq : Nat
  eng : Nat
  num : Nat
  box : Nat
  mva : DWord
  rd  : Bool
  wr  : Bool
  wbit : Bool
  deriving DecidableEq, Repr

/-- How a walk ends: a leaf and its page size, or a fault code of R256. -/
inductive WalkEnd where
  | leaf (e : DWord) (size : Nat)
  | fault (code : BitVec 2)
  deriving DecidableEq, Repr

/-- What a walk finds: its end, the pointers it passed, and the addresses of the entries it read, each of 8 bytes. -/
structure Walked where
  fin   : WalkEnd
  ptrs  : List WalkPtr
  reads : List Nat
  deriving DecidableEq, Repr

/-- A walk of the walk queue (R286): the engine whose request began it, whether a walker has taken it, what it has found,
with the location of an uncorrectable error that it met, and the accesses that wait for it. -/
structure Walk where
  ctx   : Nat
  va    : Nat
  eng   : Nat
  taken : Bool
  out   : Option (Walked × Option Nat)
  req   : List WalkReq
  deriving DecidableEq, Repr

/-- A translation-fault event in a die's fault queue (R288). -/
structure FaultEvent where
  /-- In X0's queue: events of its context in the backlog that came before it (R288, R332). -/
  behind : Nat
  ctx  : Nat
  code : BitVec 2
  wr   : Bool
  nmrg : Word
  fva  : DWord
  eng  : Nat
  lid  : Nat
  num  : Nat
  deriving DecidableEq, Repr

/-- The states of a Cetha link (R369). -/
inductive LinkSt where
  | down
  | training
  | active
  | degraded
  | retraining
  deriving DecidableEq, Repr

/-- A Cetha link (R369, R371). -/
structure Link where
  st    : LinkSt
  spu   : Bool
  bad   : BitVec 9
  swid  : BitVec 16
  lcrc  : DWord
  lrtr  : Word
  lfail : Word
  lflit : DWord
  /-- Sequence numbers of flits already received (R370). -/
  seen  : List Nat
  deriving DecidableEq, Repr

/-- A firmware image in a slot: index, version, measurement (R383, R384). -/
structure Loaded where
  version : Word
  digest  : List Byte
  deriving DecidableEq, Repr

/-- A transfer die (R14). -/
structure Die where
  engines : Tbl Engine
  l1     : Tbl (List TlbEntry)
  tlb    : List TlbEntry
  wcache : List WalkPtr
  walks  : List Walk
  /-- Walk requests so far, and the engine of the die whose request a walker took last (R286). -/
  asked  : Nat
  turn   : Nat
  faults : List FaultEvent
  /-- Fault events that wait to enter the fault queue (R288). -/
  posts  : List FaultEvent
  tl1m : DWord
  tllm : DWord
  twalk : DWord
  tmrg : DWord
  tflt : Word
  tfqw : Word
  lvrd : DWord
  lvfl : DWord
  /-- Remote-read buffer: line number (PA / 256) and its bytes (R277). -/
  rrb    : Tbl (List Byte)
  windows : List RedWindow
  /-- A list of windows that the switches have advertised and that is not yet in effect (R372). -/
  newWindows : Option (List RedWindow)
  links  : Tbl Link
  /-- The high words latched by COUNTERS reads of the low words of 64-bit counters, by the high word's offset (R290). -/
  latch  : Tbl Word
  /-- Weighted round robin per priority: queue offered last and admissions it has had in a row (R328). -/
  wrr    : Tbl (Nat × Nat)
  deriving DecidableEq, Repr

/-- A contribution sent to a Cetha switch (R373, R374): its identifier, box and move address, the physical address of
its element, and what the switch does: `op` of R239, or 10 for the addition of an `mv.red`. `fmt` is the element's
format, 15 for INT64. -/
structure Contribution where
  lid  : Nat
  pkg  : Nat
  eng  : Nat
  num  : Nat
  elem : Nat
  box  : Nat
  va   : DWord
  pa   : Nat
  fmt  : BitVec 4
  op   : BitVec 4
  sat  : Bool
  val  : DWord
  cmp  : DWord
  /-- Flags that the engine's own sum has raised (R36). -/
  fl   : BitVec 5
  accepted : Bool
  deriving DecidableEq, Repr

/-- An error log entry (R297). -/
structure LogEntry where
  addr : BitVec 48
  unit : BitVec 16
  syn  : Word
  ctx  : Option (BitVec 6)
  ue   : Bool
  inj  : Bool
  chan : BitVec 7
  cnt  : DWord
  deriving DecidableEq, Repr

/-- The error log, counters and injection register of one array instance (R297, R298). -/
structure ErrArray where
  ecnt : DWord
  ucnt : DWord
  lovf : Word
  log  : List LogEntry
  iaddr : BitVec 48
  arm  : Bool
  iue  : Bool
  deriving DecidableEq, Repr

/-- The states of a context (R301). -/
inductive CtxSt where
  | free
  | unlocked
  | locked
  | run
  | error
  deriving DecidableEq, Repr

/-- A storage pair (R380). -/
structure Pair where
  sst   : BitVec 2
  nst   : BitVec 16
  cntlid : BitVec 16
  taddr : Vector Word 4
  tport : BitVec 16
  port  : Bool
  nsid  : Word
  cdva  : BitVec 52
  qsz   : BitVec 16
  lbs   : BitVec 16
  disc  : Bool
  deriving DecidableEq, Repr

/-- The seal of a packet that the device sends (R378): its key and nonce, the seal header, and the additional data, which are
the transport headers and the seal header. -/
structure SealOut where
  key    : List Byte
  nonce  : List Byte
  header : DWord
  aad    : List Byte
  deriving DecidableEq, Repr

/-- What leaves the device (R308, R376, R377). -/
inductive Out where
  /-- A management response in a session, as its bytes (R308). -/
  | resp (sess : Nat) (bytes : List Byte)
  /-- An SPDM answer to request number `code`. -/
  | spdm (conn code : Nat) (bytes : List Byte)
  /-- An SPDM error: 0x04 UnexpectedRequest, 0x03 Busy, 0x07 UnsupportedRequest, 0x05 refusal in FINISH. -/
  | spdmError (conn code : Nat)
  | accepted (port : Bool) (id : Nat)
  | refused (port : Bool)
  | rdmaAck (ctx : BitVec 6) (port : Bool) (cover : SealOut) (data : List Byte)
  /-- Remote access error NAK (R377). -/
  | rdmaNak (ctx : BitVec 6) (port : Bool) (cover : SealOut)
  /-- Invalid request NAK (R375): on a management connection, or on a context connection, sealed. -/
  | invalidNak (port : Bool)
  | sealedNak (ctx : BitVec 6) (port : Bool) (cover : SealOut)
  /-- A storage command to a target: pair, first block, count, and the data of a write to storage (R242). -/
  | nvm (ctx : Nat) (pair : Nat) (lba count : DWord) (dir : Bool) (data : List Byte)
  /-- A connect request to a storage target (R381). -/
  | nvmConnect (ctx : Nat) (pair : Nat)
  deriving DecidableEq, Repr

/-- The RoCE keys of a context (R378, R379). Receiving: the secret, the accepted phase, whether the other phase is already
accepted, the highest sequence number, and the answers sent by the number of the packet that they answer. Sending: the secret, the
phase and the sequence number of the last packet. -/
structure Keys where
  phase : Bool
  both  : Bool
  high  : Nat
  answers : Tbl Out
  rx    : List Byte
  tx    : List Byte
  sendPhase : Bool
  sent  : Nat
  deriving DecidableEq, Repr

/-- A context (R299 to R303). The configuration block holds its 192 bytes as 24 words. -/
structure Ctx where
  st     : CtxSt
  cfg    : Vector DWord 24
  grants : List (Nat × Nat)
  digest : List Byte
  q      : Nat
  queues : List Nat
  ehead  : Word
  etail  : Word
  elost  : Word
  est    : BitVec 2
  /-- The backlog of events that wait for the ring, 64 bytes each; translation faults wait in their dies (R332). -/
  waiting : List (List Byte)
  /-- The event whose write halted the ring: 0 the backlog's first, d + 1 the first fault of the context in die d. -/
  retry  : Option Nat
  pairs  : Tbl Pair
  /-- Append position of the write log, in entries (R264). -/
  wlPos  : Nat
  slots  : Tbl Nat
  session : Option Nat
  keys   : Option Keys
  conns  : List Bool
  deriving DecidableEq, Repr

/-- The states of a queue; UNBOUND is absence (R322). -/
inductive QSt where
  | bound
  | active
  | halted
  deriving DecidableEq, Repr

/-- A queue (R321 to R329). -/
structure Queue where
  ctx   : Nat
  b     : Binding
  st    : QSt
  hc    : BitVec 2
  tail  : Word
  head  : Word
  chead : Word
  ctail : Word
  /-- Completion slots reserved and not yet written. -/
  resv  : Nat
  /-- The fetched record not yet admitted. -/
  fetched : Option Nat
  /-- Records of the queue in ring order that have not completed (record ids). -/
  open_ : List Nat
  /-- Those that have completed and whose completion records are still to be written, in order of completion (R329). -/
  done : List Nat
  deriving DecidableEq, Repr

/-- The kernel descriptor's fields (R334). -/
structure KDesc where
  nsm  : Nat
  lp   : Bool
  tw   : Bool
  slo  : Nat
  shi  : Nat
  sv   : Bool
  eoff : Nat
  tva  : Nat
  tsz  : Nat
  dsz  : Nat
  dva  : Nat
  mva  : Nat
  moff : Nat
  msz  : Nat
  abase : Nat
  acnt : Nat
  regions : List (Nat × Nat × Nat)
  deriving DecidableEq, Repr

/-- The states of a launch (R333). -/
inductive KSt where
  | admitted
  | prologue
  | waiting
  | running
  | draining
  | retired
  | failed
  | rolling
  | stopped
  /-- STOPPED by a service eviction that found no save slots (status 0x05). -/
  | serviced
  deriving DecidableEq, Repr

/-- A barrier of a kernel; UNBOUND is absence (R359). -/
structure Bar where
  word   : Word
  k      : Nat
  arr    : List (Nat × Word)
  broken : Bool
  results : Tbl Word
  deriving DecidableEq, Repr

/-- The tile fault record (R196), its words as laid out. -/
structure TileFault where
  dpc    : Word
  apc    : Word
  cmd    : Word
  status : Word
  engine : Nat
  kind   : Nat
  asid   : Nat
  tag    : BitVec 15
  tv     : Bool
  dsid   : Nat
  agent  : Nat
  subt   : Nat
  deriving DecidableEq, Repr

/-- The move fault record (R261). -/
structure MoveFault where
  eng    : Nat
  pc     : BitVec 20
  num    : Nat
  status : Word
  nres   : Nat
  info   : DWord
  deriving DecidableEq, Repr

/-- The fault sections of a kernel (R349). -/
structure Faults where
  fk    : Nat
  fm    : Nat
  plid  : Nat
  cause : Nat
  sid   : Nat
  unit  : Nat
  info  : Word
  pc    : Word
  hi    : Word
  tile  : Option TileFault
  move  : Option MoveFault
  deriving DecidableEq, Repr

/-- A kernel (R333, R334). -/
structure Kernel where
  lid   : Nat
  recId : Nat
  ctx   : Nat
  member : Nat
  desc  : KDesc
  arg   : Word
  st    : KSt
  fl    : Faults
  /-- Rollback was enabled by the record; ability is still held; a rollback was taken; ability was lost. -/
  rbOn  : Bool
  rb    : Bool
  rbt   : Bool
  rbl   : Bool
  logSeq : Nat
  /-- Entries of the write log: granule address and ring position, newest first (R264). -/
  log   : List (Nat × Nat)
  groups : Tbl (List Nat)
  bars  : Tbl Bar
  fired : Bool
  producers : List Nat
  /-- Cores Reeve has given the kernel, and every core that a team of it has been on (R203). -/
  cores : List Nat
  used  : List Nat
  deriving DecidableEq, Repr

/-- A pipe (R338, R341). -/
structure Pipe where
  prd   : Nat
  con   : Nat
  depth : Nat
  pf    : BitVec 4
  cf    : BitVec 4
  sat   : Bool
  q     : List Word
  samples : List Nat
  deriving DecidableEq, Repr

/-- The state of a fetched launch record. -/
inductive RecSt where
  | ready
  | admitted
  /-- Complete with a status; its completion record is not yet written. -/
  | complete (status : BitVec 8)
  deriving DecidableEq, Repr

/-- A fetched launch record (R325, R336). -/
structure Rec where
  ctx   : Nat
  qid   : Nat
  seq   : Word
  form  : BitVec 4
  rb    : Bool
  es    : Bool
  utag  : BitVec 16
  /-- The status of a malformed or unreadable record. -/
  bad   : Option (BitVec 8)
  st    : RecSt
  aged  : Bool
  /-- The kernels of the record, by member. -/
  lids  : List Nat
  descs : List KDesc
  args  : List Word
  /-- Stages of a pipeline: least and most teams; its budget; its pipes. -/
  stages : List (Nat × Nat)
  budget : Nat
  pipes : Tbl Pipe
  /-- Open join: count left, children that may still come, whether one did not retire; and the join a child belongs to. -/
  joinLeft : Nat
  joinSeen : Nat
  joinBad : Bool
  joinReady : Bool
  parent : Option Nat
  /-- Faults of a record that no kernel stands for (a failed join). -/
  fl    : Option Faults
  start : Nat
  deriving DecidableEq, Repr

/-- The device's start states (R386). -/
inductive DevSt where
  | off
  | rom
  | loading
  | starting (warm : Bool)
  | ready
  deriving DecidableEq, Repr

/-- An SPDM session or a key exchange in progress (R306, R307). -/
inductive SessKind where
  | opening (tenant : Option (List Byte))
  | admin
  | tenant (ctx : Nat)
  deriving DecidableEq, Repr

/-- An access that may be in progress on another core: of a strand word, of a sub-tile or queued `tstore`, of a box. -/
inductive Access where
  | strand (key : Nat)
  | tile (core seq sub : Nat)
  | box (eng num box : Nat)
  deriving DecidableEq, Repr

/-- An access that has arrived at a core and waits there: its order point there (R189), and the runs that it reads and
writes there. -/
structure Seat where
  acc  : Access
  core : Nat
  mark : Nat
  runs : List (Nat × Nat)
  deriving DecidableEq, Repr

/-- A host access that waits until a link reaches the package it goes to (R370): a WRITE with its virtual address, its
physical pieces and its data, the Connect data of a storage pair, or a write of the host window that holds a tail pointer and
follows such a WRITE on its connection, with its offset and words (R279). -/
inductive Held where
  | write (p : Sealed) (va : Nat) (ps : List (Nat × Nat)) (data : List Byte)
  | connect (ctx h : Nat)
  | window (p : Sealed) (off : Nat) (ws : List Word)
  deriving DecidableEq, Repr

/-- The device. -/
structure State where
  /-- The model's own: who acts, the schedule and the inputs to come, the steps made, what left the device (log 1). -/
  cur    : Agent
  agenda : List Agent
  tick   : Nat
  outbox : List Out
  mem    : Mem
  strands : Tbl Strand
  teams  : Tbl Team
  kernels : Tbl Kernel
  recs   : Tbl Rec
  sems   : Tbl Sem
  cores  : Tbl Core
  walkers : Tbl WalkRun
  dies   : Tbl Die
  ctxs   : Tbl Ctx
  queues : Tbl Queue
  sessions : Tbl SessKind
  mgmtConns : Tbl Bool
  nextConn : Nat
  nextRec : Nat
  nextLid : Nat
  /-- The slice that offered an admission last (R328). -/
  turn   : Nat
  /-- Live 64 KiB granules of own-package memory, rising (R293). -/
  live   : List Nat
  /-- Locations of poisoned ECC words (R295). -/
  poison : List Nat
  /-- Locations whose stored word will meet an injected error at its next read: location and class (R298). -/
  injected : Tbl Bool
  arrays : Tbl ErrArray
  contribs : List Contribution
  /-- Accesses that wait on a core they have arrived at (R189). -/
  seats  : List Seat
  dev    : DevSt
  pkg    : Option (BitVec 7)
  meas   : Tbl (List Byte)
  fuseAdmin : Option (List Byte)
  fuseFast : Bool
  floors : Tbl Nat
  /-- The arithmetic clock in quarters of 1 MHz (R392). -/
  mhz    : Nat
  hold   : Bool
  /-- Compute dies and attachments out of service, spare rows and channels used, spare cores used (R390, R391). -/
  fencedDies : List Nat
  fencedAtt : List Nat
  spares : List (Nat × SpareUnit)
  spareCores : Tbl Nat
  carrier : List Bool
  /-- Firmware activations in progress: for an index, the dies of each, oldest first (R389). -/
  activating : Tbl (List (List Nat))
  /-- Requests that wait for an activation, in their order of arrival (R389). -/
  requests : List Instr
  /-- Host accesses that wait for a link (R370). -/
  held   : List Held
  /-- Steps of the arithmetic clock that each die has counted, X0 to X3 and C0 to C7 (R25, R392). -/
  steps  : Vector Word 12
  /-- Firmware slots A and B of the dies, X0 to X3 as 0 to 3 and C0 to C7 as 4 to 11, by image index (R384, R389). -/
  fwA    : Tbl (Tbl Loaded)
  fwB    : Tbl (Tbl Loaded)
  /-- The START DEVICE request that awaits its response (R386). -/
  starter : Option Mgmt
  deriving DecidableEq, Repr

/-- Why the machine stops. -/
inductive Fault where
  /-- Raised by a meaning of a strand, tile, walker or move word when `State.cur` names no agent that could execute
  it (no such strand, engine run, walker work or sub-tile): the manual gives a word no effect without its agent.
  No step of the machine raises it. Safe. -/
  | noAgent
  deriving DecidableEq, Repr

/-- Why an instruction has no meaning. -/
inductive Refusal where
  /-- Raised by `exec` for an instruction the model gives no meaning yet, by its mnemonic. Safe. -/
  | notModelled (mnemonic : String)
  deriving DecidableEq, Repr

/-- The four transfer dies, the cores and every other table are empty before power is applied; fuse values, of which
the manual states none, are blank (log 3). -/
def State.reset : State where
  cur := .none
  agenda := []
  tick := 0
  outbox := []
  mem := []
  strands := []
  teams := []
  kernels := []
  recs := []
  sems := []
  cores := []
  walkers := []
  dies := []
  ctxs := []
  queues := []
  sessions := []
  mgmtConns := []
  nextConn := 0
  nextRec := 0
  nextLid := 1
  turn := 3
  live := []
  poison := []
  injected := []
  arrays := []
  contribs := []
  seats := []
  dev := .off
  pkg := none
  meas := []
  fuseAdmin := none
  fuseFast := true
  floors := []
  mhz := 4400
  hold := false
  fencedDies := []
  fencedAtt := []
  spares := []
  spareCores := []
  carrier := [false, false]
  activating := []
  requests := []
  held := []
  steps := Vector.replicate 12 0
  fwA := []
  fwB := []
  starter := none

end Sys2Proof.Machine
end

