-- ==== Sys2Proof/Machine/Store.lean ====
section
/-! DEFINITION. Sparse tables and memory: lookup and update by key, and runs of bytes by location. Every access of the
machine to stored bytes goes through `Mem.read` and `Mem.write`, so byte order and the canonical form are decided here. -/

namespace Sys2Proof.Machine

/-- The entry of a table at a key. -/
def Tbl.get? {α : Type} : Tbl α → Nat → Option α
  | [], _ => none
  | (k, v) :: t, n => if k = n then some v else Tbl.get? t n

/-- The table with an entry set, in its place in the rising order. -/
def Tbl.set {α : Type} : Tbl α → Nat → α → Tbl α
  | [], n, a => [(n, a)]
  | (k, v) :: t, n, a => if n < k then (n, a) :: (k, v) :: t else if k = n then (n, a) :: t else (k, v) :: Tbl.set t n a

/-- The table without an entry. -/
def Tbl.erase {α : Type} (t : Tbl α) (n : Nat) : Tbl α := t.filter (fun e => e.1 ≠ n)

/-- The table with an entry changed, if it is there. -/
def Tbl.modify {α : Type} (t : Tbl α) (n : Nat) (f : α → α) : Tbl α :=
  t.map (fun e => if e.1 = n then (e.1, f e.2) else e)

/-- The cells that list the nonzero bytes of a run at `a`. -/
def cellsOf : Nat → List Byte → Mem
  | _, [] => []
  | a, b :: bs => if b = 0 then cellsOf (a + 1) bs else (a, b) :: cellsOf (a + 1) bs

/-- The bytes of `n` locations from `a`, of cells none of which lies below `a`; an unlisted location reads 0 (log 4). -/
def bytesOf : Nat → Nat → Mem → List Byte
  | _, 0, _ => []
  | a, n + 1, [] => 0 :: bytesOf (a + 1) n []
  | a, n + 1, (b, v) :: m =>
    if b = a then v :: bytesOf (a + 1) n m else 0 :: bytesOf (a + 1) n ((b, v) :: m)

/-- The byte at a location. -/
def Mem.get : Mem → Nat → Byte
  | [], _ => 0
  | (b, v) :: m, a => if b = a then v else Mem.get m a

/-- The bytes of `n` locations from `a`. -/
def Mem.read (m : Mem) (a n : Nat) : List Byte := bytesOf a n (m.dropWhile (fun c => c.1 < a))

/-- Memory with the bytes `bs` at `a` and the locations after it. -/
def Mem.write (m : Mem) (a : Nat) (bs : List Byte) : Mem :=
  m.takeWhile (fun c => c.1 < a) ++ cellsOf a bs ++ m.dropWhile (fun c => c.1 < a + bs.length)

/-- Memory with `n` locations from `a` zero. -/
def Mem.clear (m : Mem) (a n : Nat) : Mem :=
  m.takeWhile (fun c => c.1 < a) ++ m.dropWhile (fun c => c.1 < a + n)

/-- The cells of `n` locations from `a`, by their offset from `a`. -/
def Mem.slice (m : Mem) (a n : Nat) : Mem :=
  ((m.dropWhile (fun c => c.1 < a)).takeWhile (fun c => c.1 < a + n)).map (fun c => (c.1 - a, c.2))

/-- Memory with the `n` locations from `a` replaced by a slice. -/
def Mem.paste (m : Mem) (a n : Nat) (sl : Mem) : Mem :=
  m.takeWhile (fun c => c.1 < a) ++ (sl.filter (fun c => c.1 < n)).map (fun c => (a + c.1, c.2)) ++
    m.dropWhile (fun c => c.1 < a + n)

/-- The canonical form: locations strictly rise and no byte is 0. -/
def Mem.wf : Mem → Bool
  | [] => true
  | [(_, v)] => v != 0
  | (a, v) :: (b, w) :: m => v != 0 && decide (a < b) && Mem.wf ((b, w) :: m)

/-- The little-endian number that bytes hold (R2). -/
def leNat : List Byte → Nat
  | [] => 0
  | b :: bs => b.toNat + 256 * leNat bs

/-- The `n` little-endian bytes of a number. -/
def leBytes : Nat → Nat → List Byte
  | 0, _ => []
  | n + 1, v => BitVec.ofNat 8 v :: leBytes n (v / 256)

/-- The numbers of `es` bytes each that a run of bytes holds, `n` of them. -/
def leSplit (es : Nat) : Nat → List Byte → List Nat
  | 0, _ => []
  | n + 1, bs => leNat (bs.take es) :: leSplit es n (bs.drop es)

/-- The bytes of a list of numbers of `es` bytes each. -/
def leJoin (es : Nat) (vs : List Nat) : List Byte := vs.flatMap (leBytes es)

/-- The little-endian number of `n` bytes at `a`. -/
def Mem.num (m : Mem) (a n : Nat) : Nat := leNat (m.read a n)

/-- Memory with the low `n` bytes of a number at `a`. -/
def Mem.setNum (m : Mem) (a n v : Nat) : Mem := m.write a (leBytes n v)

end Sys2Proof.Machine
end

