-- ==== Sys2Proof/Machine/Numbers.lean ====
section
/-! DEFINITION. Numbers and arithmetic (R26 to R53): the element formats, exact values, rounding, conversion, block
formats, and the exact functions behind the arithmetic of every engine. Values are exact; a value that no dyadic number
holds (a quotient, a root, an exponential) carries many more bits than any format and a last bit that says it is
inexact, so that its rounding is correct (log 11). -/

namespace Sys2Proof.Machine

/-- Floating-point flags NX, UF, OF, DZ, NV in bits 0 to 4 (R34). -/
abbrev Flags := BitVec 5

def fNX : Flags := 1
def fUF : Flags := 2
def fOF : Flags := 4
def fDZ : Flags := 8
def fNV : Flags := 16

/-- An exact value (R42): a NaN and whether it is signalling, an infinity, or ± m × 2^e. -/
inductive Num where
  | nan (sig : Bool)
  | inf (neg : Bool)
  | fin (neg : Bool) (m : Nat) (e : Int)
  deriving DecidableEq, Repr

/-- Which special values a floating-point format has (R27). -/
inductive Special where
  | ieee
  | e4m3
  | none
  deriving DecidableEq, Repr

/-- A floating-point element format (R27): exponent bits, mantissa bits, bias, specials. -/
structure FFmt where
  eb : Nat
  mb : Nat
  bias : Int
  sp : Special
  deriving DecidableEq, Repr

/-- A rounding mode (R33); the stochastic mode carries the drawn bits (R37). -/
inductive Rm where
  | rne
  | rtz
  | rdn
  | rup
  | rmm
  | sto (u : Word)
  deriving DecidableEq, Repr

/-- A result code and the flags that producing it raises. -/
structure Rnd where
  code : Nat
  fl   : Flags
  deriving DecidableEq, Repr

/-! ## Formats (R26 to R32) -/

/-- The format codes of R26 by name. -/
def fFP32 : BitVec 4 := 0
def fBF16 : BitVec 4 := 1
def fFP16 : BitVec 4 := 2
def fE4M3 : BitVec 4 := 3
def fE5M2 : BitVec 4 := 4
def fE2M1 : BitVec 4 := 5
def fMX8E4 : BitVec 4 := 6
def fMX8E5 : BitVec 4 := 7
def fMX4 : BitVec 4 := 8
def fYF4 : BitVec 4 := 9
def fI8 : BitVec 4 := 10
def fI32 : BitVec 4 := 11
def fI16 : BitVec 4 := 12
def fU8 : BitVec 4 := 13
def fSIGN : BitVec 4 := 14

/-- Element width in bits (R26). -/
def elemW (f : BitVec 4) : Nat :=
  match f.toNat with
  | 0 | 11 => 32
  | 1 | 2 | 12 => 16
  | 3 | 4 | 6 | 7 | 10 | 13 => 8
  | 5 | 8 | 9 => 4
  | _ => 1

/-- The block formats (R26, R32). -/
def isBlock (f : BitVec 4) : Bool := decide (6 ≤ f.toNat ∧ f.toNat ≤ 9)

/-- The bytes of a side-array entry (R32). -/
def sideBytes (f : BitVec 4) : Nat := if f = fYF4 then 2 else 1

/-- The floating-point element formats, of a block format its element format (R27, R43). -/
def ffmt (f : BitVec 4) : Option FFmt :=
  match f.toNat with
  | 0 => some ⟨8, 23, 127, .ieee⟩
  | 1 => some ⟨8, 7, 127, .ieee⟩
  | 2 => some ⟨5, 10, 15, .ieee⟩
  | 3 | 6 => some ⟨4, 3, 7, .e4m3⟩
  | 4 | 7 => some ⟨5, 2, 15, .ieee⟩
  | 5 | 8 | 9 => some ⟨2, 1, 1, .none⟩
  | _ => none

/-- The integer formats: width, and whether signed (R30). -/
def ifmt (f : BitVec 4) : Option (Nat × Bool) :=
  match f.toNat with
  | 10 => some (8, true)
  | 11 => some (32, true)
  | 12 => some (16, true)
  | 13 => some (8, false)
  | _ => none

/-- The canonical NaN (R27); E2M1 has none and gives +0 (R39). -/
def canonNaN (F : FFmt) : Nat :=
  match F.sp with
  | .ieee => (2 ^ F.eb - 1) * 2 ^ F.mb + 2 ^ (F.mb - 1)
  | .e4m3 => 0x7F
  | .none => 0

/-- The largest finite magnitude code (R27). -/
def maxCode (F : FFmt) : Nat :=
  match F.sp with
  | .ieee => (2 ^ F.eb - 1) * 2 ^ F.mb - 1
  | .e4m3 => 0x7E
  | .none => 2 ^ (F.eb + F.mb) - 1

/-- The sign bit of a format in place. -/
def signBit (F : FFmt) (neg : Bool) : Nat := if neg then 2 ^ (F.eb + F.mb) else 0

/-- Decoding a floating-point element (R27). -/
def decodeF (F : FFmt) (c : Nat) : Num :=
  let neg := c / 2 ^ (F.eb + F.mb) % 2 = 1
  let ex := c / 2 ^ F.mb % 2 ^ F.eb
  let ma := c % 2 ^ F.mb
  if F.sp = .ieee ∧ ex = 2 ^ F.eb - 1 then
    if ma = 0 then .inf neg else .nan (decide (ma < 2 ^ (F.mb - 1)))
  else if F.sp = .e4m3 ∧ ex = 2 ^ F.eb - 1 ∧ ma = 2 ^ F.mb - 1 then .nan false
  else if ex = 0 then .fin neg ma (1 - F.bias - F.mb)
  else .fin neg (2 ^ F.mb + ma) (ex - F.bias - F.mb)

/-- A code read as a two's-complement or unsigned integer. -/
def intOf (w : Nat) (signed : Bool) (c : Nat) : Int :=
  let v := c % 2 ^ w
  if signed && decide (2 ^ (w - 1) ≤ v) then (v : Int) - 2 ^ w else v

/-- The low `w` bits of an integer. -/
def intCode (w : Nat) (v : Int) : Nat := (v % (2 ^ w : Int)).toNat

/-- The exact value of an integer. -/
def numOfInt (v : Int) : Num := .fin (decide (v < 0)) v.natAbs 0

/-- The exact value of an element, of a block format without its scale (R27, R30, R42). -/
def decodeE (f : BitVec 4) (c : Nat) : Num :=
  match ffmt f with
  | some F => decodeF F c
  | none =>
    match ifmt f with
    | some (w, sg) => numOfInt (intOf w sg c)
    | none => .fin (decide (c % 2 = 1)) 1 0

/-- A value times 2^k. -/
def Num.scale (x : Num) (k : Int) : Num :=
  match x with
  | .fin n m e => .fin n m (e + k)
  | y => y

/-- An element of a block format by its code, E8M0 scale and (YF4) E4M3 spare (R43, R45). Code 0b1000 of YF4 with the spare
−0 decodes to −0: of the two sentences of R45 that meet there, the product is followed (DESIGN CHOICE, log 41). -/
def decodeB (f : BitVec 4) (scale spare c : Nat) : Num :=
  if scale = 0xFF then .nan false
  else if f = fYF4 ∧ c = 8 then (decodeE fE4M3 spare).scale ((scale : Int) - 127)
  else (decodeE f c).scale ((scale : Int) - 127)

/-- The sign of a value; a NaN's sign is that of its code and is not kept here. -/
def Num.neg : Num → Bool
  | .nan _ => false
  | .inf n => n
  | .fin n _ _ => n

def Num.isZero : Num → Bool
  | .fin _ m _ => m == 0
  | _ => false

def Num.isNaN : Num → Bool
  | .nan _ => true
  | _ => false

def Num.isInf : Num → Bool
  | .inf _ => true
  | _ => false

/-- NV for a signalling NaN. -/
def Num.sigF : Num → Flags
  | .nan true => fNV
  | _ => 0

/-- The negated value. -/
def Num.negate : Num → Num
  | .nan s => .nan s
  | .inf n => .inf (!n)
  | .fin n m e => .fin (!n) m e

/-- The magnitude. -/
def Num.abs : Num → Num
  | .nan s => .nan s
  | .inf _ => .inf false
  | .fin _ m e => .fin false m e

/-- An integer mantissa at exponent `e0`, no greater than `e`. -/
def mantAt (neg : Bool) (m : Nat) (e e0 : Int) : Int :=
  let v : Int := m * 2 ^ (e - e0).toNat
  if neg then -v else v

/-- Comparison of finite values: the sign of their difference. -/
def cmpFin (a b : Bool × Nat × Int) : Int :=
  let e0 := min a.2.2 b.2.2
  mantAt a.1 a.2.1 a.2.2 e0 - mantAt b.1 b.2.1 b.2.2 e0

/-- a < b for numbers other than NaN; −0 equals +0. -/
def Num.lt : Num → Num → Bool
  | .inf true, .inf true => false
  | .inf true, .fin .. => true
  | .inf true, .inf false => true
  | .fin .., .inf false => true
  | .fin n m e, .fin n' m' e' => decide (cmpFin (n, m, e) (n', m', e') < 0)
  | _, _ => false

/-- Equality of values; −0 equals +0 and a NaN equals nothing. -/
def Num.eqv : Num → Num → Bool
  | .inf a, .inf b => a == b
  | .fin n m e, .fin n' m' e' => cmpFin (n, m, e) (n', m', e') == 0
  | _, _ => false

/-! ## Rounding (R33, R37 to R41) -/

/-- Whether a value with the low `s` bits `r` of its magnitude dropped and the kept part `q` is rounded up in magnitude. -/
def roundUp (rm : Rm) (neg : Bool) (q r s : Nat) : Bool :=
  if r = 0 then false else
  match rm with
  | .rne => decide (2 ^ s < 2 * r) || (decide (2 * r = 2 ^ s) && decide (q % 2 = 1))
  | .rtz => false
  | .rdn => neg
  | .rup => !neg
  | .rmm => decide (2 ^ s ≤ 2 * r)
  | .sto u => decide (u.toNat * 2 ^ s < r * 2 ^ 32)

/-- A magnitude m × 2^e rounded to a multiple of 2^q: the multiple, and whether it is exact. -/
def roundMag (rm : Rm) (neg : Bool) (m : Nat) (e q : Int) : Nat × Bool :=
  if q ≤ e then (m * 2 ^ (e - q).toNat, true)
  else
    let s := (q - e).toNat
    let k := m / 2 ^ s
    let r := m % 2 ^ s
    (if roundUp rm neg k r s then k + 1 else k, decide (r = 0))

/-- Overflow rounds to an infinity in these modes (R40). -/
def ovfInf (rm : Rm) (neg : Bool) : Bool :=
  match rm with
  | .rtz => false
  | .rdn => neg
  | .rup => !neg
  | _ => true

/-- An infinite input (R40). -/
def infResult (F : FFmt) (sat neg : Bool) : Rnd :=
  match F.sp with
  | .ieee => ⟨signBit F neg + (2 ^ F.eb - 1) * 2 ^ F.mb, 0⟩
  | .e4m3 => ⟨signBit F neg + (if sat then 0x7E else 0x7F), fNV⟩
  | .none => ⟨signBit F neg + maxCode F, fNV⟩

/-- A finite value that overflows (R40). -/
def ovfResult (F : FFmt) (rm : Rm) (sat neg : Bool) : Rnd :=
  let c := if ovfInf rm neg && !sat then
      (match F.sp with
       | .ieee => (2 ^ F.eb - 1) * 2 ^ F.mb
       | .e4m3 => 0x7F
       | .none => maxCode F)
    else maxCode F
  ⟨signBit F neg + c, fOF ||| fNX⟩

/-- The magnitude of the code of the largest finite value, as mantissa and exponent. -/
def maxMag (F : FFmt) : Nat × Int :=
  match decodeF F (maxCode F) with
  | .fin _ m e => (m, e)
  | _ => (0, 0)

/-- `round_to` of R39 for a finite value and a floating-point format. -/
def roundFin (F : FFmt) (rm : Rm) (sat neg : Bool) (m : Nat) (e : Int) : Rnd :=
  if m = 0 then ⟨signBit F neg, 0⟩ else
  let lead : Int := (Nat.log2 m : Int) + e
  let q : Int := max (lead - F.mb) (1 - F.bias - F.mb)
  let (k, exact) := roundMag rm neg m e q
  let mx := maxMag F
  let big : Bool := decide (cmpFin (false, mx.1, mx.2) (false, k, q) < 0)
  let stoBig : Bool := match rm with
    | .sto _ => decide (cmpFin (false, mx.1, mx.2) (false, m, e) < 0)
    | _ => false
  if big || stoBig then ovfResult F rm sat neg
  else
    let nx : Flags := if exact then 0 else fNX
    if k < 2 ^ F.mb then
      ⟨signBit F neg + k, nx ||| (if exact then 0 else fUF)⟩
    else
      let (k, q) := if 2 ^ (F.mb + 1) ≤ k then (k / 2, q + 1) else (k, q)
      ⟨signBit F neg + ((q + F.mb + F.bias).toNat) * 2 ^ F.mb + (k - 2 ^ F.mb), nx⟩

/-- A conversion to an integer format (R41). An integer result of a stochastic conversion is out of range when the
value lies outside the least and the greatest integer of the format (log 15). -/
def roundInt (w : Nat) (signed : Bool) (rm : Rm) (sat : Bool) (x : Num) : Rnd :=
  let lo : Int := if signed then -(2 ^ (w - 1)) else 0
  let hi : Int := if signed then 2 ^ (w - 1) - 1 else 2 ^ w - 1
  let bad (toHi : Bool) : Rnd := ⟨if sat then intCode w (if toHi then hi else lo) else 2 ^ (w - 1), fNV⟩
  match x with
  | .nan _ => ⟨if sat then 0 else 2 ^ (w - 1), fNV⟩
  | .inf n => bad (!n)
  | .fin n m e =>
    if decide (e > 64) && decide (m ≠ 0) then bad (!n) else
    let (k, exact) := roundMag rm n m e 0
    let v : Int := if n then -(k : Int) else k
    let stoOut : Bool := match rm with
      | .sto _ => decide (cmpFin (n, m, e) (decide (hi < 0), hi.natAbs, 0) > 0) ||
                  decide (cmpFin (n, m, e) (decide (lo < 0), lo.natAbs, 0) < 0)
      | _ => false
    if v < lo ∨ hi < v ∨ stoOut then bad (!n)
    else ⟨intCode w v, if exact then 0 else fNX⟩

/-- `round_to(fmt, mode, x)` of R39 with the saturation of R40, for a format of single elements. A SIGNBIT target
stores the sign (R30). -/
def roundTo (f : BitVec 4) (rm : Rm) (sat : Bool) (x : Num) : Rnd :=
  match ffmt f with
  | some F =>
    (match x with
     | .nan sg => ⟨canonNaN F, if sg || decide (F.sp = .none) then fNV else 0⟩
     | .inf n => infResult F sat n
     | .fin n m e => roundFin F rm sat n m e)
  | none =>
    match ifmt f with
    | some (w, sg) => roundInt w sg rm sat x
    | none => ⟨if x.neg then 1 else 0, 0⟩

/-- A code is a nonzero subnormal of its format. -/
def isSub (f : BitVec 4) (c : Nat) : Bool :=
  match ffmt f with
  | some F => decide (c / 2 ^ F.mb % 2 ^ F.eb = 0) && decide (c % 2 ^ F.mb ≠ 0)
  | none => false

/-- A code with its magnitude made zero. -/
def zeroOf (f : BitVec 4) (c : Nat) : Nat :=
  match ffmt f with
  | some F => c / 2 ^ (F.eb + F.mb) * 2 ^ (F.eb + F.mb)
  | none => c

/-- `ftz` after rounding (R33, R39). -/
def ftzR (on : Bool) (f : BitVec 4) (r : Rnd) : Rnd :=
  if on && isSub f r.code then ⟨zeroOf f r.code, r.fl ||| fUF ||| fNX⟩ else r

/-- An input code read with `daz` (R33). -/
def dazE (on : Bool) (f : BitVec 4) (c : Nat) : Nat := if on && isSub f c then zeroOf f c else c

/-- Whether the sign bit of a code is set. -/
def codeNeg (f : BitVec 4) (c : Nat) : Bool := decide (c / 2 ^ (elemW f - 1) % 2 = 1)

/-- The width and sign of a format whose values are integers: those of R41, and SIGNBIT, which decodes to ±1 (R30). -/
def intSrc (f : BitVec 4) : Option (Nat × Bool) := if f = fSIGN then some (1, true) else ifmt f

/-- A conversion of one element between formats without blocks (R40 to R42). A SIGNBIT source converts to an integer
format as the integer ±1, with no flag (R30, R132; log 15). -/
def convE (src dst : BitVec 4) (rm : Rm) (sat daz ftz : Bool) (c : Nat) : Rnd :=
  let c := dazE daz src c
  if dst = fSIGN then ⟨if codeNeg src c && src != fU8 then 1 else 0, 0⟩
  else
    match intSrc src, ifmt dst with
    | some (w, sg), some (w', sg') =>
      let v := if src = fSIGN then (if c % 2 = 1 then -1 else 1) else intOf w sg c
      let lo : Int := if sg' then -(2 ^ (w' - 1)) else 0
      let hi : Int := if sg' then 2 ^ (w' - 1) - 1 else 2 ^ w' - 1
      ⟨intCode w' (if sat then max lo (min hi v) else v), 0⟩
    | _, _ => ftzR ftz dst (roundTo dst rm sat (decodeE src c))

/-! ## Exact arithmetic -/

/-- The zero that an addition of opposite values gives: −0 when rounding down, else +0 (R39). -/
def zeroNeg (rm : Rm) : Bool := match rm with | .rdn => true | _ => false

/-- The exact sum of two values and its flags; an exact zero takes the IEEE sign. -/
def addN (rm : Rm) (a b : Num) : Num × Flags :=
  match a, b with
  | .nan s, .nan t => (.nan (s || t), 0)
  | .nan s, _ => (.nan s, 0)
  | _, .nan t => (.nan t, 0)
  | .inf n, .inf n' => if n = n' then (.inf n, 0) else (.nan false, fNV)
  | .inf n, _ => (.inf n, 0)
  | _, .inf n => (.inf n, 0)
  | .fin n m e, .fin n' m' e' =>
    let e0 := min e e'
    let v := mantAt n m e e0 + mantAt n' m' e' e0
    if v = 0 then (.fin (if n = n' then n else zeroNeg rm) 0 e0, 0)
    else (.fin (decide (v < 0)) v.natAbs e0, 0)

/-- The exact product of two values and its flags. -/
def mulN (a b : Num) : Num × Flags :=
  let n := a.neg != b.neg
  match a, b with
  | .nan s, .nan t => (.nan (s || t), 0)
  | .nan s, _ => (.nan s, 0)
  | _, .nan t => (.nan t, 0)
  | .inf _, y => if y.isZero then (.nan false, fNV) else (.inf n, 0)
  | x, .inf _ => if x.isZero then (.nan false, fNV) else (.inf n, 0)
  | .fin _ m e, .fin _ m' e' => (.fin n (m * m') (e + e'), 0)

/-- minimumNumber and maximumNumber (R51): a NaN loses against a number and −0 orders below +0. -/
def minNum (a b : Num) : Num :=
  match a, b with
  | .nan s, .nan t => .nan (s || t)
  | .nan _, y => y
  | x, .nan _ => x
  | x, y => if x.lt y then x else if y.lt x then y else if x.neg then x else y

def maxNum (a b : Num) : Num :=
  match a, b with
  | .nan s, .nan t => .nan (s || t)
  | .nan _, y => y
  | x, .nan _ => x
  | x, y => if y.lt x then x else if x.lt y then y else if x.neg then y else x

/-- The integer square root, a bit at a time from the bit `n`. -/
def isqrtAux (m : Nat) : Nat → Nat → Nat
  | 0, r => r
  | n + 1, r => if (r + 2 ^ n) * (r + 2 ^ n) ≤ m then isqrtAux m n (r + 2 ^ n) else isqrtAux m n r

/-- The integer square root. -/
def isqrt (m : Nat) : Nat := isqrtAux m (Nat.log2 m / 2 + 1) 0

/-- m × 2^e with a last bit that says the value is greater. -/
def sticky (neg : Bool) (m : Nat) (e : Int) (more : Bool) : Num := .fin neg (2 * m + (if more then 1 else 0)) (e - 1)

/-- 1/x for a finite nonzero x. -/
def rcpFin (n : Bool) (m : Nat) (e : Int) : Num :=
  let k := Nat.log2 m + 64
  sticky n (2 ^ k / m) (-(k : Int) - e) (2 ^ k % m ≠ 0)

/-- √x for a finite positive x. -/
def sqrtFin (m : Nat) (e : Int) : Num :=
  let sh : Nat := if e % 2 = 0 then 64 else 65
  let M := m * 2 ^ sh
  let r := isqrt M
  sticky false r ((e - sh) / 2) (r * r ≠ M)

/-- 1/√x for a finite positive x. -/
def rsqrtFin (m : Nat) (e : Int) : Num :=
  let k0 := 2 * Nat.log2 m + 128
  let k : Nat := if (e + k0) % 2 = 0 then k0 else k0 + 1
  let r := isqrt (2 ^ k / m)
  sticky false r (-((e + k) / 2)) (r * r * m ≠ 2 ^ k)

/-- ⌊ln 2 × 2^320⌋. -/
def ln2Fix : Nat :=
  1480553391661173448385607439722553250922680800745876974795605978609098082859138712941075737848984

/-- The terms of the exponential series of t/2^320, in units of 2^−320. -/
def expAux (t : Nat) : Nat → Nat → Nat → Nat → Nat
  | 0, _, _, acc => acc
  | n + 1, k, term, acc => expAux t n (k + 1) (term * t / 2 ^ 320 / k) (acc + term)

/-- 2^x for a finite x. -/
def exp2Fin (n : Bool) (m : Nat) (e : Int) : Num :=
  if m = 0 then .fin false 1 0
  else if decide (12 ≤ (Nat.log2 m : Int) + e) then .fin false 1 (if n then -4096 else 4096)
  else
    -- x in units of 2^-320; every value of a 16-bit or 32-bit format is a multiple of 2^-320
    let v : Int := mantAt n m e (-320)
    let i := v / 2 ^ 320
    let f := (v % 2 ^ 320).toNat
    if f = 0 then .fin false 1 i
    else sticky false (expAux (f * ln2Fix / 2 ^ 320) 80 1 (2 ^ 320) 0) (i - 320) true

/-- The binary digits of log2 of y/2^640 for 1 ≤ y/2^640 < 2, most significant first. -/
def logAux : Nat → Nat → Nat → Nat
  | 0, _, acc => acc
  | n + 1, y, acc =>
    let y2 := y * y / 2 ^ 640
    if 2 ^ 641 ≤ y2 then logAux n (y2 / 2) (2 * acc + 1) else logAux n y2 (2 * acc)

/-- log2 x for a finite positive x. -/
def log2Fin (m : Nat) (e : Int) : Num :=
  let k := Nat.log2 m
  let lead : Int := (k : Int) + e
  if m = 2 ^ k then numOfInt lead
  else
    let fr := logAux 200 (m * 2 ^ 640 / 2 ^ k) 0
    let v : Int := lead * 2 ^ 200 + fr
    if 0 ≤ v then sticky false v.natAbs (-200) true else sticky true (v.natAbs - 1) (-200) true

/-! ## Generators (R37) -/

/-- The seed of generator `l` (R37). -/
def genSeed (s : Word) (l : Nat) : Word :=
  let g := s ^^^ BitVec.ofNat 32 (l * 0x9E3779B9)
  if g = 0 then 0x6D2B79F5 else g

/-- One advance of a generator (R37). -/
def genNext (g : Word) : Word :=
  let g := g ^^^ (g <<< 13)
  let g := g ^^^ (g >>> 17)
  g ^^^ (g <<< 5)

/-! ## CRC-32C (R39) -/

/-- Eight steps of the CRC register. -/
def crcBits : Nat → Word → Word
  | 0, c => c
  | n + 1, c => crcBits n (if c.getLsbD 0 then (c >>> 1) ^^^ 0x82F63B78#32 else c >>> 1)

/-- `crc32c` (R39). -/
def crc32c (bs : List Byte) : Word :=
  bs.foldl (fun (c : Word) (b : Byte) => crcBits 8 (c ^^^ b.zeroExtend 32)) 0xFFFFFFFF#32 ^^^ 0xFFFFFFFF#32

/-! ## Block formats (R39, R43 to R46) -/

/-- The mode of a block conversion: stochastic rounds as RNE (R44). -/
def Rm.det : Rm → Rm
  | .sto _ => .rne
  | r => r

/-- The greatest magnitude of values none of which is NaN or infinite. -/
def amaxOf (xs : List Num) : Num :=
  xs.foldl (fun a x => if a.lt x.abs then x.abs else a) (.fin false 0 0)

/-- `to_scale(amax, emax)` of R39 for a finite amax. -/
def toScale (amax : Num) (emax : Int) : Nat :=
  match amax with
  | .fin _ m e => if m = 0 then 0 else (max ((Nat.log2 m : Int) + e - emax) (-127) + 127).toNat
  | _ => 0xFF

/-- The exponent of the greatest binade of an element format (R39). -/
def emaxOf (f : BitVec 4) : Int :=
  match f.toNat with
  | 3 | 6 => 8
  | 4 | 7 => 15
  | _ => 2

/-- An encoded block: 32 codes, scale, spare, flags. -/
structure BlockEnc where
  codes : List Nat
  scale : Nat
  spare : Nat
  fl    : Flags
  deriving DecidableEq, Repr

/-- NV if any value is a signalling NaN. -/
def anySig (xs : List Num) : Flags := xs.foldl (fun f x => f ||| x.sigF) 0

/-- `to_mx` of R44, for the block format `f`. -/
def toMx (f : BitVec 4) (rm : Rm) (xs : List Num) : BlockEnc :=
  if xs.any (fun x => x.isNaN || x.isInf) then ⟨xs.map (fun _ => 0), 0xFF, 0, anySig xs⟩
  else
    let sc := toScale (amaxOf xs) (emaxOf f)
    let rs := xs.map (fun x => roundTo f rm.det true (x.scale (127 - (sc : Int))))
    let big : Flags := match ffmt f with
      | some F => if xs.any (fun x => (decodeF F (maxCode F)).lt (x.abs.scale (127 - (sc : Int)))) then fOF ||| fNX else 0
      | none => 0
    -- sat comes before round_to: a clamped element is the largest finite value, and OF and NX tell of the clamp
    let code (x : Num) (r : Rnd) : Nat := match ffmt f with
      | some F => if (decodeF F (maxCode F)).lt (x.abs.scale (127 - (sc : Int))) then signBit F x.neg + maxCode F else r.code
      | none => r.code
    ⟨(xs.zip rs).map (fun p => code p.1 p.2), sc, 0, rs.foldl (fun f r => f ||| r.fl) big⟩

/-- The 15 E2M1 candidates of a YF4 block with their codes (R46). -/
def yfCands : List (Nat × Num) := (List.range 16).filterMap (fun c => if c = 8 then none else some (c, decodeE fE2M1 c))

/-- |a − b| for finite values. -/
def distN (a b : Num) : Num := (addN .rne a b.negate).1.abs

/-- The candidate `pick` chooses (R46): the least by the order `better`, of E2M1 candidates first. -/
def pickBest (better : Num → Num → Bool) : List (Nat × Num) → Option (Nat × Num)
  | [] => none
  | c :: cs =>
    match pickBest better cs with
    | none => some c
    | some d => if better d.2 c.2 then some d else some c

/-- `pick(mode, e, s)` of R46: the code chosen, its value, and whether OF is raised. The spare is the last candidate, so
that an equal E2M1 value is chosen in its place. -/
def yfPick (rm : Rm) (e s : Num) : Nat × Num × Bool :=
  let cs := yfCands ++ [(8, s)]
  let get (o : Option (Nat × Num)) : Nat × Num := o.getD (0, .fin false 0 0)
  -- `nearer a b`: a is to be preferred to b
  let isE2 (x : Num) : Bool := yfCands.any (fun c => c.2.eqv x)
  let evenE2 (x : Num) : Bool := yfCands.any (fun c => c.2.eqv x && decide (c.1 % 2 = 0))
  let tie (a b : Num) : Bool :=
    if isE2 a && isE2 b then
      (match rm with
       | .rmm => b.abs.lt a.abs
       | _ => evenE2 a && !evenE2 b)
    else isE2 a && !isE2 b
  let nearer (a b : Num) : Bool :=
    let da := distN a e
    let db := distN b e
    da.lt db || (da.eqv db && tie a b)
  match rm with
  | .rtz =>
    let ok := cs.filter (fun c => (c.2.neg == e.neg || c.2.isZero) && !(e.abs.lt c.2.abs))
    let r := get (pickBest (fun a b => b.abs.lt a.abs) ok)
    (r.1, r.2, false)
  | .rdn =>
    let ok := cs.filter (fun c => !(e.lt c.2))
    if ok.isEmpty then
      let r := get (pickBest (fun a b => a.lt b) cs)
      (r.1, r.2, true)
    else
      let r := get (pickBest (fun a b => b.lt a) ok)
      (r.1, r.2, false)
  | .rup =>
    let ok := cs.filter (fun c => !(c.2.lt e))
    if ok.isEmpty then
      let r := get (pickBest (fun a b => b.lt a) cs)
      (r.1, r.2, true)
    else
      let r := get (pickBest (fun a b => a.lt b) ok)
      (r.1, r.2, false)
  | _ =>
    let r := get (pickBest nearer cs)
    (r.1, r.2, false)

/-- `to_yf4` of R46. Flags raised by rounding the spare are raised by the conversion (log 16). -/
def toYf4 (rm : Rm) (xs : List Num) : BlockEnc :=
  if xs.any (fun x => x.isNaN || x.isInf) then ⟨xs.map (fun _ => 0), 0xFF, 0, anySig xs⟩
  else
    let amax := amaxOf xs
    if amax.isZero then ⟨xs.map (fun _ => 0), 0, 0, 0⟩
    else
      let sc := toScale amax 2
      let sg : Bool := ((xs.find? (fun x => x.abs.eqv amax)).map Num.neg).getD false
      let top : Num := (if sg then amax.negate else amax).scale (127 - (sc : Int))
      let sp := roundTo fE4M3 .rne false top
      let s := decodeE fE4M3 sp.code
      let rs := xs.map (fun x =>
        let e := x.scale (127 - (sc : Int))
        let p := yfPick rm.det e s
        ((if p.2.1.isZero then 0 else p.1),
          (if p.2.1.eqv e then (0 : Flags) else fNX) ||| (if p.2.2 then fOF else 0)))
      ⟨rs.map (·.1), sc, sp.code, rs.foldl (fun f r => f ||| r.2) sp.fl⟩

/-- A block of 32 values in a block format (R44, R46). -/
def encodeBlock (f : BitVec 4) (rm : Rm) (xs : List Num) : BlockEnc :=
  if f = fYF4 then toYf4 rm xs else toMx f rm xs

/-! ## Packed elements (R31) -/

/-- Elements of `w` bits from bytes, `n` of them, lowest bits first. -/
def unpackE (w n : Nat) (bs : List Byte) : List Nat :=
  if 8 ≤ w then leSplit (w / 8) n bs
  else ((bs.flatMap (fun (b : Byte) => (List.range (8 / w)).map (fun i => b.toNat / 2 ^ (w * i) % 2 ^ w))) ++
    List.replicate n 0).take n

/-- `k` elements of `w` bits as one number. -/
def packN (w : Nat) : List Nat → Nat
  | [] => 0
  | c :: cs => c % 2 ^ w + 2 ^ w * packN w cs

/-- Bytes of elements of less than a byte; `fuel` bounds the bytes. -/
def packSub (w : Nat) : Nat → List Nat → List Byte
  | 0, _ => []
  | n + 1, cs => BitVec.ofNat 8 (packN w (cs.take (8 / w))) :: packSub w n (cs.drop (8 / w))

/-- The bytes of packed elements (R31). -/
def packE (w : Nat) (cs : List Nat) : List Byte :=
  if 8 ≤ w then leJoin (w / 8) cs else packSub w ((cs.length * w + 7) / 8) cs

end Sys2Proof.Machine
end

