-- ==== Sys2Proof/Machine/Ops.lean ====
section
/-! DEFINITION. The named operations of the machine: where the device's storage lies in `State.mem`, lookups and
updates of its tables, error-correction arrays, semaphores, the end of a word of a strand, taking a trap and returning
from one, the failure of a kernel, and the shape `strandWord` that every strand word shares. -/

namespace Sys2Proof.Machine

/-! ## Locations (log 4)

Device memory of every package lies at its physical address (R15). A core's storage and a die's move-program memory
lie above it. -/

/-- The first location of a core. -/
def coreLoc (c : Nat) : Nat := 2 ^ 48 + c * 2 ^ 28
/-- A core's data scratchpad (R137). -/
def dspLoc (c a : Nat) : Nat := coreLoc c + a
/-- A core's instruction scratchpad, by byte offset (R137). -/
def ispLoc (c o : Nat) : Nat := coreLoc c + 0x800000 + o
/-- A core's accumulator (R113). -/
def accLoc (c o : Nat) : Nat := coreLoc c + 0x1000000 + o
/-- A vector control store of a core: of its active or its held team (R315). -/
def vcsLoc (c b : Nat) : Nat := coreLoc c + 0x2000000 + b * 0x10000
/-- The granary store of a core, by byte offset (R202). -/
def granLoc (c o : Nat) : Nat := coreLoc c + 0x4000000 + o
/-- The codes of weight half `h` of bank `b` of a core (R168). -/
def wtLoc (c b h : Nat) : Nat := coreLoc c + 0x3000000 + (2 * b + h) * 0x40000
/-- The side array of a weight half. -/
def wtSide (c b h : Nat) : Nat := wtLoc c b h + 0x20000
/-- The move-program memory of a transfer die (R14). -/
def moveLoc (d : Nat) : Nat := 2 ^ 48 + 2 ^ 37 + d * 2 ^ 20

/-- The core, and the offset in it, of a location above device memory. -/
def locCore (l : Nat) : Option (Nat × Nat) :=
  if l < 2 ^ 48 then none
  else if 512 ≤ (l - 2 ^ 48) / 2 ^ 28 then none
  else some ((l - 2 ^ 48) / 2 ^ 28, (l - 2 ^ 48) % 2 ^ 28)

/-- A nonempty run of bytes [lo, hi). -/
abbrev Span := Nat × Nat

/-- Two runs share a byte. -/
def Span.meets (a b : Span) : Bool := decide (a.1 < b.2) && decide (b.1 < a.2)

/-- Two sets of runs share a byte. -/
def spansMeet (xs ys : List Span) : Bool := xs.any (fun x => ys.any (fun y => x.meets y))

/-- A run rounded out to 64-byte granules (R185). -/
def Span.granules (a : Span) : Span := (a.1 / 64 * 64, (a.2 + 63) / 64 * 64)

/-! ## Identifiers (R9, R19) -/

/-- The key of strand `num` of a kernel. -/
def strandKey (lid num : Nat) : Nat := lid * 2048 + num
/-- The key of team `t` of a kernel. -/
def teamKey (lid t : Nat) : Nat := lid * 512 + t
/-- The key of semaphore `n` of a team. -/
def semKey (tk n : Nat) : Nat := tk * 256 + n
/-- The kernel of a strand. -/
def strandLid (key : Nat) : Nat := key / 2048
/-- The number of a strand within its kernel. -/
def strandNum (key : Nat) : Nat := key % 2048
/-- The team of a strand: team t holds strands 4t to 4t + 3 (R334). -/
def strandTeam (key : Nat) : Nat := teamKey (key / 2048) (key % 2048 / 4)
/-- The die of an engine id. -/
def engDie (e : Nat) : Nat := e / 128
/-- The cluster of a core, as a walker id (R19). -/
def coreCluster (c : Nat) : Nat := c / 8
/-- Core `p` of the cluster of core `c`. -/
def peerCore (c p : Nat) : Nat := c / 8 * 8 + p

/-- The two transfer dies of a compute die, first and second (R8, R9). -/
def dieAttach (d : Nat) : Nat × Nat :=
  match d / 2 with
  | 0 => (0, 1)
  | 1 => (1, 2)
  | 2 => (2, 3)
  | _ => (3, 0)

/-- The near transfer die of a core (R9). -/
def nearDie (c : Nat) : Nat :=
  let p := dieAttach (c / 64)
  if c / 8 % 8 < 4 then p.1 else p.2

/-! ## Objects as they are created -/

/-- The counters of a core after a cold start (R144, R145, R201, R205). -/
def Counters.zero : Counters where
  bkacc := 0
  bkcfl := 0
  bkfull := 0
  bkhigh := 0
  sbstall := 0
  sbfull := 0
  shapp := 0
  shsub := 0
  shdrop := 0
  shdisc := 0
  shovf := 0
  shstray := 0
  shfault := 0
  shdem := 0
  shpeak := 0
  ghit := 0
  gmiss := 0
  gstale := 0
  gevict := 0

/-- A windrow that is not enabled (R149). -/
def Windrow.zero : Windrow where
  en := false
  sem := 0
  base := 0
  rows := 0
  pitch := 0
  head := 0
  arrived := 0
  served := none

/-- A core with no team. -/
def Core.init : Core where
  active := none
  spent := []
  held := none
  last := 3
  loft := .empty
  switch := false
  due := false
  stook := []
  nextSeq := 0
  clock := 0
  tq := []
  xq := []
  windrows := Vector.replicate 8 Windrow.zero
  sb := []
  eager := false
  cnt := Counters.zero
  gran := []
  gclock := 0
  stale := []
  retired := false

/-- A strand as it starts (R82): the entry address in pc, the launch argument in x10, every CSR at its reset value. -/
def Strand.start (lid num : Nat) (entry arg : Word) : Strand where
  lid := lid
  num := num
  st := .running
  wait := none
  held := none
  issue := 0
  yielded := false
  pc := entry
  x := (Vector.replicate 32 (0 : Word)).set 10 arg
  pend := []
  loops := []
  hflag := false
  saved := []
  fmt := 0
  wg := 0
  cdir := false
  vbase := 0
  rrb := 0
  femode := false
  vfflags := 0
  vfrm := 0
  zmul := false
  srseed := 0
  gens := []
  ktvec := 0
  kepc := 0
  kcode := 0
  kdone := false
  kinfo := 0
  bias := Vector.replicate 6 0
  p := Vector.replicate 8 0
  c := Vector.replicate 8 0
  tmpl := none
  arrivals := []
  trig := false
  latch := []

/-- A region entry with its launch fields; the XOR rows start at 1 << j (R140). -/
def Region.launch (base size mode : Nat) : Region where
  base := BitVec.ofNat 32 base
  size := BitVec.ofNat 32 size
  mode := BitVec.ofNat 2 mode
  sk := 0
  h := #v[1, 2, 4, 8, 16, 32]
  cfl := 0

/-- A team of a kernel before it is placed (R140, R168, R205). -/
def Team.start (lid num : Nat) (rs : List (Nat × Nat × Nat)) : Team where
  lid := lid
  num := num
  place := .waiting
  bank := 0
  cmdNo := 0
  regions := Vector.ofFn (fun i : Fin 16 =>
    match rs[i.val]? with
    | some (b, z, m) => Region.launch b z m
    | none => Region.launch 0 0 0)
  wfmt := #v[fBF16, fBF16]
  gthr := 0
  gfmt := 0
  grel := false
  glim := 1
  gstep := 0
  blocks := []
  lo := 0
  hi := 0
  started := false
  park := none
  parked := false
  slot := none
  lastCore := none
  home := none
  waited := 0
  kept := []

/-- Empty fault sections (R349). -/
def Faults.none : Faults where
  fk := 0
  fm := 0
  plid := 0
  cause := 0
  sid := 0
  unit := 0
  info := 0
  pc := 0
  hi := 0
  tile := Option.none
  move := Option.none

/-- An engine after a cold start (R224). -/
def Engine.init : Engine where
  issue := 0
  retire := 0
  run := none
  cmds := []

/-- A transfer die after a cold start. -/
def Die.init : Die where
  engines := []
  l1 := []
  tlb := []
  wcache := []
  walks := []
  asked := 0
  turn := 127
  faults := []
  posts := []
  tl1m := 0
  tllm := 0
  twalk := 0
  tmrg := 0
  tflt := 0
  tfqw := 0
  lvrd := 0
  lvfl := 0
  rrb := []
  windows := []
  newWindows := none
  links := []
  latch := []
  wrr := []

/-- The registers of an array before any error (R297, R298). -/
def ErrArray.init : ErrArray where
  ecnt := 0
  ucnt := 0
  lovf := 0
  log := []
  iaddr := 0
  arm := false
  iue := false

/-! ## Lookup and update -/

def State.core (s : State) (c : Nat) : Core := (s.cores.get? c).getD Core.init
def State.die (s : State) (d : Nat) : Die := (s.dies.get? d).getD Die.init
def State.eng (s : State) (e : Nat) : Engine := ((s.die (engDie e)).engines.get? e).getD Engine.init
def State.arr (s : State) (k : Nat) : ErrArray := (s.arrays.get? k).getD ErrArray.init

def State.setCore (s : State) (c : Nat) (v : Core) : State := { s with cores := s.cores.set c v }
def State.setTeam (s : State) (k : Nat) (v : Team) : State := { s with teams := s.teams.set k v }
def State.setStrand (s : State) (k : Nat) (v : Strand) : State := { s with strands := s.strands.set k v }
def State.setKernel (s : State) (k : Nat) (v : Kernel) : State := { s with kernels := s.kernels.set k v }
def State.setDie (s : State) (d : Nat) (v : Die) : State := { s with dies := s.dies.set d v }
def State.setMem (s : State) (m : Mem) : State := { s with mem := m }

def State.updCore (s : State) (c : Nat) (f : Core → Core) : State := s.setCore c (f (s.core c))
def State.updTeam (s : State) (k : Nat) (f : Team → Team) : State := { s with teams := s.teams.modify k f }
def State.updStrand (s : State) (k : Nat) (f : Strand → Strand) : State := { s with strands := s.strands.modify k f }
def State.updKernel (s : State) (k : Nat) (f : Kernel → Kernel) : State := { s with kernels := s.kernels.modify k f }
def State.updDie (s : State) (d : Nat) (f : Die → Die) : State := s.setDie d (f (s.die d))
def State.updCtx (s : State) (c : Nat) (f : Ctx → Ctx) : State := { s with ctxs := s.ctxs.modify c f }
def State.updQueue (s : State) (q : Nat) (f : Queue → Queue) : State := { s with queues := s.queues.modify q f }
def State.updRec (s : State) (r : Nat) (f : Rec → Rec) : State := { s with recs := s.recs.modify r f }
def State.updCnt (s : State) (c : Nat) (f : Counters → Counters) : State :=
  s.updCore c (fun k => { k with cnt := f k.cnt })
def State.updEng (s : State) (e : Nat) (f : Engine → Engine) : State :=
  s.updDie (engDie e) (fun d => { d with engines := d.engines.set e (f (s.eng e)) })
def State.updArr (s : State) (k : Nat) (f : ErrArray → ErrArray) : State :=
  { s with arrays := s.arrays.set k (f (s.arr k)) }
def State.emit (s : State) (o : Out) : State := { s with outbox := s.outbox ++ [o] }

/-- A free choice of hardware at this step (log 12). -/
def State.choice (s : State) (i : Nat) : Bool := Config.freeBool s.tick i

/-- The context of a kernel. -/
def State.lidCtx (s : State) (lid : Nat) : Nat := ((s.kernels.get? lid).map (·.ctx)).getD 64

/-- The teams of a core: active, ended and still there, in the loft bank. -/
def Core.residents (k : Core) : List Nat := k.active.toList ++ k.spent ++ k.held.toList

/-- The team of a kernel that is resident on a core (R138): active, or ended and still holding the core's bytes. -/
def State.residentTeam (s : State) (lid c : Nat) : Option Nat :=
  ((s.core c).active.toList ++ (s.core c).spent).find? (fun tk => tk / 512 = lid)

/-- The team of a kernel on a core, resident or in its loft bank. -/
def State.teamOn (s : State) (lid c : Nat) : Option Nat :=
  match s.residentTeam lid c with
  | some tk => some tk
  | none =>
    match (s.core c).held with
    | some tk => if tk / 512 = lid then some tk else none
    | none => none

/-! ## Ownership of scratchpad bytes (R138) -/

/-- The enabled regions of a team as runs of scratchpad offsets. -/
def Team.owned (t : Team) : List Span :=
  t.regions.toList.filterMap (fun r =>
    if r.mode = 0 ∨ r.size = 0 then none else some (r.base.toNat, r.base.toNat + r.size.toNat))

/-- The lowest byte of [a, b) outside a set of runs, if any; `fuel` bounds the runs crossed. -/
def firstOutside (rs : List Span) : Nat → Nat → Nat → Option Nat
  | 0, a, b => if a < b then some a else none
  | n + 1, a, b =>
    if b ≤ a then none
    else
      match rs.find? (fun r => decide (r.1 ≤ a) && decide (a < r.2)) with
      | none => some a
      | some r => firstOutside rs n r.2 b

/-- Every byte of a run lies in the runs of a set. -/
def spanIn (x : Span) (ys : List Span) : Bool := (firstOutside ys (ys.length + 1) x.1 x.2).isNone

/-- The lowest byte of [a, b) of the scratchpad that a team does not own. -/
def Team.firstUnowned (t : Team) (a b : Nat) : Option Nat := firstOutside t.owned 17 a b

/-- A semaphore number in a kernel's range (R150, R334). -/
def KDesc.ownsSem (d : KDesc) (n : Nat) : Bool := d.sv && decide (d.slo ≤ n) && decide (n ≤ d.shi)

/-- The accumulator rows of a kernel's teams (R116). -/
def KDesc.accRows (d : KDesc) : Nat × Nat := if d.acnt = 0 then (0, 512) else (d.abase, d.abase + d.acnt)

/-! ## Error-correction arrays (R295 to R298) -/

/-- The ECC word size of the array that holds a location; 1 for storage held in two copies. -/
def eccSize (l : Nat) : Nat :=
  if l < 2 ^ 48 then 32
  else
    match locCore l with
    | none => 1
    | some (_, o) =>
      if o < 0x800000 then 64 else if o < 0x840000 then 8
      else if 0x1000000 ≤ o ∧ o < 0x1080000 then 64
      else if 0x3000000 ≤ o then 64 else 1

/-- The unit id (R20) of the array that holds a location. -/
def locUnit (l : Nat) : Nat :=
  if l < 2 ^ 48 then
    if l / 2 ^ 40 % 2 = 0 then 4 * 4096 + (l / 2 ^ 38 % 4) * 4 + l / 4096 % 4 else 5 * 4096 + l / 2 ^ 38 % 4
  else
    match locCore l with
    | none => 8 * 4096 + (l - 2 ^ 48 - 2 ^ 37) / 2 ^ 20
    | some (c, _) => c

/-- The array of a unit: 0 data scratchpad or memory, 1 accumulator, 2 instruction scratchpad, 3 weight halves,
4 granary store, 5 vector control store (R295). -/
def locArr (l : Nat) : Nat :=
  if l < 2 ^ 48 then 0
  else
    match locCore l with
    | none => 0
    | some (_, o) =>
      if o < 0x800000 then 0 else if o < 0x1000000 then 2 else if o < 0x2000000 then 1 else if o < 0x3000000 then 5
      else if o < 0x4000000 then 3 else 4

/-- The address that logs, fault records and injections give for a location: physical, or local to its core. R137 maps no
weight half and no granary store, so for these it is the model's own offset, from 0x3000000 and 0x4000000 on (DESIGN CHOICE, log
38). -/
def locAddr (l : Nat) : Nat :=
  match locCore l with
  | none => l
  | some (_, o) => o

/-- The exclusive or of the bits of a row of the XOR matrix. -/
def parity (v : BitVec 12) : Bool := (List.range 12).foldl (fun b i => b != v.getLsbD i) false

/-- The bank of an address that a region covers (R141). -/
def Region.bank (r : Region) (a : Nat) : Nat :=
  let o := a - r.base.toNat
  match r.mode.toNat with
  | 2 =>
    let hi := BitVec.ofNat 12 (o / 2 ^ 12)
    ((List.finRange 6).map (fun (j : Fin 6) =>
      (if (BitVec.ofNat 6 (o / 64)).getLsbD j.val != parity (hi &&& r.h[j.val]) then 1 else 0) * 2 ^ j.val)).sum
  | 3 => (o / 64 % 64 + o / 2 ^ 12 % 2 ^ 12 / 2 ^ r.sk.toNat) % 64
  | _ => a / 64 % 64

/-- The bank of an address of a core's data scratchpad: by the table of the team that owns the byte, of which the
lowest-numbered entry that covers it governs (R140, R141). -/
def State.bank (s : State) (c a : Nat) : Nat :=
  let covers (r : Region) : Bool := r.mode != 0 && decide (r.base.toNat ≤ a) && decide (a < r.base.toNat + r.size.toNat)
  match (s.core c).residents.findSome? (fun tk => (s.teams.get? tk).bind (fun t => t.regions.toList.find? covers)) with
  | some r => r.bank a
  | none => a / 64 % 64

/-- The channel of a location (R295); that of a memory location is not stated and is free. -/
def locChan (s : State) (l : Nat) : Nat :=
  match locCore l with
  | none => (Config.freeWord s.tick l).toNat % (if l / 2 ^ 40 % 2 = 0 then 64 else 16)
  | some (c, o) =>
    if o < 0x800000 then s.bank c o else if o < 0x1000000 then 65 else if o < 0x2000000 then 64
    else if o < 0x4000000 then 66 else 67

/-- The key of the array of a location. -/
def arrKey (l : Nat) : Nat := locUnit l * 8 + locArr l

/-- An error counted and logged (R297). -/
def State.logError (s : State) (l : Nat) (ctx : Option Nat) (ue inj : Bool) : State :=
  s.updArr (arrKey l) (fun a =>
    let e := a.ecnt + 1
    let en : LogEntry :=
      { addr := BitVec.ofNat 48 (locAddr (l / eccSize l * eccSize l)), unit := BitVec.ofNat 16 (locUnit l),
        syn := Config.freeWord s.tick (l + 1), ctx := ctx.map (BitVec.ofNat 6), ue := ue, inj := inj,
        chan := BitVec.ofNat 7 (locChan s l), cnt := e }
    { a with
      ecnt := e
      ucnt := if ue then a.ucnt + 1 else a.ucnt
      lovf := if a.log.length < 16 then a.lovf else a.lovf + 1
      log := if a.log.length < 16 then a.log ++ [en] else a.log })

/-- An ECC word shares a byte with a run. -/
def wordMeets (a n p : Nat) : Bool := decide (p < a + n) && decide (a < p + eccSize p) && decide (0 < n)

/-- An error that a read meets: its ECC word, whether it is uncorrectable, and whether it was injected. -/
structure ErrorMet where
  loc : Nat
  ue  : Bool
  inj : Bool

/-- An error in its place among errors of rising channel (R297). -/
def putByChan (s : State) (e : ErrorMet) : List ErrorMet → List ErrorMet
  | [] => [e]
  | x :: xs => if locChan s e.loc ≤ locChan s x.loc then e :: x :: xs else x :: putByChan s e xs

/-- An ECC word shares a byte with one of some runs. -/
def runsMeet (xs : List Span) (p : Nat) : Bool := xs.any (fun x => wordMeets x.1 (x.2 - x.1) p)

/-- The errors that an access reading some runs meets, in the order in which they are counted: the injected ones that no
read has met yet, and the words that are poisoned (R295, R297, R298). -/
def State.errorsIn (s : State) (xs : List Span) : List ErrorMet :=
  let new := s.injected.filter (fun e => runsMeet xs e.1)
  let old := s.poison.filter (fun p => runsMeet xs p && !new.any (fun e => e.1 = p && e.2))
  (new.map (fun e => ErrorMet.mk e.1 e.2 true) ++ old.map (fun p => ErrorMet.mk p true false)).foldr (putByChan s) []

/-- An access that reads some runs: injected errors are detected and every error met is counted and logged (R295, R297,
R298). The location of the first uncorrectable error met, if any; of several, the first in the order of the log, which the
spec leaves open (DESIGN CHOICE, log 42). -/
def State.readRuns (s : State) (ctx : Option Nat) (xs : List Span) : State × Option Nat :=
  if s.injected.isEmpty && s.poison.isEmpty then (s, none)
  else
    let es := s.errorsIn xs
    let t := es.foldl (fun (t : State) e => t.logError e.loc ctx e.ue e.inj) s
    ({ t with
        injected := s.injected.filter (fun e => !runsMeet xs e.1)
        poison := s.poison ++ ((es.filter (fun e => e.ue && !s.poison.contains e.loc)).map (·.loc)) },
      (es.find? (·.ue)).map (·.loc))

/-- A read of `n` bytes at `a`. -/
def State.readCheck (s : State) (ctx : Option Nat) (a n : Nat) : State × Option Nat := s.readRuns ctx [(a, a + n)]

/-- The ECC word that holds a location. -/
def eccWord (l : Nat) : Span := (l / eccSize l * eccSize l, l / eccSize l * eccSize l + eccSize l)

/-- The ECC words that a write of some runs covers only in part, and so reads first (R257). -/
def partWords (xs : List Span) : List Span :=
  ((xs.filter (fun x => decide (x.1 < x.2))).flatMap (fun x => [eccWord x.1, eccWord (x.2 - 1)])).eraseDups.filter
    (fun w => !spanIn w xs)

/-- The location of the ECC word that an array's injection register names (R298). -/
def armedAt (key : Nat) (r : ErrArray) : Nat :=
  let w := (if key / 8 / 4096 = 0 then coreLoc (key / 8 % 4096) else 0) + r.iaddr.toNat
  w / eccSize w * eccSize w

/-- An armed injection whose target lies in `n` written bytes at `a` takes effect (R298). -/
def State.fire (s : State) (a n : Nat) : State :=
  if s.arrays.isEmpty || n == 0 then s
  else
    s.arrays.foldl (fun (s : State) (e : Nat × ErrArray) =>
      let w := armedAt e.1 e.2
      if e.2.arm && decide (arrKey w = e.1) && decide (w < a + n) && decide (a < w + eccSize w) then
        let s := s.updArr e.1 (fun r => { r with arm := false })
        { s with injected := s.injected.set w e.2.iue }
      else s) s

/-- A write of `n` bytes at `a`: a word covered whole loses its poison, and injections take effect (R257, R298). -/
def State.writeCheck (s : State) (a n : Nat) : State :=
  let full (p : Nat) : Bool := decide (a ≤ p) && decide (p + eccSize p ≤ a + n)
  let s := if s.poison.isEmpty then s else { s with poison := s.poison.filter (fun p => !full p) }
  let s := if s.injected.isEmpty then s else { s with injected := s.injected.filter (fun e => !full e.1) }
  s.fire a n

/-- A write of some runs at once: words that they cover whole together lose their poison, and injections take effect. -/
def State.writeRuns (s : State) (xs : List Span) : State :=
  let full (p : Nat) : Bool := spanIn (p, p + eccSize p) xs
  let s := if s.poison.isEmpty then s else { s with poison := s.poison.filter (fun p => !full p) }
  let s := if s.injected.isEmpty then s else { s with injected := s.injected.filter (fun e => !full e.1) }
  xs.foldl (fun s x => s.fire x.1 (x.2 - x.1)) s

/-- A run of bytes stored (R266), with what the store does to the errors of its ECC words. -/
def State.store (s : State) (a : Nat) (bs : List Byte) : State :=
  (s.writeCheck a bs.length).setMem (s.mem.write a bs)

/-- The runs of some pieces of data. -/
def runsOf (ws : List (Nat × List Byte)) : List Span := ws.map (fun w => (w.1, w.1 + w.2.length))

/-- Pieces of data stored by one access. -/
def State.storeAll (s : State) (ws : List (Nat × List Byte)) : State :=
  (s.writeRuns (runsOf ws)).setMem (ws.foldl (fun m w => m.write w.1 w.2) s.mem)

/-- `n` locations from `a` zeroed. -/
def State.zero (s : State) (a n : Nat) : State := (s.writeCheck a n).setMem (s.mem.clear a n)

/-- Every transfer die drops the lines of its remote-read buffer, before a system-scope acquire completes (R277). -/
def State.dropLines (s : State) : State := { s with dies := s.dies.map (fun (d : Nat × Die) => (d.1, { d.2 with rrb := [] })) }

/-! ## Device memory at its home (R15 to R17, R293, R294, R303) -/

/-- A field of a par word. -/
def par (b : DWord) (lo n : Nat) : Nat := (b.toNat / 2 ^ lo) % 2 ^ n

/-- Word `i` of a context's configuration block. -/
def Ctx.word (c : Ctx) (i : Nat) : DWord := c.cfg.toList.getD i 0
/-- Word `i` of the configuration block of a context, 0 where there is none. -/
def State.cfgWord (s : State) (ctx i : Nat) : DWord := ((s.ctxs.get? ctx).map (fun c => c.word i)).getD 0
/-- A physical address of the device's own package (R16, R17). -/
def State.isOwn (s : State) (pa : Nat) : Bool := decide (s.pkg = some (BitVec.ofNat 7 (pa / 2 ^ 41))) && decide (pa < 2 ^ 48)
/-- The home transfer die of a physical address (R15). -/
def homeDie (pa : Nat) : Nat := pa / 2 ^ 38 % 4

/-- A 64 KiB granule in its place in the rising list of live granules. -/
def insertNat (n : Nat) : List Nat → List Nat
  | [] => [n]
  | x :: xs => if n < x then n :: x :: xs else if n = x then x :: xs else x :: insertNat n xs

/-- The granule of a physical address is live; memory of another package is not this device's to keep. -/
def State.isLive (s : State) (pa : Nat) : Bool := !s.isOwn pa || s.live.contains (pa / 65536)

/-- A read within one granule, counted if the granule is not live. -/
def State.countRead (s : State) (pa n : Nat) : State :=
  if s.isLive pa then s
  else s.updDie (homeDie pa) (fun d => { d with lvrd := d.lvrd + BitVec.ofNat 64 ((pa + n + 63) / 64 - pa / 64) })

/-- The first write to a granule zero-fills it and makes it live (R294). -/
def State.makeLive (s : State) (pa : Nat) : State :=
  if s.isLive pa then s
  else
    let s := s.setMem (s.mem.clear (pa / 65536 * 65536) 65536)
    { s.updDie (homeDie pa) (fun d => { d with lvfl := d.lvfl + 1 }) with live := insertNat (pa / 65536) s.live }

/-- A range of own-package memory becomes not live (R293): it reads zero and loses its poison. Nothing is written, so an
armed injection stays armed (R298). -/
def State.makeDead (s : State) (pa n : Nat) : State :=
  { s.setMem (s.mem.clear pa n) with
    live := s.live.filter (fun g => !(decide (pa ≤ g * 65536) && decide (g * 65536 < pa + n)))
    poison := s.poison.filter (fun p => !(decide (pa ≤ p) && decide (p < pa + n)))
    injected := s.injected.filter (fun p => !(decide (pa ≤ p.1) && decide (p.1 < pa + n))) }

/-! ## Runs of physical memory -/

/-- [a, a + n) cut at multiples of `g`; `fuel` bounds the pieces. -/
def cutAt (g : Nat) : Nat → Nat → Nat → List (Nat × Nat)
  | 0, _, _ => []
  | f + 1, a, n =>
    if n = 0 then []
    else
      let k := min n (g - a % g)
      (a, k) :: cutAt g f (a + k) (n - k)

/-- The pieces of a run within 64 KiB granules. -/
def byGranule (a n : Nat) : List (Nat × Nat) := cutAt 65536 (n / 65536 + 2) a n

/-- A write of `n` bytes at its home makes its granules live; an injection into one of them that was not takes effect with
this first write (R294, R298). -/
def State.atHome (s : State) (pa n : Nat) (f : State → State) : State :=
  let dead := (byGranule pa n).filter (fun p => !s.isLive p.1)
  dead.foldl (fun s p => s.fire (p.1 / 65536 * 65536) 65536) (f (dead.foldl (fun s p => s.makeLive p.1) s))

/-- A plain write at its home (R274, R294). -/
def State.writeHome (s : State) (pa : Nat) (bs : List Byte) : State := s.atHome pa bs.length (fun s => s.store pa bs)

/-- A read at its home, with the location of an uncorrectable error it meets. -/
def State.readHome (s : State) (ctx : Option Nat) (pa n : Nat) : State × List Byte × Option Nat :=
  let s := (byGranule pa n).foldl (fun s p => s.countRead p.1 p.2) s
  let r := s.readCheck ctx pa n
  (r.1, r.1.mem.read pa n, r.2)

/-- `n` bytes copied for a context: they are read, so their errors are counted, and written whole, which clears poison. -/
def State.moveRun (s : State) (ctx src dst n : Nat) : State :=
  let s := if src < 2 ^ 48 then (byGranule src n).foldl (fun s p => s.countRead p.1 p.2) s else s
  let s := (s.readCheck (some ctx) src n).1
  let sl := s.mem.slice src n
  let put (s : State) : State := (s.writeCheck dst n).setMem (s.mem.paste dst n sl)
  if dst < 2 ^ 48 then s.atHome dst n put else put s

/-- The ECC words of the copy at `dst` of a word at `p` in a run at `src`. -/
def copyWords (src dst p : Nat) : List Nat :=
  let d := dst + (p - src)
  let z := eccSize d
  (List.range ((d % z + eccSize p + z - 1) / z)).map (fun i => d / z * z + i * z)

/-- `n` bytes copied for a context, the copy of a poisoned word poisoned (R295). -/
def State.copyRun (s : State) (ctx src dst n : Nat) : State :=
  let s := s.moveRun ctx src dst n
  let bad := (s.poison.filter (fun p => decide (src ≤ p) && decide (p < src + n))).flatMap (copyWords src dst)
  { s with poison := s.poison ++ bad.eraseDups.filter (fun p => !s.poison.contains p) }

/-- The first uncorrectable error in runs of bytes that a word reads. -/
def State.checkSpans (s : State) (ctx : Nat) (xs : List Span) : State × Option Nat := s.readRuns (some ctx) xs

/-- Bytes of a save slot. -/
def slotSize : Nat := 12 * 2 ^ 20
/-- Where a save slot of a context begins. -/
def State.slotAt (s : State) (ctx slot : Nat) : Nat := par (s.cfgWord ctx 2) 0 48 + slot * slotSize
/-- `n` bytes zeroed: of device memory as a write at its home (R294). -/
def State.zeroHome (s : State) (a n : Nat) : State :=
  if a < 2 ^ 48 then s.atHome a n (fun s => s.zero a n) else s.zero a n

/-! ## Strand registers (R81, R91) -/

/-- A scalar register; x0 reads as zero. -/
def Strand.getX (st : Strand) (r : XReg) : Word := if r = 0 then 0 else st.x[r.toNat]'r.isLt

/-- A scalar register written; a write to x0 is discarded. -/
def Strand.setX (st : Strand) (r : XReg) (v : Word) : Strand :=
  if r = 0 then st else { st with x := st.x.set r.toNat v r.isLt }

/-- A register is empty (R91). -/
def Strand.isEmpty (st : Strand) (r : XReg) : Bool := st.pend.any (fun p => p.1 == r)

/-- The destination of an asynchronous word: empty, with the value that will arrive (R91, log 6). -/
def Strand.later (st : Strand) (r : XReg) (v : Word) : Strand :=
  if r = 0 then st else { st with pend := st.pend ++ [(r, v)] }

/-- The pending result of a register arrives. -/
def Strand.deliver (st : Strand) (r : XReg) : Strand :=
  match st.pend.find? (fun p => p.1 == r) with
  | none => st
  | some p => { st.setX r p.2 with pend := st.pend.filter (fun q => q.1 != r) }

/-- Every pending result arrives. -/
def Strand.deliverAll (st : Strand) : Strand :=
  { (st.pend.foldl (fun t p => t.setX p.1 p.2) st) with pend := [] }

/-- A predicate as a source; p0 reads as all ones (R118). -/
def Strand.getP (st : Strand) (r : PReg) : BitVec 512 := if r = 0 then BitVec.allOnes 512 else st.p[r.toNat]'r.isLt

/-- A predicate written; p0 is not stored. -/
def Strand.setP (st : Strand) (r : PReg) (v : BitVec 512) : Strand :=
  if r = 0 then st else { st with p := st.p.set r.toNat v r.isLt }

/-! ## Loops (R97, R117) -/

/-- One rotation (R117). -/
def Strand.rotate (st : Strand) : Strand :=
  { st with
    rrb := st.rrb + 15
    p := (((st.p.set 5 st.p[4]).set 6 st.p[5]).set 7 st.p[6]).set 4 st.p[7] }

/-- The loop-end event for the word at `e` over the live levels, innermost first (R97). -/
def loopEndAux (e : Word) : List LoopLevel → Strand → Strand
  | [], st => { st with loops := [], pc := e + 4 }
  | l :: ls, st =>
    if l.stop = e then
      let st := if l.rot then st.rotate else st
      if l.index.toNat + 1 < l.count.toNat then
        { st with loops := { l with index := l.index + 1 } :: ls, pc := l.start }
      else loopEndAux e ls st
    else { st with loops := l :: ls, pc := e + 4 }

/-- The strand after the word at `e` completes sequentially (R97). -/
def Strand.loopEnd (st : Strand) (e : Word) : Strand := loopEndAux e st.loops st

/-- The innermost live level has a loop-end event for the word at `e`. -/
def Strand.atEnd (st : Strand) (e : Word) : Bool :=
  match st.loops with
  | [] => false
  | l :: _ => decide (l.stop = e)

/-! ## Word boundaries (R83, R109, R317, R344) -/

/-- The strand at a word boundary of its core: it stops there if a team switch is pending and this is its switch
point, and otherwise goes on. `ev`: a loop-end event of the innermost live level has just been taken. -/
def State.boundary (s : State) (c : Nat) (st : Strand) (ev : Bool) : Strand :=
  let k := s.core c
  let stop := k.switch && (k.due || st.loops.isEmpty || ev)
  { st with st := if stop then .stopped else .running, wait := none }

/-- A strand enters BLOCKED, or stops at once if a team switch is pending (R317). -/
def State.park (s : State) (c : Nat) (st : Strand) (w : Wait) : Strand :=
  if (s.core c).switch then
    { st with st := .stopped, wait := (match w with | .synced | .pushed .. => some w | _ => none) }
  else { st with st := .blocked, wait := some w }

/-- The core on which a team is active, else 512 (no core). -/
def State.teamCore (s : State) (tk : Nat) : Nat :=
  match s.teams.get? tk with
  | none => 512
  | some t =>
    match t.place with
    | .active c => c
    | .spent c => c
    | .held c => c
    | _ => 512

/-- A word of the strand with a key completes sequentially while the strand waits in it. -/
def State.complete (s : State) (key : Nat) (f : Strand → Strand) : State :=
  match s.strands.get? key with
  | none => s
  | some st =>
    let st' := f st
    s.setStrand key (s.boundary (s.teamCore (strandTeam key)) (st'.loopEnd st.pc) (st.atEnd st.pc))

/-! ## The end of a kernel (R186, R348) -/

/-- A live kernel: ADMITTED to DRAINING (R348). -/
def KSt.live : KSt → Bool
  | .admitted | .prologue | .waiting | .running | .draining => true
  | _ => false

/-- A kernel that has not ended: live or rolling back. -/
def Kernel.holds (k : Kernel) : Bool := k.st.live || decide (k.st = .rolling)

/-- What becomes of a sheaf when its kernel fails or leaves draining (R186): started work completes, all else is
discarded. -/
def Sheaf.kill (h : Sheaf) : Sheaf :=
  { h with
    dying := true
    subs := h.subs.map (fun u =>
      match u with
      | .opn => .dropped
      | .disp d => if h.wait = .served then .disp d else .dropped
      | v => v) }

/-- Whether every sub-tile of a sheaf has run or been dropped. -/
def Sheaf.settled (h : Sheaf) : Bool :=
  h.subs.all (fun u => match u with | .done => true | .dropped => true | _ => false)

/-- A sub-tile that is dispatched and has not run. -/
def SubSt.isDisp : SubSt → Bool
  | .disp _ => true
  | _ => false

/-- A stook without the entries that are FREE: those that end without completing, a FAULTED one once no dispatched work
of its kernel is left on the core (R186). -/
def Core.sweepDead (k : Core) : Core :=
  let busy (lid : Nat) : Bool := k.stook.any (fun h => h.lid = lid && h.subs.any SubSt.isDisp)
  { k with stook := k.stook.filter (fun h => !((h.dying || h.faulted) && h.settled && !(h.faulted && busy h.lid))) }

/-- The stook of a core without the work of a kernel that has not started (R186). The entries that a save slot keeps of a
swapped-out team are dropped with the slot and raise no core's shdisc (DESIGN CHOICE, log 42). -/
def killSheaves (k : Core) (lid : Nat) : Core :=
  let hit := k.stook.filter (fun h => h.lid = lid && !h.dying && !h.faulted)
  let k := ({ k with stook := k.stook.map (fun h => if h.lid = lid then h.kill else h) } : Core).sweepDead
  { k with
    tq := k.tq.filter (fun q => q.lid ≠ lid || decide (q.wait = .served))
    xq := k.xq.filter (fun q => q.lid ≠ lid)
    cnt := { k.cnt with shdisc := k.cnt.shdisc + BitVec.ofNat 32 hit.length }
    -- FILLING entries of the kernel go EMPTY and its pins are released (R213)
    -- and one that `gr.inval` has reached goes with the last of its pins (R204)
    gran := ((k.gran.filter (fun g => !(g.st = .filling && g.pins.any (fun p => strandLid p = lid)))).map
      (fun g => { g with pins := g.pins.filter (fun p => strandLid p ≠ lid) })).filter (fun g => !(g.inval && g.pins.isEmpty)) }

/-- A move command of a kernel that fails, rolls back or is stopped (R252). -/
def Cmd.cancel (c : Cmd) (lid : Nat) : Cmd :=
  if c.lid ≠ lid then c
  else
    match c.st with
    | .issued | .active | .suspended => { c with st := .cancelled, susp := none, ue := none, far := none }
    | _ => c

/-- Whether a command counts as retired (R252). -/
def CmdSt.gone : CmdSt → Bool
  | .retired | .ended | .cancelled => true
  | _ => false

/-- The greatest n such that every command numbered n or below has retired (R224); `fuel` bounds the search. -/
def retireTo (cmds : List Cmd) (issue : Nat) : Nat → Nat → Nat
  | 0, n => n
  | k + 1, n =>
    if n < issue && !(cmds.any (fun c => c.num = n + 1 && !c.st.gone)) then retireTo cmds issue k (n + 1) else n

/-- An engine with its retire counter brought up to date; commands that have retired are kept only while a later
word may name them (R224, R241). -/
def Engine.advance (e : Engine) : Engine :=
  let r := retireTo e.cmds e.issue (e.issue - e.retire) e.retire
  let keep : Option Nat := e.run.bind (·.last)
  { e with
    retire := r
    cmds := e.cmds.filter (fun c => !c.st.gone || decide (r < c.num) || keep == some c.num ||
      e.cmds.any (fun d => !d.st.gone && decide (c.num + 1 = d.num))) }

/-- `mv.csum` (R241). -/
def Cmd.isCsum (c : Cmd) : Bool := match c.op with | .mvCsum _ | .mvCsumSrc _ => true | _ => false

/-- Command `num` ends with a status, and so do its run and a `mv.csum` of it (R222, R241, R252, R259). -/
def Engine.endWith (e : Engine) (num : Nat) (st : Word) (info : DWord) : Engine :=
  { e with
    cmds := e.cmds.map (fun (c : Cmd) =>
      if c.num = num then { c with st := .ended, status := st, info := info, susp := none, ue := none, far := none }
      else if c.num = num + 1 ∧ c.isCsum ∧ !c.st.gone then { c with st := .ended, status := st, info := info }
      else c)
    run := e.run.map (fun (r : Run) => { r with ended := true, status := if r.status = 0 then st else r.status }) }

/-- An engine without the work of a kernel. -/
def Engine.kill (e : Engine) (lid : Nat) : Engine :=
  ({ e with
      cmds := e.cmds.map (fun (c : Cmd) => c.cancel lid)
      run := match e.run with
        | some r => if r.lid = lid then none else some r
        | none => none }).advance

/-- The entries of range scoreboards whose command has retired are gone (R145). -/
def State.sweepSb (s : State) : State :=
  { s with cores := s.cores.map (fun (c : Nat × Core) => (c.1, { c.2 with sb := c.2.sb.filter (fun e =>
      (s.eng e.2.eng).cmds.any (fun d => d.num = e.2.num && !d.st.gone)) })) }

/-- The storage of bank `b` of a core that belongs to a team (R315): the control store and the weight halves, with their
offsets in a save slot (R319) and their lengths. -/
def bankParts (c b : Nat) : List (Nat × Nat × Nat) :=
  [(vcsLoc c b, 0x10000, 0x4000), (wtLoc c b 0, 0x20000, 0x20000), (wtSide c b 0, 0x40000, 0x4000),
    (wtLoc c b 1, 0x44000, 0x20000), (wtSide c b 1, 0x64000, 0x4000)]

/-- A bank in its state of first placement: +0 codes and a zero control store (R168). -/
def State.clearBank (s : State) (c b : Nat) : State := (bankParts c b).foldl (fun s p => s.zero p.1 p.2.2) s

/-- The loft banks that hold a team of a kernel go EMPTY; bank and slot are zeroed (R318). -/
def State.dropHeld (s : State) (lid : Nat) : State :=
  s.cores.foldl (fun s c =>
    match c.2.held with
    | some tk =>
      if tk / 512 = lid then
        let s := (s.clearBank c.1 (((s.teams.get? tk).map (·.bank)).getD 0)).updCore c.1 (fun k =>
          { k with held := none, loft := .empty })
        match (s.teams.get? tk).bind (·.slot) with
        | some n => s.zeroHome (s.slotAt (s.lidCtx lid) n) slotSize
        | none => s
      else s
    | none => s) s

/-- The strand keys of a team, by slot. -/
def teamStrands (tk : Nat) : List Nat := (List.range 4).map (fun i => strandKey (tk / 512) (tk % 512 * 4 + i))

/-- Every strand of a team has ended. -/
def State.teamEnded (s : State) (tk : Nat) : Bool :=
  (teamStrands tk).all (fun k => match s.strands.get? k with | some st => decide (st.st = .ended) | none => true)

/-- The slots of teams all of whose strands have ended go VACANT (R83): another team may be placed in them, while the ended
team keeps what it holds on the core (R187). -/
def State.vacate (s : State) : State :=
  s.cores.foldl (fun (s : State) c =>
    match c.2.active with
    | some tk =>
      if ((s.teams.get? tk).map (·.started)) = some true ∧ s.teamEnded tk ∧ c.2.switch = false then
        (s.updTeam tk (fun t => { t with place := .spent c.1 })).updCore c.1 (fun k => { k with active := none, spent := k.spent ++ [tk] })
      else s
    | none => s) s

/-- The work of a kernel ends without completing: strands stop, sheaves are freed, commands are cancelled, semaphores
go FREE (R151, R186, R252, R348). -/
def State.endWork (s : State) (lid : Nat) : State :=
  let s := { s with
    strands := s.strands.map (fun (e : Nat × Strand) =>
      if e.2.lid = lid then (e.1, { e.2 with st := .ended, wait := none, arrivals := [] }) else e)
    cores := s.cores.map (fun (e : Nat × Core) => (e.1, killSheaves e.2 lid))
    dies := s.dies.map (fun (d : Nat × Die) => (d.1, { d.2 with
      engines := d.2.engines.map (fun (e : Nat × Engine) => (e.1, e.2.kill lid))
      walks := d.2.walks.map (fun (w : Walk) => { w with req := w.req.filter (fun r =>
        !((s.eng r.eng).cmds.any (fun c => c.num = r.num && c.lid = lid))) }) }))
    -- memberships and barriers end (R353, R362)
    kernels := s.kernels.modify lid (fun k => { k with groups := [], bars := [] })
    sems := (s.sems.filter (fun (e : Nat × Sem) => e.1 / 256 / 512 ≠ lid)).map (fun (e : Nat × Sem) =>
      (e.1, { e.2 with q := e.2.q.filter (fun w =>
        match w.1 with
        | .strand k => decide (strandLid k ≠ lid)
        | _ => true) })) }
  let s := { s with seats := s.seats.filter (fun x =>
    match x.acc with
    | .strand k => decide (strandLid k ≠ lid)
    | .box e n _ => (s.eng e).cmds.any (fun c => c.num = n && !c.st.gone)
    | .tile c q _ => (s.core c).stook.any (fun h => h.seq = q) || (s.core c).tq.any (fun h => h.seq = q)) }
  ((s.sweepSb).dropHeld lid).vacate

/-- A failure of a kernel (R348): the first fixes fk; a later one fills its own section if that is still empty. -/
def Faults.merge (old new : Faults) : Faults :=
  if old.fk = 0 then new
  else
    { old with
      tile := old.tile <|> new.tile
      move := old.move <|> (if old.fk = 1 ∨ old.fk = 2 then Option.none else new.move) }

/-- The kernels that must fail because kernel `lid` has (R337, R346): fk 8 for the other members of its record, fk 6
for dependents whose producer it was before its trigger fired; one that is rolling back, and would be relaunched, too. -/
def State.followers (s : State) (lid : Nat) : List (Nat × Nat) :=
  match s.kernels.get? lid with
  | none => []
  | some k =>
    s.kernels.filterMap (fun e =>
      if !e.2.holds then none
      else if e.2.recId = k.recId ∧ e.1 ≠ lid then some (e.1, 8)
      else if e.2.producers.contains k.recId && !k.fired then some (e.1, 6)
      else none)

/-- Kernels fail, and those that follow them; `fuel` bounds the number of kernels. -/
def failAll : Nat → List (Nat × Faults) → State → State
  | 0, _, s => s
  | _, [], s => s
  | n + 1, (lid, f) :: more, s =>
    match s.kernels.get? lid with
    | none => failAll n more s
    | some k =>
      if k.holds then
        let fs := (s.followers lid).map (fun p => (p.1, { Faults.none with fk := p.2, plid := lid, fm := 0 }))
        let s := s.setKernel lid { k with st := .failed, fl := k.fl.merge { f with fm := k.member }, log := [] }
        failAll n (more ++ fs) (s.endWork lid)
      else if k.st = .failed then failAll n more (s.setKernel lid { k with fl := k.fl.merge f })
      else failAll n more s

/-- A kernel fails (R348). -/
def State.fail (s : State) (lid : Nat) (f : Faults) : State := failAll (4 * s.kernels.length + 4) [(lid, f)] s

/-- A fatal trap of a strand (R106, R349). -/
def State.fatal (s : State) (key cause : Nat) (info : Word) : State :=
  let pc := ((s.strands.get? key).map (·.pc)).getD 0
  s.fail (strandLid key) { Faults.none with fk := 1, cause := cause, sid := strandNum key, info := info, pc := pc }

/-- A kernel that meets an uncorrectable error outside its moves starts rollback if it has the ability (R265), and
otherwise fails with fk = 4 (R296, R348, R349). -/
def State.memError (s : State) (lid loc : Nat) : State :=
  match s.kernels.get? lid with
  | none => s
  | some k =>
    if k.rb && k.st.live then (s.setKernel lid { k with st := .rolling, rbt := true }).endWork lid
    else
      s.fail lid { Faults.none with
        fk := 4, unit := locUnit loc, info := BitVec.ofNat 32 (locAddr loc)
        hi := BitVec.ofNat 32 (locAddr loc / 2 ^ 32 % 2 ^ 20) }

/-! ## Traps (R100 to R104) -/

/-- Taking an in-kernel trap at the word of the strand's pc (R101). -/
def Strand.takeTrap (st : Strand) (cause : Nat) (done : Bool) (info : Word) : Strand :=
  let st := st.deliverAll
  { st with
    kepc := st.pc
    kcode := BitVec.ofNat 5 cause
    kdone := done
    kinfo := info
    saved := st.loops
    loops := []
    hflag := true
    pc := st.ktvec }

/-- Returning from a handler (R104): the saved loop stack becomes live, and the word at kepc is executed again or
treated as completed. -/
def Strand.trapReturn (st : Strand) : Strand :=
  let st := { st with loops := st.saved, saved := [], hflag := false }
  if st.kdone then st.loopEnd st.kepc else { st with pc := st.kepc }

/-- A strand on core `c` raises a trap (R100): in-kernel causes 0 to 4 enter the handler if one is set; every other
trap, and any trap inside the handler, is fatal. -/
def State.trap (s : State) (c key : Nat) (st : Strand) (cause : Nat) (done : Bool) (info : Word) : State :=
  let s := s.setStrand key st
  if st.hflag then s.fatal key 15 (BitVec.ofNat 32 cause)
  else if cause ≤ 4 ∧ st.ktvec ≠ 0 then
    s.setStrand key (s.boundary c (st.takeTrap cause done info) false)
  else s.fatal key cause info

/-! ## Strand words -/

/-- What a strand word sees: its core and slot, the strand and its key, its team and kernel, and its order point on
the core's stook (R189). -/
structure Env where
  core : Nat
  slot : Nat
  key  : Nat
  st   : Strand
  tk   : Nat
  tm   : Team
  kn   : Kernel
  mark : Nat

/-- How a strand word ends. -/
inductive WordEnd where
  /-- It completes sequentially, with the strand and the rest of the state as it leaves them. -/
  | done (st : Strand) (s : State)
  /-- It completes and passes control to an address. -/
  | jump (st : Strand) (s : State) (pc : Word)
  /-- It must wait; nothing of its effect has happened. -/
  | block (w : Wait) (s : State)
  /-- It raises a trap. -/
  | trap (cause : Nat) (done : Bool) (info : Word) (st : Strand) (s : State)
  /-- The strand's own fate is already part of the state. -/
  | ended (s : State)

/-- The state after a strand word. -/
def WordEnd.apply (e : Env) : WordEnd → State
  | .done st s => s.setStrand e.key (s.boundary e.core (st.loopEnd e.st.pc) (st.atEnd e.st.pc))
  | .jump st s pc => s.setStrand e.key (s.boundary e.core { st with pc := pc } false)
  | .block w s => s.setStrand e.key (s.park e.core e.st w)
  | .trap cause dn info st s => s.trap e.core e.key st cause dn info
  | .ended s => s

/-- The word in which a strand waits has issued (R84). -/
def Wait.issued : Wait → Bool
  | .full _ | .engine => false
  | _ => true

/-- A strand that may execute: running, or waiting in a word that executes again (R83). -/
def Strand.canIssue (st : Strand) : Bool :=
  match st.st, st.wait with
  | .running, _ => true
  | .blocked, some .sem => false
  | .blocked, some (.steal ..) => false
  | .blocked, _ => true
  | _, _ => false

/-- The strand that acts, if `State.cur` names one that may execute. -/
def State.env (s : State) : Option Env :=
  match s.cur with
  | .strand c sl =>
    (s.core c).active.bind fun tk =>
    (s.teams.get? tk).bind fun tm =>
    (s.kernels.get? tm.lid).bind fun kn =>
    (s.strands.get? (strandKey tm.lid (tm.num * 4 + sl))).bind fun st =>
      if st.canIssue && decide (sl < 4) then
        some { core := c, slot := sl, key := strandKey tm.lid (tm.num * 4 + sl), st := st, tk := tk, tm := tm, kn := kn
               mark := match st.wait with
                 | some (.poll m) => m
                 | some (.room m _) => m
                 | _ => (s.core c).nextSeq }
      else none
  | _ => none

/-- A strand word: an empty source stalls or traps by `femode`, an empty destination stalls (R91, R92), and then the
word acts. Of several empty sources the trap names the first in the order of the operands (DESIGN CHOICE, log 42). A word
that stalls on a source has not issued, so it has no order point yet; one that stalls on its destination has (R84). -/
def strandWord (s : State) (srcs dsts : List XReg) (f : Env → WordEnd) : Host.Outcome State Fault Refusal :=
  match s.env with
  | none => .fault .noAgent
  | some e =>
    let r :=
      match srcs.find? e.st.isEmpty with
      | some r =>
        if e.st.femode then WordEnd.trap 4 false (r.zeroExtend 32) e.st s else .block (.full r) s
      | none => if dsts.any e.st.isEmpty then .block (.poll e.mark) s else f e
    .next (r.apply e)

/-- The word in which a strand waits, if any, has issued (R84). -/
def Strand.hasIssued (st : Strand) : Bool := (st.wait.map Wait.issued).getD false

/-- The step in which the word of a strand that acts issued: this one, unless it has issued before. -/
def Env.issue (e : Env) (s : State) : Nat := if e.st.hasIssued then e.st.issue else s.tick

/-- A strand is BLOCKED in a word of a kind that has issued (R83, R84). -/
def Strand.waitsIn (st : Strand) (p : Instr → Bool) : Bool :=
  decide (st.st = .blocked) && st.hasIssued && (st.held.map p).getD false

/-- The other strands of the team of a strand that acts. -/
def State.siblings (s : State) (e : Env) : List Strand :=
  ((List.range 4).filter (· ≠ e.slot)).filterMap (fun sl => s.strands.get? (strandKey e.tm.lid (e.tm.num * 4 + sl)))

/-- The vector words, which the vector engine executes (R111 to R136). -/
def vectorWord : Instr → Bool
  | .vaddF .. | .vsubF .. | .vmulF .. | .vfmaF .. | .vminF .. | .vmaxF .. | .vabsF .. | .vnegF .. | .vrcp .. | .vsqrt ..
  | .vrsqrt .. | .vexp2 .. | .vlog2 .. | .vaddI .. | .vsubI .. | .vmulI .. | .vmulhI .. | .vminI .. | .vmaxI .. | .vand ..
  | .vor .. | .vxor .. | .vshl .. | .vshr .. | .vsra .. | .vcmpFEq .. | .vcmpFNe .. | .vcmpFLt .. | .vcmpFLe .. | .vcmpIEq ..
  | .vcmpINe .. | .vcmpILt .. | .vcmpILe .. | .vcmpILtu .. | .vcmpILeu .. | .vsel .. | .vmv .. | .vbcast .. | .vpand ..
  | .vpor .. | .vpnot .. | .vpcnt .. | .vld .. | .vst .. | .vlds .. | .vsts .. | .vldx .. | .vperm .. | .vslide .. | .vscan ..
  | .vcvt .. | .vredSum .. | .vredMax .. | .vredMin .. | .vredAnd .. | .vredOr .. | .vnz .. | .vcst .. | .vhist ..
  | .vhmerge .. => true
  | _ => false

/-- The vector engine has a vector word of another strand of the core that has issued and waits: it executes words one at a
time in the order of their issue, and starts no other (R84, R119). -/
def State.vectorBusy (s : State) (e : Env) : Bool := (s.siblings e).any (fun st => st.waitsIn vectorWord)

/-- A vector word: a strand word that issues once the vector engine will start it (R84, R119). -/
def vecWord (s : State) (srcs dsts : List XReg) (f : Env → WordEnd) : Host.Outcome State Fault Refusal :=
  strandWord s srcs [] (fun e =>
    if s.vectorBusy e then .block .engine s
    else if dsts.any e.st.isEmpty then .block (.poll e.mark) s
    else f e)

end Sys2Proof.Machine
end

