-- ==== Sys2Proof/Machine/Flags.lean ====
section
/-! DEFINITION. Floating-point flags of a strand: the sticky flags, the trap enables, and how a vector word ends that
raises flags (R33, R34, R100 cause 3). -/

namespace Sys2Proof.Machine

/-- The trap enables te of `vfrm`, in the bit positions of `vfflags` (R33). -/
def Strand.te (st : Strand) : Flags := BitVec.ofNat 5 (st.vfrm.toNat / 32)

/-- Flags added to the sticky flags (R34). -/
def Strand.raise (st : Strand) (f : Flags) : Strand := { st with vfflags := st.vfflags ||| f }

/-- The rounding mode of `vfrm` for a conversion that may be stochastic; `u` is the drawn value (R33, R36). -/
def rmOf (n : Nat) (u : Word) : Rm :=
  match n with
  | 1 => .rtz
  | 2 => .rdn
  | 3 => .rup
  | 4 => .rmm
  | 5 => .sto u
  | _ => .rne

/-- rm of `vfrm` with 5 read as 0 (R36). -/
def Strand.rm (st : Strand) : Rm := (rmOf (st.vfrm.toNat % 8) 0).det

def Strand.daz (st : Strand) : Bool := st.vfrm.getLsbD 3
def Strand.ftz (st : Strand) : Bool := st.vfrm.getLsbD 4

/-- The end of a word that has written its results and raised `f`: a flag whose enable is set raises cause 3 after
them (R100, R123). -/
def floatEnd (st : Strand) (s : State) (f : Flags) : WordEnd :=
  let st := st.raise f
  if f &&& st.te = 0 then .done st s else .trap 3 true ((f &&& st.te).zeroExtend 32) st s

end Sys2Proof.Machine
end

