-- ==== Sys2Proof/WellFormed.lean ====
section
/-! DEFINITION. Which instructions are well formed: the limits on operand fields that R56 to R72 and R217 put on a word
whose layout is otherwise right. A word whose fields break them is illegal. Events have no encoding and no limits. -/

namespace Sys2Proof

/-- Which encoding an instruction has (R54); an event has none. -/
inductive Kind where
  | strand
  | tile
  | walker
  | move
  | event
  deriving DecidableEq, Repr

/-- The kind of an instruction (R54). -/
def Instr.kind : Instr → Kind
  | .lui .. | .auipc .. | .jal .. | .jalr .. | .beq .. | .bne .. | .blt .. | .bge .. | .bltu .. | .bgeu ..
  | .lb .. | .lh .. | .lw .. | .lbu .. | .lhu .. | .sb .. | .sh .. | .sw .. | .addi .. | .slti .. | .sltiu ..
  | .xori .. | .ori .. | .andi .. | .slli .. | .srli .. | .srai .. | .add .. | .sub .. | .sll .. | .slt ..
  | .sltu .. | .xor .. | .srl .. | .sra .. | .or .. | .and .. | .mul .. | .mulh .. | .mulhsu .. | .mulhu ..
  | .div .. | .divu .. | .rem .. | .remu .. | .fence .. | .fenceI .. | .ecall | .ebreak | .csrrw ..
  | .csrrs .. | .csrrc .. | .csrrwi .. | .csrrsi .. | .csrrci .. | .lpBegin .. | .lpBeginRot .. | .lpBegini ..
  | .lpBeginiRot .. | .lpExit | .lpPop | .lpIdx .. | .trap .. | .tret | .sdone | .feWait ..
  | .feChk .. | .yield | .depWait | .depTrig | .tcLd .. | .tcSet .. | .tcPush .. | .vcsLd ..
  | .tcForce .. | .tcDrain | .semWait .. | .semSig .. | .semTry .. | .semRd .. | .semSet .. | .wrAdv ..
  | .grpJoin .. | .grpLeave .. | .grpSize .. | .grpRank .. | .barInit .. | .barArrive .. | .barWait ..
  | .barSync .. | .rngInit .. | .rngNext .. | .ppPush .. | .ppPop .. | .ppPeek .. | .grBegin .. | .grEnd ..
  | .grCfg .. | .grInval .. | .vaddF .. | .vsubF .. | .vmulF .. | .vfmaF .. | .vminF .. | .vmaxF .. | .vabsF ..
  | .vnegF .. | .vrcp .. | .vsqrt .. | .vrsqrt .. | .vexp2 .. | .vlog2 .. | .vaddI .. | .vsubI .. | .vmulI ..
  | .vmulhI .. | .vminI .. | .vmaxI .. | .vand .. | .vor .. | .vxor .. | .vshl .. | .vshr .. | .vsra ..
  | .vcmpFEq .. | .vcmpFNe .. | .vcmpFLt .. | .vcmpFLe .. | .vcmpIEq .. | .vcmpINe .. | .vcmpILt ..
  | .vcmpILe .. | .vcmpILtu .. | .vcmpILeu .. | .vsel .. | .vmv .. | .vbcast .. | .vpand .. | .vpor ..
  | .vpnot .. | .vpcnt .. | .vld .. | .vst .. | .vlds .. | .vsts .. | .vldx .. | .vperm .. | .vslide ..
  | .vscan .. | .vcvt .. | .vredSum .. | .vredMax .. | .vredMin .. | .vredAnd .. | .vredOr .. | .vnz ..
  | .vcst .. | .vhist .. | .vhmerge .. => .strand
  | .mm .. | .mmTri .. | .wload .. | .wloadAns .. | .tstore .. | .tconv .. | .tcopy .. | .tfill .. | .tclr ..
  | .vtCall .. | .twalk .. | .xfer .. => .tile
  | .wkNop | .wkLd .. | .wkLdx .. | .wkMov .. | .wkAdd .. | .wkAddi .. | .wkCmp .. | .wkBr .. | .wkLoop ..
  | .wkEmit .. | .wkZero | .wkFlush | .wkSkip .. | .wkEnd => .walker
  | .mvNop | .mvLi .. | .mvAdd .. | .mvAddi .. | .mvSub .. | .mvAnd .. | .mvShl .. | .mvMul .. | .mvBr ..
  | .mvJal .. | .mvJalReg .. | .mvNest .. | .mvLp .. | .mvCopy .. | .mvGath .. | .mvScat .. | .mvTpose ..
  | .mvCvt .. | .mvRed .. | .mvMcast .. | .mvAtom .. | .mvWin .. | .mvZip .. | .mvUnzip .. | .mvCsum ..
  | .mvCsumSrc .. | .mvNvm .. | .mvSig .. | .mvTw .. | .mvTwSem .. | .mvFence | .mvFenceRd .. | .mvRet
  | .mvTrap .. => .move
  | .illegalInstruction .. | .fetchAddressTrap .. | .asyncResultArrive .. | .barrierTimeout .. | .rangeSteal ..
  | .walkerIllegalWord | .walkerStepLimit | .illegalMoveWord | .moveCommandStart ..
  | .scoreboardRegister .. | .moveCommandRetire .. | .moveRunRetire .. | .moveUncorrectableError ..
  | .rollbackComplete .. | .windrowRowArrival .. | .pageWalkComplete .. | .faultEventQueue ..
  | .eventRingPost .. | .nvmeCompletion .. | .remoteAccessTimeout .. | .rrbLineExpiry ..
  | .contributionAccept .. | .contributionResend .. | .contributionDeliver .. | .counterLowWordRead ..
  | .regionFieldWrite .. | .windrowEnable .. | .registerWrite .. | .teamPlace .. | .teamSwitchRequest ..
  | .switchPointTimeout .. | .teamSwitchComplete .. | .loftFill .. | .spillComplete .. | .evictTeam ..
  | .residencyQuantumExpiry .. | .pipeOccupancySample .. | .pipeRebalanceWindow .. | .launchRecordFetch ..
  | .recordAdmission .. | .recordAging .. | .kernelLoadComplete .. | .completionRecordWrite .. | .tailWrite ..
  | .cheadWrite .. | .queueRestart .. | .eheadWrite .. | .erestart .. | .storageConnect ..
  | .storageDisconnect .. | .storageConnectComplete .. | .storagePairFailure .. | .create .. | .grant ..
  | .release .. | .writeConfig .. | .readConfig .. | .bindQueue .. | .unbindQueue .. | .lock .. | .getReport ..
  | .start .. | .stop .. | .teardown .. | .resumeOne .. | .resumeRange .. | .failCommand ..
  | .readSuspension .. | .invalidate .. | .setPackage .. | .countersRead .. | .countersWrite ..
  | .errorLogRead .. | .errorLogClear .. | .errorLogPop .. | .inject .. | .loadImage .. | .activate ..
  | .imageActivationComplete .. | .startDeviceCold .. | .startDeviceWarm .. | .deviceStartComplete
  | .retrainLink .. | .spare .. | .retireCore .. | .fenceIn .. | .fenceOut .. | .getVersion ..
  | .getCapabilities .. | .negotiateAlgorithms .. | .getDigests .. | .getCertificate .. | .challenge ..
  | .getMeasurements .. | .keyExchange .. | .finish .. | .heartbeat .. | .heartbeatExpiry .. | .keyUpdate ..
  | .endSession .. | .unsupportedRequest .. | .managementConnectionRequest .. | .contextConnectionRequest ..
  | .rdmaWriteVirtual .. | .rdmaReadVirtual .. | .rdmaWritePhysical .. | .rdmaReadPhysical ..
  | .invalidRequest .. | .flitCrcFailure .. | .flitReceive .. | .linkTrainingResult ..
  | .linkTrainingTimeout .. | .linkLaneFailure .. | .linkSpareSwap .. | .portCarrierChange ..
  | .windowListAdvertise .. | .powerApplied | .powerRemoved | .thermalTrip | .flowLossTrip
  | .thermalHold | .thermalRelease | .clockStep .. | .scrubError .. => .event

/-- The CSR addresses of R57. -/
def csrNamed (c : BitVec 12) : Bool :=
  decide ((0x800 ≤ c.toNat ∧ c.toNat ≤ 0x80B) ∨ (0x810 ≤ c.toNat ∧ c.toNat ≤ 0x815) ∨ c = 0x820 ∨ c = 0x821 ∨
    (0x830 ≤ c.toNat ∧ c.toNat ≤ 0x835))

/-- The checks of R68 on a region descriptor. -/
def Desc.wf (d : Desc) : Bool :=
  decide (d.fmt ≠ 15 ∧ d.addr.toNat % 16 = 0 ∧ d.addr.toNat < (if d.acc then 0x80000 else 0x800000))

/-- The field limits of R56 to R72 and R217. -/
def Instr.wf : Instr → Bool
  | .csrrw _ c _ | .csrrs _ c _ | .csrrc _ c _ | .csrrwi _ c _ | .csrrsi _ c _ | .csrrci _ c _ => csrNamed c
  | .lpBegin _ e | .lpBeginRot _ e | .lpBegini _ e | .lpBeginiRot _ e => decide (e ≠ 0)
  | .lpIdx _ l => decide (l.toNat ≤ 5)
  | .ppPush n _ | .ppPop _ n | .ppPeek _ n => decide (n.toNat ≤ 15)
  | .vcmpFEq d _ _ _ | .vcmpFNe d _ _ _ | .vcmpFLt d _ _ _ | .vcmpFLe d _ _ _ | .vcmpIEq d _ _ _ | .vcmpINe d _ _ _ | .vcmpILt d _ _ _
  | .vcmpILe d _ _ _ | .vcmpILtu d _ _ _ | .vcmpILeu d _ _ _ => decide (d ≠ 0)
  | .vpand d _ _ | .vpor d _ _ | .vpnot d _ => decide (d ≠ 0)
  | .vcvt _ _ f _ _ => decide (f.toNat ≤ 5 ∨ (10 ≤ f.toNat ∧ f.toNat ≤ 14))
  | .mm _ a _ d | .mmTri _ a _ d | .tstore _ a d | .tconv _ a _ d | .tcopy _ a d | .vtCall _ a _ d
    | .twalk _ a _ d => a.wf && d.wf
  | .wload _ a b _ | .wloadAns _ a b _ => a.wf && b.wf
  | .tfill _ _ d | .tclr _ d => d.wf
  | .wkLdx _ _ _ sz => decide (sz ≠ 3)
  | .mvBr cc _ _ _ => decide (cc.toNat ≤ 5)
  | .mvNest k _ | .mvLp k _ => decide (k.toNat ≤ 5)
  | .mvCopy w | .mvTpose w | .mvCvt w | .mvRed w | .mvMcast w | .mvWin w | .mvZip w | .mvUnzip w =>
    w.rc || decide (w.src2 = 0)
  | .lui .. | .auipc .. | .jal .. | .jalr .. | .beq .. | .bne .. | .blt .. | .bge .. | .bltu .. | .bgeu ..
  | .lb .. | .lh .. | .lw .. | .lbu .. | .lhu .. | .sb .. | .sh .. | .sw .. | .addi .. | .slti .. | .sltiu ..
  | .xori .. | .ori .. | .andi .. | .slli .. | .srli .. | .srai .. | .add .. | .sub .. | .sll .. | .slt ..
  | .sltu .. | .xor .. | .srl .. | .sra .. | .or .. | .and .. | .mul .. | .mulh .. | .mulhsu .. | .mulhu ..
  | .div .. | .divu .. | .rem .. | .remu .. | .fence .. | .fenceI .. | .ecall | .ebreak
  | .illegalInstruction .. | .fetchAddressTrap .. | .lpExit | .lpPop | .trap .. | .tret | .sdone
  | .feWait .. | .feChk .. | .asyncResultArrive .. | .yield | .depWait | .depTrig | .tcLd ..
  | .tcSet .. | .tcPush .. | .vcsLd .. | .tcForce .. | .tcDrain | .semWait .. | .semSig .. | .semTry ..
  | .semRd .. | .semSet .. | .wrAdv .. | .grpJoin .. | .grpLeave .. | .grpSize .. | .grpRank .. | .barInit ..
  | .barArrive .. | .barWait .. | .barSync .. | .barrierTimeout .. | .rngInit .. | .rngNext .. | .rangeSteal ..
  | .grBegin .. | .grEnd .. | .grCfg .. | .grInval .. | .vaddF .. | .vsubF .. | .vmulF .. | .vfmaF ..
  | .vminF .. | .vmaxF .. | .vabsF .. | .vnegF .. | .vrcp .. | .vsqrt .. | .vrsqrt .. | .vexp2 .. | .vlog2 ..
  | .vaddI .. | .vsubI .. | .vmulI .. | .vmulhI .. | .vminI .. | .vmaxI .. | .vand .. | .vor .. | .vxor ..
  | .vshl .. | .vshr .. | .vsra .. | .vsel .. | .vmv .. | .vbcast .. | .vpcnt .. | .vld .. | .vst .. | .vlds ..
  | .vsts .. | .vldx .. | .vperm .. | .vslide .. | .vscan .. | .vredSum .. | .vredMax .. | .vredMin ..
  | .vredAnd .. | .vredOr .. | .vnz .. | .vcst .. | .vhist .. | .vhmerge .. | .xfer .. | .wkNop | .wkLd ..
  | .wkMov .. | .wkAdd .. | .wkAddi .. | .wkCmp .. | .wkBr .. | .wkLoop .. | .wkEmit .. | .wkZero
  | .wkFlush | .wkSkip .. | .wkEnd | .walkerIllegalWord | .walkerStepLimit | .mvNop | .mvLi ..
  | .mvAdd .. | .mvAddi .. | .mvSub .. | .mvAnd .. | .mvShl .. | .mvMul .. | .mvJal .. | .mvJalReg ..
  | .mvGath .. | .mvScat .. | .mvAtom .. | .mvCsum .. | .mvCsumSrc .. | .mvNvm .. | .mvSig .. | .mvTw ..
  | .mvTwSem .. | .mvFence | .mvFenceRd .. | .mvRet | .mvTrap .. | .illegalMoveWord
  | .moveCommandStart .. | .scoreboardRegister .. | .moveCommandRetire .. | .moveRunRetire ..
  | .moveUncorrectableError .. | .rollbackComplete .. | .windrowRowArrival .. | .pageWalkComplete ..
  | .faultEventQueue .. | .eventRingPost .. | .nvmeCompletion .. | .remoteAccessTimeout .. | .rrbLineExpiry ..
  | .contributionAccept .. | .contributionResend .. | .contributionDeliver .. | .counterLowWordRead ..
  | .regionFieldWrite .. | .windrowEnable .. | .registerWrite .. | .teamPlace .. | .teamSwitchRequest ..
  | .switchPointTimeout .. | .teamSwitchComplete .. | .loftFill .. | .spillComplete .. | .evictTeam ..
  | .residencyQuantumExpiry .. | .pipeOccupancySample .. | .pipeRebalanceWindow .. | .launchRecordFetch ..
  | .recordAdmission .. | .recordAging .. | .kernelLoadComplete .. | .completionRecordWrite .. | .tailWrite ..
  | .cheadWrite .. | .queueRestart .. | .eheadWrite .. | .erestart .. | .storageConnect ..
  | .storageDisconnect .. | .storageConnectComplete .. | .storagePairFailure .. | .create .. | .grant ..
  | .release .. | .writeConfig .. | .readConfig .. | .bindQueue .. | .unbindQueue .. | .lock .. | .getReport ..
  | .start .. | .stop .. | .teardown .. | .resumeOne .. | .resumeRange .. | .failCommand ..
  | .readSuspension .. | .invalidate .. | .setPackage .. | .countersRead .. | .countersWrite ..
  | .errorLogRead .. | .errorLogClear .. | .errorLogPop .. | .inject .. | .loadImage .. | .activate ..
  | .imageActivationComplete .. | .startDeviceCold .. | .startDeviceWarm .. | .deviceStartComplete
  | .retrainLink .. | .spare .. | .retireCore .. | .fenceIn .. | .fenceOut .. | .getVersion ..
  | .getCapabilities .. | .negotiateAlgorithms .. | .getDigests .. | .getCertificate .. | .challenge ..
  | .getMeasurements .. | .keyExchange .. | .finish .. | .heartbeat .. | .heartbeatExpiry .. | .keyUpdate ..
  | .endSession .. | .unsupportedRequest .. | .managementConnectionRequest .. | .contextConnectionRequest ..
  | .rdmaWriteVirtual .. | .rdmaReadVirtual .. | .rdmaWritePhysical .. | .rdmaReadPhysical ..
  | .invalidRequest .. | .flitCrcFailure .. | .flitReceive .. | .linkTrainingResult ..
  | .linkTrainingTimeout .. | .linkLaneFailure .. | .linkSpareSwap .. | .portCarrierChange ..
  | .windowListAdvertise .. | .powerApplied | .powerRemoved | .thermalTrip | .flowLossTrip
  | .thermalHold | .thermalRelease | .clockStep .. | .scrubError .. => true

end Sys2Proof
end

