-- ==== Sys2Proof/Decode.lean ====
section
/-! DEFINITION. The decoders of the four kinds of word (R54 to R72), total on any bits, and after them the encoders
written from the same tables. A word that a decoder answers `none` for is illegal. -/

namespace Sys2Proof

/-- The field of `n` bits of `w` whose lowest bit is `lo`. -/
def fld {k : Nat} (w : BitVec k) (lo n : Nat) : BitVec n := w.extractLsb' lo n

/-- One bit of a word as a flag. -/
def flag {k : Nat} (w : BitVec k) (b : Nat) : Bool := w.getLsbD b

/-- A flag as a bit. -/
def bit (b : Bool) : BitVec 1 := BitVec.ofBool b

/-! ## Strand words (R55 to R63) -/

/-- The offset of a branch in units of 2 bytes, from the B format. -/
def bOff (w : Word) : BitVec 12 := fld w 31 1 ++ (fld w 7 1 ++ (fld w 25 6 ++ fld w 8 4))

/-- The offset of `jal` in units of 2 bytes, from the J format. -/
def jOff (w : Word) : BitVec 20 := fld w 31 1 ++ (fld w 12 8 ++ (fld w 20 1 ++ fld w 21 10))

/-- The immediate of the S format. -/
def sImm (w : Word) : BitVec 12 := fld w 25 7 ++ fld w 7 5

/-- LOAD (R56). -/
def decLoad (w : Word) : Option Instr :=
  match (fld w 12 3).toNat with
  | 0 => some (.lb (fld w 7 5) (fld w 15 5) (fld w 20 12))
  | 1 => some (.lh (fld w 7 5) (fld w 15 5) (fld w 20 12))
  | 2 => some (.lw (fld w 7 5) (fld w 15 5) (fld w 20 12))
  | 4 => some (.lbu (fld w 7 5) (fld w 15 5) (fld w 20 12))
  | 5 => some (.lhu (fld w 7 5) (fld w 15 5) (fld w 20 12))
  | _ => none

/-- STORE (R56). -/
def decStore (w : Word) : Option Instr :=
  match (fld w 12 3).toNat with
  | 0 => some (.sb (fld w 20 5) (fld w 15 5) (sImm w))
  | 1 => some (.sh (fld w 20 5) (fld w 15 5) (sImm w))
  | 2 => some (.sw (fld w 20 5) (fld w 15 5) (sImm w))
  | _ => none

/-- OP-IMM (R56). -/
def decOpImm (w : Word) : Option Instr :=
  match (fld w 12 3).toNat with
  | 0 => some (.addi (fld w 7 5) (fld w 15 5) (fld w 20 12))
  | 1 => if fld w 25 7 = 0 then some (.slli (fld w 7 5) (fld w 15 5) (fld w 20 5)) else none
  | 2 => some (.slti (fld w 7 5) (fld w 15 5) (fld w 20 12))
  | 3 => some (.sltiu (fld w 7 5) (fld w 15 5) (fld w 20 12))
  | 4 => some (.xori (fld w 7 5) (fld w 15 5) (fld w 20 12))
  | 5 => if fld w 25 7 = 0 then some (.srli (fld w 7 5) (fld w 15 5) (fld w 20 5))
    else if fld w 25 7 = 32 then some (.srai (fld w 7 5) (fld w 15 5) (fld w 20 5)) else none
  | 6 => some (.ori (fld w 7 5) (fld w 15 5) (fld w 20 12))
  | 7 => some (.andi (fld w 7 5) (fld w 15 5) (fld w 20 12))
  | _ => none

/-- OP with funct7 0 (R56). -/
def decOp0 (w : Word) : Option Instr :=
  match (fld w 12 3).toNat with
  | 0 => some (.add (fld w 7 5) (fld w 15 5) (fld w 20 5))
  | 1 => some (.sll (fld w 7 5) (fld w 15 5) (fld w 20 5))
  | 2 => some (.slt (fld w 7 5) (fld w 15 5) (fld w 20 5))
  | 3 => some (.sltu (fld w 7 5) (fld w 15 5) (fld w 20 5))
  | 4 => some (.xor (fld w 7 5) (fld w 15 5) (fld w 20 5))
  | 5 => some (.srl (fld w 7 5) (fld w 15 5) (fld w 20 5))
  | 6 => some (.or (fld w 7 5) (fld w 15 5) (fld w 20 5))
  | 7 => some (.and (fld w 7 5) (fld w 15 5) (fld w 20 5))
  | _ => none

/-- OP with funct7 1 (R56). -/
def decOp1 (w : Word) : Option Instr :=
  match (fld w 12 3).toNat with
  | 0 => some (.mul (fld w 7 5) (fld w 15 5) (fld w 20 5))
  | 1 => some (.mulh (fld w 7 5) (fld w 15 5) (fld w 20 5))
  | 2 => some (.mulhsu (fld w 7 5) (fld w 15 5) (fld w 20 5))
  | 3 => some (.mulhu (fld w 7 5) (fld w 15 5) (fld w 20 5))
  | 4 => some (.div (fld w 7 5) (fld w 15 5) (fld w 20 5))
  | 5 => some (.divu (fld w 7 5) (fld w 15 5) (fld w 20 5))
  | 6 => some (.rem (fld w 7 5) (fld w 15 5) (fld w 20 5))
  | 7 => some (.remu (fld w 7 5) (fld w 15 5) (fld w 20 5))
  | _ => none

/-- OP with funct7 0b010_0000 (R56). -/
def decOp32 (w : Word) : Option Instr :=
  match (fld w 12 3).toNat with
  | 0 => some (.sub (fld w 7 5) (fld w 15 5) (fld w 20 5))
  | 5 => some (.sra (fld w 7 5) (fld w 15 5) (fld w 20 5))
  | _ => none

/-- OP (R56). -/
def decOp (w : Word) : Option Instr :=
  match (fld w 25 7).toNat with
  | 0 => decOp0 w
  | 1 => decOp1 w
  | 32 => decOp32 w
  | _ => none

/-- BRANCH (R56). -/
def decBranch (w : Word) : Option Instr :=
  match (fld w 12 3).toNat with
  | 0 => some (.beq (fld w 15 5) (fld w 20 5) (bOff w))
  | 1 => some (.bne (fld w 15 5) (fld w 20 5) (bOff w))
  | 4 => some (.blt (fld w 15 5) (fld w 20 5) (bOff w))
  | 5 => some (.bge (fld w 15 5) (fld w 20 5) (bOff w))
  | 6 => some (.bltu (fld w 15 5) (fld w 20 5) (bOff w))
  | 7 => some (.bgeu (fld w 15 5) (fld w 20 5) (bOff w))
  | _ => none

/-- MISC-MEM (R56). -/
def decMisc (w : Word) : Option Instr :=
  match (fld w 12 3).toNat with
  | 0 => some (.fence (fld w 20 12) (fld w 15 5) (fld w 7 5))
  | 1 => some (.fenceI (fld w 20 12) (fld w 15 5) (fld w 7 5))
  | _ => none

/-- SYSTEM (R56). -/
def decSystem (w : Word) : Option Instr :=
  match (fld w 12 3).toNat with
  | 0 => if w = 0x73 then some .ecall else if w = 0x100073 then some .ebreak else none
  | 1 => some (.csrrw (fld w 7 5) (fld w 20 12) (fld w 15 5))
  | 2 => some (.csrrs (fld w 7 5) (fld w 20 12) (fld w 15 5))
  | 3 => some (.csrrc (fld w 7 5) (fld w 20 12) (fld w 15 5))
  | 5 => some (.csrrwi (fld w 7 5) (fld w 20 12) (fld w 15 5))
  | 6 => some (.csrrsi (fld w 7 5) (fld w 20 12) (fld w 15 5))
  | 7 => some (.csrrci (fld w 7 5) (fld w 20 12) (fld w 15 5))
  | _ => none

/-- Custom-0, funct3 010 (R59). -/
def decC010 (w : Word) : Option Instr :=
  match (fld w 25 7).toNat with
  | 0 => if fld w 7 5 = 0 ∧ fld w 15 5 = 0 ∧ fld w 20 5 = 0 then some .lpExit else none
  | 1 => if fld w 7 5 = 0 ∧ fld w 15 5 = 0 ∧ fld w 20 5 = 0 then some .lpPop else none
  | 2 => if fld w 15 5 = 0 then some (.lpIdx (fld w 7 5) (fld w 20 5)) else none
  | 3 => if fld w 7 5 = 0 ∧ fld w 15 5 = 0 then some (.trap (fld w 20 5)) else none
  | 4 => if fld w 7 5 = 0 ∧ fld w 15 5 = 0 ∧ fld w 20 5 = 0 then some .tret else none
  | 5 => if fld w 7 5 = 0 ∧ fld w 15 5 = 0 ∧ fld w 20 5 = 0 then some .sdone else none
  | 6 => if fld w 7 5 = 0 ∧ fld w 20 5 = 0 then some (.feWait (fld w 15 5)) else none
  | 7 => if fld w 20 5 = 0 then some (.feChk (fld w 7 5) (fld w 15 5)) else none
  | 8 => if fld w 7 5 = 0 ∧ fld w 15 5 = 0 ∧ fld w 20 5 = 0 then some .yield else none
  | 9 => if fld w 7 5 = 0 ∧ fld w 15 5 = 0 ∧ fld w 20 5 = 0 then some .depWait else none
  | 10 => if fld w 7 5 = 0 ∧ fld w 15 5 = 0 ∧ fld w 20 5 = 0 then some .depTrig else none
  | _ => none

/-- Custom-0, funct3 011 (R59). -/
def decC011 (w : Word) : Option Instr :=
  match (fld w 25 7).toNat with
  | 0 => if fld w 7 5 = 0 ∧ fld w 20 5 = 0 then some (.tcLd (fld w 15 5)) else none
  | 1 => if fld w 10 2 = 0 ∧ fld w 20 5 = 0 then some (.tcSet (fld w 7 3) (fld w 15 5)) else none
  | 2 => if fld w 15 5 = 0 ∧ fld w 20 5 = 0 then some (.tcPush (fld w 7 5)) else none
  | 3 => if fld w 11 1 = 0 then some (.vcsLd (fld w 7 4) (fld w 15 5) (fld w 20 5)) else none
  | 4 => if fld w 7 5 = 0 then some (.tcForce (fld w 15 5) (fld w 20 5)) else none
  | 5 => if fld w 7 5 = 0 ∧ fld w 15 5 = 0 ∧ fld w 20 5 = 0 then some .tcDrain else none
  | _ => none

/-- Custom-0, funct3 100 (R59). -/
def decC100 (w : Word) : Option Instr :=
  match (fld w 28 4).toNat with
  | 0 => if fld w 7 5 = 0 then some (.semWait (fld w 20 8) (fld w 15 5)) else none
  | 1 => if fld w 7 5 = 0 then some (.semSig (fld w 20 8) (fld w 15 5)) else none
  | 2 => some (.semTry (fld w 7 5) (fld w 20 8) (fld w 15 5))
  | 3 => if fld w 15 5 = 0 then some (.semRd (fld w 7 5) (fld w 20 8)) else none
  | 4 => if fld w 7 5 = 0 then some (.semSet (fld w 20 8) (fld w 15 5)) else none
  | 5 => if fld w 7 5 = 0 then some (.wrAdv (fld w 20 8) (fld w 15 5)) else none
  | _ => none

/-- Custom-0, funct3 101 (R59). -/
def decC101 (w : Word) : Option Instr :=
  match (fld w 26 6).toNat with
  | 0 => if fld w 20 6 = 0 ∧ fld w 7 5 = 0 then some (.grpJoin (fld w 15 5)) else none
  | 1 => if fld w 20 6 = 0 ∧ fld w 7 5 = 0 then some (.grpLeave (fld w 15 5)) else none
  | 2 => if fld w 20 6 = 0 then some (.grpSize (fld w 7 5) (fld w 15 5)) else none
  | 3 => if fld w 20 6 = 0 then some (.grpRank (fld w 7 5) (fld w 15 5)) else none
  | 4 => if fld w 7 5 = 0 then some (.barInit (fld w 20 6) (fld w 15 5)) else none
  | 5 => if fld w 7 5 = 0 then some (.barArrive (fld w 20 6) (fld w 15 5)) else none
  | 6 => if fld w 15 5 = 0 then some (.barWait (fld w 7 5) (fld w 20 6)) else none
  | 7 => some (.barSync (fld w 7 5) (fld w 20 6) (fld w 15 5))
  | _ => none

/-- Custom-0, funct3 110 (R59). -/
def decC110 (w : Word) : Option Instr :=
  match (fld w 25 7).toNat with
  | 0 => if fld w 7 5 = 0 then some (.rngInit (fld w 15 5) (fld w 20 5)) else none
  | 1 => if fld w 15 5 = 0 ∧ fld w 20 5 = 0 then some (.rngNext (fld w 7 5)) else none
  | 2 => if fld w 7 5 = 0 then some (.ppPush (fld w 20 5) (fld w 15 5)) else none
  | 3 => if fld w 15 5 = 0 then some (.ppPop (fld w 7 5) (fld w 20 5)) else none
  | 4 => if fld w 15 5 = 0 then some (.ppPeek (fld w 7 5) (fld w 20 5)) else none
  | _ => none

/-- Custom-0, funct3 111 (R59). -/
def decC111 (w : Word) : Option Instr :=
  match (fld w 28 4).toNat with
  | 0 => if fld w 24 4 = 0 ∧ fld w 7 5 = 0 then some (.grBegin (fld w 20 4) (fld w 15 5)) else none
  | 1 => if fld w 24 4 = 0 ∧ fld w 7 5 = 0 ∧ fld w 15 5 = 0 then some (.grEnd (fld w 20 4)) else none
  | 2 => if fld w 20 8 = 0 ∧ fld w 7 5 = 0 then some (.grCfg (fld w 15 5)) else none
  | 3 => if fld w 20 8 = 0 ∧ fld w 7 5 = 0 then some (.grInval (fld w 15 5)) else none
  | _ => none

/-- Custom-0 (R58, R59). -/
def decCustom0 (w : Word) : Option Instr :=
  match (fld w 12 3).toNat with
  | 0 => if fld w 7 5 = 0 then (if flag w 31 then some (.lpBeginRot (fld w 15 5) (fld w 20 11)) else some (.lpBegin (fld w 15 5) (fld w 20 11))) else none
  | 1 => if flag w 31 then some (.lpBeginiRot (fld w 15 5 ++ fld w 7 5) (fld w 20 11))
    else some (.lpBegini (fld w 15 5 ++ fld w 7 5) (fld w 20 11))
  | 2 => decC010 w
  | 3 => decC011 w
  | 4 => decC100 w
  | 5 => decC101 w
  | 6 => decC110 w
  | 7 => decC111 w
  | _ => none

/-- Custom-1 (R62), funct4 0. -/
def decV10 (w : Word) : Option Instr :=
  match (fld w 12 3).toNat with
  | 0 => some (.vaddF (fld w 7 5) (fld w 15 5) (fld w 20 5) (fld w 25 3))
  | 1 => some (.vsubF (fld w 7 5) (fld w 15 5) (fld w 20 5) (fld w 25 3))
  | 2 => some (.vmulF (fld w 7 5) (fld w 15 5) (fld w 20 5) (fld w 25 3))
  | 3 => some (.vfmaF (fld w 7 5) (fld w 15 5) (fld w 20 5) (fld w 25 3))
  | 4 => some (.vminF (fld w 7 5) (fld w 15 5) (fld w 20 5) (fld w 25 3))
  | 5 => some (.vmaxF (fld w 7 5) (fld w 15 5) (fld w 20 5) (fld w 25 3))
  | 6 => if fld w 20 5 = 0 then some (.vabsF (fld w 7 5) (fld w 15 5) (fld w 25 3)) else none
  | 7 => if fld w 20 5 = 0 then some (.vnegF (fld w 7 5) (fld w 15 5) (fld w 25 3)) else none
  | _ => none

/-- Custom-1 (R62), funct4 1. -/
def decV11 (w : Word) : Option Instr :=
  match (fld w 12 3).toNat with
  | 0 => if fld w 20 5 = 0 then some (.vrcp (fld w 7 5) (fld w 15 5) (fld w 25 3)) else none
  | 1 => if fld w 20 5 = 0 then some (.vsqrt (fld w 7 5) (fld w 15 5) (fld w 25 3)) else none
  | 2 => if fld w 20 5 = 0 then some (.vrsqrt (fld w 7 5) (fld w 15 5) (fld w 25 3)) else none
  | 3 => if fld w 20 5 = 0 then some (.vexp2 (fld w 7 5) (fld w 15 5) (fld w 25 3)) else none
  | 4 => if fld w 20 5 = 0 then some (.vlog2 (fld w 7 5) (fld w 15 5) (fld w 25 3)) else none
  | _ => none

/-- Custom-1 (R62), funct4 2. -/
def decV12 (w : Word) : Option Instr :=
  match (fld w 12 3).toNat with
  | 0 => some (.vaddI (fld w 7 5) (fld w 15 5) (fld w 20 5) (fld w 25 3))
  | 1 => some (.vsubI (fld w 7 5) (fld w 15 5) (fld w 20 5) (fld w 25 3))
  | 2 => some (.vmulI (fld w 7 5) (fld w 15 5) (fld w 20 5) (fld w 25 3))
  | 3 => some (.vmulhI (fld w 7 5) (fld w 15 5) (fld w 20 5) (fld w 25 3))
  | 4 => some (.vminI (fld w 7 5) (fld w 15 5) (fld w 20 5) (fld w 25 3))
  | 5 => some (.vmaxI (fld w 7 5) (fld w 15 5) (fld w 20 5) (fld w 25 3))
  | _ => none

/-- Custom-1 (R62), funct4 3. -/
def decV13 (w : Word) : Option Instr :=
  match (fld w 12 3).toNat with
  | 0 => some (.vand (fld w 7 5) (fld w 15 5) (fld w 20 5) (fld w 25 3))
  | 1 => some (.vor (fld w 7 5) (fld w 15 5) (fld w 20 5) (fld w 25 3))
  | 2 => some (.vxor (fld w 7 5) (fld w 15 5) (fld w 20 5) (fld w 25 3))
  | 3 => some (.vshl (fld w 7 5) (fld w 15 5) (fld w 20 5) (fld w 25 3))
  | 4 => some (.vshr (fld w 7 5) (fld w 15 5) (fld w 20 5) (fld w 25 3))
  | 5 => some (.vsra (fld w 7 5) (fld w 15 5) (fld w 20 5) (fld w 25 3))
  | _ => none

/-- Custom-1 (R62), funct4 4. -/
def decV14 (w : Word) : Option Instr :=
  match (fld w 12 3).toNat with
  | 0 => if fld w 10 2 = 0 then some (.vcmpFEq (fld w 7 3) (fld w 15 5) (fld w 20 5) (fld w 25 3)) else none
  | 1 => if fld w 10 2 = 0 then some (.vcmpFNe (fld w 7 3) (fld w 15 5) (fld w 20 5) (fld w 25 3)) else none
  | 2 => if fld w 10 2 = 0 then some (.vcmpFLt (fld w 7 3) (fld w 15 5) (fld w 20 5) (fld w 25 3)) else none
  | 3 => if fld w 10 2 = 0 then some (.vcmpFLe (fld w 7 3) (fld w 15 5) (fld w 20 5) (fld w 25 3)) else none
  | _ => none

/-- Custom-1 (R62), funct4 5. -/
def decV15 (w : Word) : Option Instr :=
  match (fld w 12 3).toNat with
  | 0 => if fld w 10 2 = 0 then some (.vcmpIEq (fld w 7 3) (fld w 15 5) (fld w 20 5) (fld w 25 3)) else none
  | 1 => if fld w 10 2 = 0 then some (.vcmpINe (fld w 7 3) (fld w 15 5) (fld w 20 5) (fld w 25 3)) else none
  | 2 => if fld w 10 2 = 0 then some (.vcmpILt (fld w 7 3) (fld w 15 5) (fld w 20 5) (fld w 25 3)) else none
  | 3 => if fld w 10 2 = 0 then some (.vcmpILe (fld w 7 3) (fld w 15 5) (fld w 20 5) (fld w 25 3)) else none
  | 4 => if fld w 10 2 = 0 then some (.vcmpILtu (fld w 7 3) (fld w 15 5) (fld w 20 5) (fld w 25 3)) else none
  | 5 => if fld w 10 2 = 0 then some (.vcmpILeu (fld w 7 3) (fld w 15 5) (fld w 20 5) (fld w 25 3)) else none
  | _ => none

/-- Custom-1 (R62), funct4 6. -/
def decV16 (w : Word) : Option Instr :=
  match (fld w 12 3).toNat with
  | 0 => some (.vsel (fld w 7 5) (fld w 15 5) (fld w 20 5) (fld w 25 3))
  | 1 => if fld w 20 5 = 0 then some (.vmv (fld w 7 5) (fld w 15 5) (fld w 25 3)) else none
  | 2 => if fld w 20 5 = 0 then some (.vbcast (fld w 7 5) (fld w 15 5) (fld w 25 3)) else none
  | _ => none

/-- Custom-1 (R62), funct4 7. -/
def decV17 (w : Word) : Option Instr :=
  match (fld w 12 3).toNat with
  | 0 => if fld w 25 3 = 0 ∧ fld w 10 2 = 0 ∧ fld w 18 2 = 0 ∧ fld w 23 2 = 0 then some (.vpand (fld w 7 3) (fld w 15 3) (fld w 20 3)) else none
  | 1 => if fld w 25 3 = 0 ∧ fld w 10 2 = 0 ∧ fld w 18 2 = 0 ∧ fld w 23 2 = 0 then some (.vpor (fld w 7 3) (fld w 15 3) (fld w 20 3)) else none
  | 2 => if fld w 25 3 = 0 ∧ fld w 10 2 = 0 ∧ fld w 18 2 = 0 ∧ fld w 20 5 = 0 then some (.vpnot (fld w 7 3) (fld w 15 3)) else none
  | 3 => if fld w 25 3 = 0 ∧ fld w 18 2 = 0 ∧ fld w 20 5 = 0 then some (.vpcnt (fld w 7 5) (fld w 15 3)) else none
  | _ => none

/-- Custom-1 (R62). -/
def decV1 (w : Word) : Option Instr :=
  match (fld w 28 4).toNat with
  | 0 => decV10 w
  | 1 => decV11 w
  | 2 => decV12 w
  | 3 => decV13 w
  | 4 => decV14 w
  | 5 => decV15 w
  | 6 => decV16 w
  | 7 => decV17 w
  | _ => none

/-- Custom-2 (R63), funct4 0. -/
def decV20 (w : Word) : Option Instr :=
  match (fld w 12 3).toNat with
  | 0 => if fld w 20 5 = 0 then some (.vld (fld w 7 5) (fld w 15 5) (fld w 25 3)) else none
  | 1 => if fld w 20 5 = 0 then some (.vst (fld w 7 5) (fld w 15 5) (fld w 25 3)) else none
  | 2 => some (.vlds (fld w 7 5) (fld w 15 5) (fld w 20 5) (fld w 25 3))
  | 3 => some (.vsts (fld w 7 5) (fld w 15 5) (fld w 20 5) (fld w 25 3))
  | 4 => some (.vldx (fld w 7 5) (fld w 15 5) (fld w 20 5) (fld w 25 3))
  | _ => none

/-- Custom-2 (R63), funct4 1. -/
def decV21 (w : Word) : Option Instr :=
  match (fld w 12 3).toNat with
  | 0 => some (.vperm (fld w 7 5) (fld w 15 5) (fld w 20 5) (fld w 25 3))
  | 1 => some (.vslide (fld w 7 5) (fld w 15 5) (fld w 20 5) (fld w 25 3))
  | 2 => if fld w 20 5 = 0 then some (.vscan (fld w 7 5) (fld w 15 5) (fld w 25 3)) else none
  | _ => none

/-- Custom-2 (R63), funct4 2. -/
def decV22 (w : Word) : Option Instr :=
  match (fld w 12 3).toNat with
  | 0 => some (.vcvt (fld w 7 5) (fld w 15 5) (fld w 20 4) (flag w 24) (fld w 25 3))
  | _ => none

/-- Custom-2 (R63), funct4 3. -/
def decV23 (w : Word) : Option Instr :=
  match (fld w 12 3).toNat with
  | 0 => if fld w 20 5 = 0 then some (.vredSum (fld w 7 5) (fld w 15 5) (fld w 25 3)) else none
  | 1 => if fld w 20 5 = 0 then some (.vredMax (fld w 7 5) (fld w 15 5) (fld w 25 3)) else none
  | 2 => if fld w 20 5 = 0 then some (.vredMin (fld w 7 5) (fld w 15 5) (fld w 25 3)) else none
  | 3 => if fld w 20 5 = 0 then some (.vredAnd (fld w 7 5) (fld w 15 5) (fld w 25 3)) else none
  | 4 => if fld w 20 5 = 0 then some (.vredOr (fld w 7 5) (fld w 15 5) (fld w 25 3)) else none
  | _ => none

/-- Custom-2 (R63), funct4 4. -/
def decV24 (w : Word) : Option Instr :=
  match (fld w 12 3).toNat with
  | 0 => some (.vnz (fld w 7 5) (fld w 15 5) (fld w 20 5) (fld w 25 3))
  | 1 => if fld w 20 5 = 0 then some (.vcst (fld w 7 5) (fld w 15 5) (fld w 25 3)) else none
  | 2 => if fld w 20 5 = 0 then some (.vhist (fld w 7 5) (fld w 15 5) (fld w 25 3)) else none
  | 3 => if fld w 20 5 = 0 then some (.vhmerge (fld w 7 5) (fld w 15 5) (fld w 25 3)) else none
  | _ => none

/-- Custom-2 (R63). -/
def decV2 (w : Word) : Option Instr :=
  match (fld w 28 4).toNat with
  | 0 => decV20 w
  | 1 => decV21 w
  | 2 => decV22 w
  | 3 => decV23 w
  | 4 => decV24 w
  | _ => none

/-- A strand word by its major opcode (R55). -/
def strandWord (w : Word) : Option Instr :=
  match (fld w 0 7).toNat with
  | 3 => decLoad w
  | 11 => decCustom0 w
  | 15 => decMisc w
  | 19 => decOpImm w
  | 23 => some (.auipc (fld w 7 5) (fld w 12 20))
  | 35 => decStore w
  | 43 => decV1 w
  | 51 => decOp w
  | 55 => some (.lui (fld w 7 5) (fld w 12 20))
  | 91 => decV2 w
  | 99 => decBranch w
  | 103 => if fld w 12 3 = 0 then some (.jalr (fld w 7 5) (fld w 15 5) (fld w 20 12)) else none
  | 111 => some (.jal (fld w 7 5) (jOff w))
  | 115 => decSystem w
  | _ => none

/-- The instruction of a strand word, or `none` where R55 to R63 make it illegal (R64). -/
def decodeStrand (w : Word) : Option Instr := (strandWord w).filter Instr.wf

/-! ## Tile command words (R65 to R68) -/

/-- The control part of a tile command word. -/
def decHdr (w : TileWord) : TileHdr where
  waitSem := fld w 12 8
  waitEn := flag w 20
  sigSem := fld w 21 8
  sigEn := flag w 29
  scope := fld w 30 2
  waitAmt := fld w 32 8
  sigAmt := fld w 40 8
  chain := fld w 48 16

/-- The region descriptor of a 64-bit field (R67). -/
def decDesc (x : DWord) : Desc where
  addr := fld x 0 24
  peer := fld x 24 3
  peerF := flag x 27
  map := fld x 28 4
  fmt := fld x 32 4
  rows := fld x 36 12
  cols := fld x 48 12
  acc := flag x 60
  tr := flag x 61
  mask := flag x 62

/-- A field that must hold a descriptor: bit 63 is reserved (R68). -/
def descField (x : DWord) : Bool := !flag x 63

/-- The command of a tile word by its code (R66); the fields A, B and D. -/
def tileCmd (code : BitVec 8) (h : TileHdr) (a b d : DWord) : Option Instr :=
  match code.toNat with
  | 0x01 => if descField a ∧ descField d then some (.mm h (decDesc a) b (decDesc d)) else none
  | 0x02 => if descField a ∧ descField d then some (.mmTri h (decDesc a) b (decDesc d)) else none
  | 0x03 => if descField a ∧ descField b then some (.wload h (decDesc a) (decDesc b) d) else none
  | 0x04 => if descField a ∧ descField b then some (.wloadAns h (decDesc a) (decDesc b) d) else none
  | 0x10 => if descField a ∧ b = 0 ∧ descField d then some (.tstore h (decDesc a) (decDesc d)) else none
  | 0x11 => if descField a ∧ descField d then some (.tconv h (decDesc a) b (decDesc d)) else none
  | 0x12 => if descField a ∧ b = 0 ∧ descField d then some (.tcopy h (decDesc a) (decDesc d)) else none
  | 0x13 => if a = 0 ∧ descField d then some (.tfill h b (decDesc d)) else none
  | 0x14 => if a = 0 ∧ b = 0 ∧ descField d then some (.tclr h (decDesc d)) else none
  | 0x15 => if descField a ∧ descField d then some (.vtCall h (decDesc a) b (decDesc d)) else none
  | 0x20 => if descField a ∧ descField d then some (.twalk h (decDesc a) b (decDesc d)) else none
  | 0x30 => some (.xfer h a b d)
  | _ => none

/-- The command of a tile command word, or `none` where R68 makes it illegal: bits [7:4] must equal the engine, bit 11
must be zero. -/
def decodeTile (w : TileWord) : Option Instr :=
  if fld w 8 4 = fld w 4 4 then
    (tileCmd (fld w 0 8) (decHdr w) (fld w 64 64) (fld w 128 64) (fld w 192 64)).filter Instr.wf
  else none

/-! ## Move words (R69 to R71) -/

/-- The operand registers and immediate of a data word (R229). -/
def decData (w : DWord) : DataWord where
  dst := fld w 8 4
  src1 := fld w 12 4
  src2 := fld w 16 4
  rc := flag w 20
  after := flag w 21
  blk := fld w 24 20

/-- flags[3:2] and imm[39:20] of a data word are zero (R70). -/
def dataZero (w : DWord) : Bool := decide (fld w 22 2 = 0 ∧ fld w 44 20 = 0)

/-- A move word by its opcode (R70); a field its form does not use is zero. -/
def moveWord (w : DWord) : Option Instr :=
  match (fld w 0 8).toNat with
  | 0 => if fld w 8 56 = 0 then some .mvNop else none
  | 1 => if fld w 12 4 = 0 ∧ fld w 16 4 = 0 ∧ fld w 20 4 = 0 then some (.mvLi (fld w 8 4) (fld w 24 40)) else none
  | 2 => if fld w 20 4 = 0 ∧ fld w 24 40 = 0 then some (.mvAdd (fld w 8 4) (fld w 12 4) (fld w 16 4)) else none
  | 3 => if fld w 16 4 = 0 ∧ fld w 20 4 = 0 then some (.mvAddi (fld w 8 4) (fld w 12 4) (fld w 24 40)) else none
  | 4 => if fld w 20 4 = 0 ∧ fld w 24 40 = 0 then some (.mvSub (fld w 8 4) (fld w 12 4) (fld w 16 4)) else none
  | 5 => if fld w 20 4 = 0 ∧ fld w 24 40 = 0 then some (.mvAnd (fld w 8 4) (fld w 12 4) (fld w 16 4)) else none
  | 6 => if fld w 20 4 = 0 ∧ fld w 24 40 = 0 then some (.mvShl (fld w 8 4) (fld w 12 4) (fld w 16 4)) else none
  | 7 => if fld w 20 4 = 0 ∧ fld w 24 40 = 0 then some (.mvMul (fld w 8 4) (fld w 12 4) (fld w 16 4)) else none
  | 8 => if fld w 8 4 = 0 then some (.mvBr (fld w 20 4) (fld w 12 4) (fld w 16 4) (fld w 24 40)) else none
  | 9 => if fld w 20 4 = 0 then if fld w 12 4 = 0 ∧ fld w 16 4 = 0 then some (.mvJal (fld w 8 4) (fld w 24 40)) else none
    else if fld w 20 4 = 1 ∧ fld w 16 4 = 0 ∧ fld w 24 40 = 0 then some (.mvJalReg (fld w 8 4) (fld w 12 4)) else none
  | 10 => if fld w 16 4 = 0 ∧ fld w 20 4 = 0 ∧ fld w 24 40 = 0 then some (.mvNest (fld w 8 4) (fld w 12 4)) else none
  | 11 => if fld w 12 4 = 0 ∧ fld w 16 4 = 0 ∧ fld w 20 4 = 0 then some (.mvLp (fld w 8 4) (fld w 24 40)) else none
  | 0x10 => if dataZero w then some (.mvCopy (decData w)) else none
  | 0x11 => if dataZero w then some (.mvGath (decData w)) else none
  | 0x12 => if dataZero w then some (.mvScat (decData w)) else none
  | 0x13 => if dataZero w then some (.mvTpose (decData w)) else none
  | 0x14 => if dataZero w then some (.mvCvt (decData w)) else none
  | 0x15 => if dataZero w then some (.mvRed (decData w)) else none
  | 0x16 => if dataZero w then some (.mvMcast (decData w)) else none
  | 0x17 => if fld w 20 4 = 0 ∧ fld w 31 33 = 0 then some (.mvAtom (fld w 8 4) (fld w 12 4) (fld w 16 4) (fld w 24 4) (fld w 28 2) (flag w 30)) else none
  | 0x18 => if dataZero w then some (.mvWin (decData w)) else none
  | 0x19 => if dataZero w then some (.mvZip (decData w)) else none
  | 0x1a => if dataZero w then some (.mvUnzip (decData w)) else none
  | 0x1b => if fld w 20 4 = 0 then if fld w 12 4 = 0 ∧ fld w 16 4 = 0 ∧ fld w 24 40 = 0 then some (.mvCsum (fld w 8 4)) else none
    else if fld w 20 4 = 1 ∧ fld w 12 4 = 0 ∧ fld w 16 4 = 0 ∧ fld w 24 40 = 0 then some (.mvCsumSrc (fld w 8 4)) else none
  | 0x20 => if fld w 8 4 = 0 ∧ fld w 16 4 = 0 ∧ fld w 20 4 = 0 ∧ fld w 42 22 = 0 then some (.mvSig (fld w 12 4) (fld w 24 8) (fld w 32 8) (fld w 40 2)) else none
  | 0x21 => if fld w 20 4 = 0 then if fld w 8 4 = 0 ∧ fld w 24 40 = 0 then some (.mvTw (fld w 12 4) (fld w 16 4)) else none
    else if fld w 20 4 = 1 ∧ fld w 8 4 = 0 ∧ fld w 32 32 = 0 then some (.mvTwSem (fld w 24 8) (fld w 12 4) (fld w 16 4)) else none
  | 0x22 => if fld w 20 4 = 0 then if fld w 8 4 = 0 ∧ fld w 12 4 = 0 ∧ fld w 16 4 = 0 ∧ fld w 24 40 = 0 then some .mvFence else none
    else if fld w 20 4 = 1 ∧ fld w 12 4 = 0 ∧ fld w 16 4 = 0 ∧ fld w 24 40 = 0 then some (.mvFenceRd (fld w 8 4)) else none
  | 0x23 => if fld w 20 4 = 0 ∧ fld w 41 23 = 0 then some (.mvNvm (fld w 8 4) (fld w 12 4) (fld w 16 4) (fld w 24 16) (flag w 40)) else none
  | 0x3e => if fld w 8 56 = 0 then some .mvRet else none
  | 0x3f => if fld w 8 4 = 0 ∧ fld w 12 4 = 0 ∧ fld w 16 4 = 0 ∧ fld w 20 4 = 0 then some (.mvTrap (fld w 24 40)) else none
  | _ => none

/-- The instruction of a move word, or `none` where R70 makes it illegal. -/
def decodeMove (w : DWord) : Option Instr := (moveWord w).filter Instr.wf

/-! ## Walker words (R72, R217) -/

/-- A walker word by its opcode (R217). -/
def walkerWord (w : Word) : Option Instr :=
  match (fld w 0 6).toNat with
  | 0 => if fld w 6 4 = 0 ∧ fld w 10 4 = 0 ∧ fld w 14 4 = 0 ∧ fld w 18 14 = 0 then some .wkNop else none
  | 1 => if fld w 14 4 = 0 then some (.wkLd (fld w 6 4) (fld w 10 4) (fld w 18 14)) else none
  | 2 => if fld w 20 12 = 0 then some (.wkLdx (fld w 6 4) (fld w 10 4) (fld w 14 4) (fld w 18 2)) else none
  | 3 => if fld w 14 4 = 0 ∧ fld w 18 14 = 0 then some (.wkMov (fld w 6 4) (fld w 10 4)) else none
  | 4 => if fld w 18 14 = 0 then some (.wkAdd (fld w 6 4) (fld w 10 4) (fld w 14 4)) else none
  | 5 => if fld w 14 4 = 0 then some (.wkAddi (fld w 6 4) (fld w 10 4) (fld w 18 14)) else none
  | 6 => if fld w 20 12 = 0 then some (.wkCmp (fld w 6 4) (fld w 10 4) (fld w 14 4) (fld w 18 2)) else none
  | 7 => if fld w 6 4 = 0 ∧ fld w 14 4 = 0 then some (.wkBr (fld w 10 4) (fld w 18 14)) else none
  | 8 => if fld w 6 4 = 0 ∧ fld w 14 4 = 0 then some (.wkLoop (fld w 10 4) (fld w 18 14)) else none
  | 9 => if fld w 6 4 = 0 ∧ fld w 18 14 = 0 then some (.wkEmit (fld w 10 4) (fld w 14 4)) else none
  | 10 => if fld w 6 4 = 0 ∧ fld w 10 4 = 0 ∧ fld w 14 4 = 0 ∧ fld w 18 14 = 0 then some .wkZero else none
  | 11 => if fld w 6 4 = 0 ∧ fld w 10 4 = 0 ∧ fld w 14 4 = 0 ∧ fld w 18 14 = 0 then some .wkFlush else none
  | 12 => if fld w 6 4 = 0 ∧ fld w 14 4 = 0 ∧ fld w 18 14 = 0 then some (.wkSkip (fld w 10 4)) else none
  | 13 => if fld w 6 4 = 0 ∧ fld w 10 4 = 0 ∧ fld w 14 4 = 0 ∧ fld w 18 14 = 0 then some .wkEnd else none
  | _ => none

/-- The instruction of a walker word, or `none` where R72 and R217 make it illegal. -/
def decodeWalker (w : Word) : Option Instr := (walkerWord w).filter Instr.wf

/-- The instruction of a word as the opcode table numbers it: 32 bits are a strand word or, where no strand word, a
walker word (log 2); 64 bits a move word; 256 bits a tile command word. -/
def decodeTableWord (nbits w : Nat) : Option Instr :=
  if nbits = 256 then decodeTile (BitVec.ofNat 256 w)
  else if nbits = 64 then decodeMove (BitVec.ofNat 64 w)
  else if nbits = 32 then
    match decodeStrand (BitVec.ofNat 32 w) with
    | some i => some i
    | none => decodeWalker (BitVec.ofNat 32 w)
  else none

/-! ## The encoder -/

/-- The word of an instruction. -/
inductive Code where
  | strand (w : Word)
  | tile   (w : TileWord)
  | move   (w : DWord)
  | walker (w : Word)
  deriving DecidableEq, Repr

/-- What a word decodes to. -/
def Code.decode : Code → Option Instr
  | .strand w => decodeStrand w
  | .tile w => decodeTile w
  | .move w => decodeMove w
  | .walker w => decodeWalker w

/-- The R layout: funct7, rs2, rs1, funct3, rd, opcode. -/
def encR (f7 : BitVec 7) (t s : XReg) (f3 : BitVec 3) (d : XReg) (op : BitVec 7) : Word :=
  f7 ++ (t ++ (s ++ (f3 ++ (d ++ op))))

/-- The I layout. -/
def encI (imm : BitVec 12) (s : XReg) (f3 : BitVec 3) (d : XReg) (op : BitVec 7) : Word :=
  imm ++ (s ++ (f3 ++ (d ++ op)))

/-- The S layout. -/
def encS (imm : BitVec 12) (t s : XReg) (f3 : BitVec 3) : Word :=
  fld imm 5 7 ++ (t ++ (s ++ (f3 ++ (fld imm 0 5 ++ 0x23#7))))

/-- The B layout; `off` counts 2 bytes. -/
def encB (off : BitVec 12) (t s : XReg) (f3 : BitVec 3) : Word :=
  fld off 11 1 ++ (fld off 4 6 ++ (t ++ (s ++ (f3 ++ (fld off 0 4 ++ (fld off 10 1 ++ 0x63#7))))))

/-- The J layout; `off` counts 2 bytes. -/
def encJ (off : BitVec 20) (d : XReg) : Word :=
  fld off 19 1 ++ (fld off 0 10 ++ (fld off 10 1 ++ (fld off 11 8 ++ (d ++ 0x6F#7))))

/-- The U layout. -/
def encU (imm : BitVec 20) (d : XReg) (op : BitVec 7) : Word := imm ++ (d ++ op)

/-- The C-L layout (R58). -/
def encL (rot : Bool) (e : BitVec 11) (ch : BitVec 5) (f3 : BitVec 3) (cl : BitVec 5) : Word :=
  bit rot ++ (e ++ (ch ++ (f3 ++ (cl ++ 0x0B#7))))

/-- The C-I layout with a 4-bit sub (R58, R59). -/
def encC (sub : BitVec 4) (n : BitVec 8) (s : XReg) (f3 : BitVec 3) (d : XReg) : Word :=
  sub ++ (n ++ (s ++ (f3 ++ (d ++ 0x0B#7))))

/-- The vector layout (R60). -/
def encV (f4 : BitVec 4) (p : BitVec 3) (t s : BitVec 5) (f3 : BitVec 3) (d : BitVec 5) (op : BitVec 7) : Word :=
  f4 ++ (p ++ (t ++ (s ++ (f3 ++ (d ++ op)))))

/-- A predicate number in a 5-bit field. -/
def preg (p : PReg) : BitVec 5 := 0#2 ++ p

/-- A 64-bit descriptor field (R67). -/
def encDesc (d : Desc) : DWord :=
  0#1 ++ (bit d.mask ++ (bit d.tr ++ (bit d.acc ++ (d.cols ++ (d.rows ++ (d.fmt ++ (d.map ++ (bit d.peerF ++
    (d.peer ++ d.addr)))))))))

/-- The control part of a tile command word (R65). -/
def encHdr (h : TileHdr) (code : BitVec 8) : DWord :=
  h.chain ++ (h.sigAmt ++ (h.waitAmt ++ (h.scope ++ (bit h.sigEn ++ (h.sigSem ++ (bit h.waitEn ++ (h.waitSem ++
    (0#1 ++ (fld code 4 3 ++ code)))))))))

/-- A tile command word from its control part and its fields A, B and D. -/
def encT (c a b d : DWord) : TileWord := d ++ (b ++ (a ++ c))

/-- A move word (R69). -/
def encM (imm : BitVec 40) (f t s d : BitVec 4) (op : BitVec 8) : DWord := imm ++ (f ++ (t ++ (s ++ (d ++ op))))

/-- A data word (R229). -/
def encData (w : DataWord) (op : BitVec 8) : DWord :=
  0#20 ++ (w.blk ++ (0#2 ++ (bit w.after ++ (bit w.rc ++ (w.src2 ++ (w.src1 ++ (w.dst ++ op)))))))

/-- A walker word (R72). -/
def encW (imm : BitVec 14) (b a d : BitVec 4) (op : BitVec 6) : Word := imm ++ (b ++ (a ++ (d ++ op)))

/-- The word of an instruction; an event has none. -/
def encode : Instr → Option Code
  | .lui d imm => some (.strand (encU imm d 0x37))
  | .auipc d imm => some (.strand (encU imm d 0x17))
  | .jal d off => some (.strand (encJ off d))
  | .jalr d s imm => some (.strand (encI imm s 0 d 0x67))
  | .beq s t off => some (.strand (encB off t s 0))
  | .bne s t off => some (.strand (encB off t s 1))
  | .blt s t off => some (.strand (encB off t s 4))
  | .bge s t off => some (.strand (encB off t s 5))
  | .bltu s t off => some (.strand (encB off t s 6))
  | .bgeu s t off => some (.strand (encB off t s 7))
  | .lb d s imm => some (.strand (encI imm s 0 d 0x03))
  | .lh d s imm => some (.strand (encI imm s 1 d 0x03))
  | .lw d s imm => some (.strand (encI imm s 2 d 0x03))
  | .lbu d s imm => some (.strand (encI imm s 4 d 0x03))
  | .lhu d s imm => some (.strand (encI imm s 5 d 0x03))
  | .sb t s imm => some (.strand (encS imm t s 0))
  | .sh t s imm => some (.strand (encS imm t s 1))
  | .sw t s imm => some (.strand (encS imm t s 2))
  | .addi d s imm => some (.strand (encI imm s 0 d 0x13))
  | .slti d s imm => some (.strand (encI imm s 2 d 0x13))
  | .sltiu d s imm => some (.strand (encI imm s 3 d 0x13))
  | .xori d s imm => some (.strand (encI imm s 4 d 0x13))
  | .ori d s imm => some (.strand (encI imm s 6 d 0x13))
  | .andi d s imm => some (.strand (encI imm s 7 d 0x13))
  | .slli d s sh => some (.strand (encR 0 sh s 1 d 0x13))
  | .srli d s sh => some (.strand (encR 0 sh s 5 d 0x13))
  | .srai d s sh => some (.strand (encR 0x20 sh s 5 d 0x13))
  | .add d s t => some (.strand (encR 0 t s 0 d 0x33))
  | .sub d s t => some (.strand (encR 0x20 t s 0 d 0x33))
  | .sll d s t => some (.strand (encR 0 t s 1 d 0x33))
  | .slt d s t => some (.strand (encR 0 t s 2 d 0x33))
  | .sltu d s t => some (.strand (encR 0 t s 3 d 0x33))
  | .xor d s t => some (.strand (encR 0 t s 4 d 0x33))
  | .srl d s t => some (.strand (encR 0 t s 5 d 0x33))
  | .sra d s t => some (.strand (encR 0x20 t s 5 d 0x33))
  | .or d s t => some (.strand (encR 0 t s 6 d 0x33))
  | .and d s t => some (.strand (encR 0 t s 7 d 0x33))
  | .mul d s t => some (.strand (encR 1 t s 0 d 0x33))
  | .mulh d s t => some (.strand (encR 1 t s 1 d 0x33))
  | .mulhsu d s t => some (.strand (encR 1 t s 2 d 0x33))
  | .mulhu d s t => some (.strand (encR 1 t s 3 d 0x33))
  | .div d s t => some (.strand (encR 1 t s 4 d 0x33))
  | .divu d s t => some (.strand (encR 1 t s 5 d 0x33))
  | .rem d s t => some (.strand (encR 1 t s 6 d 0x33))
  | .remu d s t => some (.strand (encR 1 t s 7 d 0x33))
  | .fence imm s d => some (.strand (encI imm s 0 d 0x0F))
  | .fenceI imm s d => some (.strand (encI imm s 1 d 0x0F))
  | .ecall => some (.strand (0x73))
  | .ebreak => some (.strand (0x100073))
  | .csrrw d c s => some (.strand (encI c s 1 d 0x73))
  | .csrrs d c s => some (.strand (encI c s 2 d 0x73))
  | .csrrc d c s => some (.strand (encI c s 3 d 0x73))
  | .csrrwi d c s => some (.strand (encI c s 5 d 0x73))
  | .csrrsi d c s => some (.strand (encI c s 6 d 0x73))
  | .csrrci d c s => some (.strand (encI c s 7 d 0x73))
  | .lpBegin s e => some (.strand (encL false e s 0 0))
  | .lpBeginRot s e => some (.strand (encL true e s 0 0))
  | .lpBegini n e => some (.strand (encL false e (fld n 5 5) 1 (fld n 0 5)))
  | .lpBeginiRot n e => some (.strand (encL true e (fld n 5 5) 1 (fld n 0 5)))
  | .lpExit => some (.strand (encR 0 0 0 2 0 0x0B))
  | .lpPop => some (.strand (encR 1 0 0 2 0 0x0B))
  | .lpIdx d l => some (.strand (encR 2 l 0 2 d 0x0B))
  | .trap c => some (.strand (encR 3 c 0 2 0 0x0B))
  | .tret => some (.strand (encR 4 0 0 2 0 0x0B))
  | .sdone => some (.strand (encR 5 0 0 2 0 0x0B))
  | .feWait s => some (.strand (encR 6 0 s 2 0 0x0B))
  | .feChk d s => some (.strand (encR 7 0 s 2 d 0x0B))
  | .yield => some (.strand (encR 8 0 0 2 0 0x0B))
  | .depWait => some (.strand (encR 9 0 0 2 0 0x0B))
  | .depTrig => some (.strand (encR 10 0 0 2 0 0x0B))
  | .tcLd s => some (.strand (encR 0 0 s 3 0 0x0B))
  | .tcSet n s => some (.strand (encR 1 0 s 3 (0#2 ++ n) 0x0B))
  | .tcPush d => some (.strand (encR 2 0 0 3 d 0x0B))
  | .vcsLd o s t => some (.strand (encR 3 t s 3 (0#1 ++ o) 0x0B))
  | .tcForce s t => some (.strand (encR 4 t s 3 0 0x0B))
  | .tcDrain => some (.strand (encR 5 0 0 3 0 0x0B))
  | .semWait n s => some (.strand (encC 0 n s 4 0))
  | .semSig n s => some (.strand (encC 1 n s 4 0))
  | .semTry d n s => some (.strand (encC 2 n s 4 d))
  | .semRd d n => some (.strand (encC 3 n 0 4 d))
  | .semSet n s => some (.strand (encC 4 n s 4 0))
  | .wrAdv n s => some (.strand (encC 5 n s 4 0))
  | .grpJoin s => some (.strand (encI (0#6 ++ 0#6) s 5 0 0x0B))
  | .grpLeave s => some (.strand (encI (1#6 ++ 0#6) s 5 0 0x0B))
  | .grpSize d s => some (.strand (encI (2#6 ++ 0#6) s 5 d 0x0B))
  | .grpRank d s => some (.strand (encI (3#6 ++ 0#6) s 5 d 0x0B))
  | .barInit n s => some (.strand (encI (4#6 ++ n) s 5 0 0x0B))
  | .barArrive n s => some (.strand (encI (5#6 ++ n) s 5 0 0x0B))
  | .barWait d n => some (.strand (encI (6#6 ++ n) 0 5 d 0x0B))
  | .barSync d n s => some (.strand (encI (7#6 ++ n) s 5 d 0x0B))
  | .rngInit s t => some (.strand (encR 0 t s 6 0 0x0B))
  | .rngNext d => some (.strand (encR 1 0 0 6 d 0x0B))
  | .ppPush n s => some (.strand (encR 2 n s 6 0 0x0B))
  | .ppPop d n => some (.strand (encR 3 n 0 6 d 0x0B))
  | .ppPeek d n => some (.strand (encR 4 n 0 6 d 0x0B))
  | .grBegin n s => some (.strand (encC 0 (0#4 ++ n) s 7 0))
  | .grEnd n => some (.strand (encC 1 (0#4 ++ n) 0 7 0))
  | .grCfg s => some (.strand (encC 2 0 s 7 0))
  | .grInval s => some (.strand (encC 3 0 s 7 0))
  | .vaddF d s t p => some (.strand (encV 0 p t s 0 d 0x2B))
  | .vsubF d s t p => some (.strand (encV 0 p t s 1 d 0x2B))
  | .vmulF d s t p => some (.strand (encV 0 p t s 2 d 0x2B))
  | .vfmaF d s t p => some (.strand (encV 0 p t s 3 d 0x2B))
  | .vminF d s t p => some (.strand (encV 0 p t s 4 d 0x2B))
  | .vmaxF d s t p => some (.strand (encV 0 p t s 5 d 0x2B))
  | .vabsF d s p => some (.strand (encV 0 p 0 s 6 d 0x2B))
  | .vnegF d s p => some (.strand (encV 0 p 0 s 7 d 0x2B))
  | .vrcp d s p => some (.strand (encV 1 p 0 s 0 d 0x2B))
  | .vsqrt d s p => some (.strand (encV 1 p 0 s 1 d 0x2B))
  | .vrsqrt d s p => some (.strand (encV 1 p 0 s 2 d 0x2B))
  | .vexp2 d s p => some (.strand (encV 1 p 0 s 3 d 0x2B))
  | .vlog2 d s p => some (.strand (encV 1 p 0 s 4 d 0x2B))
  | .vaddI d s t p => some (.strand (encV 2 p t s 0 d 0x2B))
  | .vsubI d s t p => some (.strand (encV 2 p t s 1 d 0x2B))
  | .vmulI d s t p => some (.strand (encV 2 p t s 2 d 0x2B))
  | .vmulhI d s t p => some (.strand (encV 2 p t s 3 d 0x2B))
  | .vminI d s t p => some (.strand (encV 2 p t s 4 d 0x2B))
  | .vmaxI d s t p => some (.strand (encV 2 p t s 5 d 0x2B))
  | .vand d s t p => some (.strand (encV 3 p t s 0 d 0x2B))
  | .vor d s t p => some (.strand (encV 3 p t s 1 d 0x2B))
  | .vxor d s t p => some (.strand (encV 3 p t s 2 d 0x2B))
  | .vshl d s t p => some (.strand (encV 3 p t s 3 d 0x2B))
  | .vshr d s t p => some (.strand (encV 3 p t s 4 d 0x2B))
  | .vsra d s t p => some (.strand (encV 3 p t s 5 d 0x2B))
  | .vcmpFEq d s t p => some (.strand (encV 4 p t s 0 (preg d) 0x2B))
  | .vcmpFNe d s t p => some (.strand (encV 4 p t s 1 (preg d) 0x2B))
  | .vcmpFLt d s t p => some (.strand (encV 4 p t s 2 (preg d) 0x2B))
  | .vcmpFLe d s t p => some (.strand (encV 4 p t s 3 (preg d) 0x2B))
  | .vcmpIEq d s t p => some (.strand (encV 5 p t s 0 (preg d) 0x2B))
  | .vcmpINe d s t p => some (.strand (encV 5 p t s 1 (preg d) 0x2B))
  | .vcmpILt d s t p => some (.strand (encV 5 p t s 2 (preg d) 0x2B))
  | .vcmpILe d s t p => some (.strand (encV 5 p t s 3 (preg d) 0x2B))
  | .vcmpILtu d s t p => some (.strand (encV 5 p t s 4 (preg d) 0x2B))
  | .vcmpILeu d s t p => some (.strand (encV 5 p t s 5 (preg d) 0x2B))
  | .vsel d s t p => some (.strand (encV 6 p t s 0 d 0x2B))
  | .vmv d s p => some (.strand (encV 6 p 0 s 1 d 0x2B))
  | .vbcast d s p => some (.strand (encV 6 p 0 s 2 d 0x2B))
  | .vpand d s t => some (.strand (encV 7 0 (preg t) (preg s) 0 (preg d) 0x2B))
  | .vpor d s t => some (.strand (encV 7 0 (preg t) (preg s) 1 (preg d) 0x2B))
  | .vpnot d s => some (.strand (encV 7 0 0 (preg s) 2 (preg d) 0x2B))
  | .vpcnt d s => some (.strand (encV 7 0 0 (preg s) 3 d 0x2B))
  | .vld d s p => some (.strand (encV 0 p 0 s 0 d 0x5B))
  | .vst d s p => some (.strand (encV 0 p 0 s 1 d 0x5B))
  | .vlds d s t p => some (.strand (encV 0 p t s 2 d 0x5B))
  | .vsts d s t p => some (.strand (encV 0 p t s 3 d 0x5B))
  | .vldx d s t p => some (.strand (encV 0 p t s 4 d 0x5B))
  | .vperm d s t p => some (.strand (encV 1 p t s 0 d 0x5B))
  | .vslide d s t p => some (.strand (encV 1 p t s 1 d 0x5B))
  | .vscan d s p => some (.strand (encV 1 p 0 s 2 d 0x5B))
  | .vcvt d s f sat p => some (.strand (encV 2 p (bit sat ++ f) s 0 d 0x5B))
  | .vredSum d s p => some (.strand (encV 3 p 0 s 0 d 0x5B))
  | .vredMax d s p => some (.strand (encV 3 p 0 s 1 d 0x5B))
  | .vredMin d s p => some (.strand (encV 3 p 0 s 2 d 0x5B))
  | .vredAnd d s p => some (.strand (encV 3 p 0 s 3 d 0x5B))
  | .vredOr d s p => some (.strand (encV 3 p 0 s 4 d 0x5B))
  | .vnz d s x p => some (.strand (encV 4 p x s 0 d 0x5B))
  | .vcst d s p => some (.strand (encV 4 p 0 s 1 d 0x5B))
  | .vhist d s p => some (.strand (encV 4 p 0 s 2 d 0x5B))
  | .vhmerge d s p => some (.strand (encV 4 p 0 s 3 d 0x5B))
  | .mm h a b d => some (.tile (encT (encHdr h 0x01) (encDesc a) b (encDesc d)))
  | .mmTri h a b d => some (.tile (encT (encHdr h 0x02) (encDesc a) b (encDesc d)))
  | .wload h a b d => some (.tile (encT (encHdr h 0x03) (encDesc a) (encDesc b) d))
  | .wloadAns h a b d => some (.tile (encT (encHdr h 0x04) (encDesc a) (encDesc b) d))
  | .tstore h a d => some (.tile (encT (encHdr h 0x10) (encDesc a) 0 (encDesc d)))
  | .tconv h a b d => some (.tile (encT (encHdr h 0x11) (encDesc a) b (encDesc d)))
  | .tcopy h a d => some (.tile (encT (encHdr h 0x12) (encDesc a) 0 (encDesc d)))
  | .tfill h b d => some (.tile (encT (encHdr h 0x13) 0 b (encDesc d)))
  | .tclr h d => some (.tile (encT (encHdr h 0x14) 0 0 (encDesc d)))
  | .vtCall h a b d => some (.tile (encT (encHdr h 0x15) (encDesc a) b (encDesc d)))
  | .twalk h a b d => some (.tile (encT (encHdr h 0x20) (encDesc a) b (encDesc d)))
  | .xfer h a b d => some (.tile (encT (encHdr h 0x30) a b d))
  | .wkNop => some (.walker (encW 0 0 0 0 0))
  | .wkLd d a imm => some (.walker (encW imm 0 a d 1))
  | .wkLdx d a b sz => some (.walker (encW (0#12 ++ sz) b a d 2))
  | .wkMov d a => some (.walker (encW 0 0 a d 3))
  | .wkAdd d a b => some (.walker (encW 0 b a d 4))
  | .wkAddi d a imm => some (.walker (encW imm 0 a d 5))
  | .wkCmp d a b cc => some (.walker (encW (0#12 ++ cc) b a d 6))
  | .wkBr a imm => some (.walker (encW imm 0 a 0 7))
  | .wkLoop a imm => some (.walker (encW imm 0 a 0 8))
  | .wkEmit a b => some (.walker (encW 0 b a 0 9))
  | .wkZero => some (.walker (encW 0 0 0 0 10))
  | .wkFlush => some (.walker (encW 0 0 0 0 11))
  | .wkSkip a => some (.walker (encW 0 0 a 0 12))
  | .wkEnd => some (.walker (encW 0 0 0 0 13))
  | .mvNop => some (.move (encM 0 0 0 0 0 0))
  | .mvLi d imm => some (.move (encM imm 0 0 0 d 1))
  | .mvAdd d s t => some (.move (encM 0 0 t s d 2))
  | .mvAddi d s imm => some (.move (encM imm 0 0 s d 3))
  | .mvSub d s t => some (.move (encM 0 0 t s d 4))
  | .mvAnd d s t => some (.move (encM 0 0 t s d 5))
  | .mvShl d s t => some (.move (encM 0 0 t s d 6))
  | .mvMul d s t => some (.move (encM 0 0 t s d 7))
  | .mvBr cc s t imm => some (.move (encM imm cc t s 0 8))
  | .mvJal d imm => some (.move (encM imm 0 0 0 d 9))
  | .mvJalReg d s => some (.move (encM 0 1 0 s d 9))
  | .mvNest k s => some (.move (encM 0 0 0 s k 10))
  | .mvLp k imm => some (.move (encM imm 0 0 0 k 11))
  | .mvCopy w => some (.move (encData w 0x10))
  | .mvGath w => some (.move (encData w 0x11))
  | .mvScat w => some (.move (encData w 0x12))
  | .mvTpose w => some (.move (encData w 0x13))
  | .mvCvt w => some (.move (encData w 0x14))
  | .mvRed w => some (.move (encData w 0x15))
  | .mvMcast w => some (.move (encData w 0x16))
  | .mvAtom d s t op ty ret => some (.move (encM (0#33 ++ (bit ret ++ (ty ++ op))) 0 t s d 0x17))
  | .mvWin w => some (.move (encData w 0x18))
  | .mvZip w => some (.move (encData w 0x19))
  | .mvUnzip w => some (.move (encData w 0x1A))
  | .mvCsum d => some (.move (encM 0 0 0 0 d 0x1B))
  | .mvCsumSrc d => some (.move (encM 0 1 0 0 d 0x1B))
  | .mvNvm d s t qp dir => some (.move (encM (0#23 ++ (bit dir ++ qp)) 0 t s d 0x23))
  | .mvSig s n amt scope => some (.move (encM (0#22 ++ (scope ++ (amt ++ n))) 0 0 s 0 0x20))
  | .mvTw s t => some (.move (encM 0 0 t s 0 0x21))
  | .mvTwSem n s t => some (.move (encM (0#32 ++ n) 1 t s 0 0x21))
  | .mvFence => some (.move (encM 0 0 0 0 0 0x22))
  | .mvFenceRd d => some (.move (encM 0 1 0 0 d 0x22))
  | .mvRet => some (.move (encM 0 0 0 0 0 0x3E))
  | .mvTrap imm => some (.move (encM imm 0 0 0 0 0x3F))
  | _ => none

end Sys2Proof
end

