-- ==== Sys2Proof/Machine/Stook.lean ====
section
/-! DEFINITION. The stook (R184 to R198): the sub-tiles of a sheaf, the bytes they read and write, demand and force,
the queueing of waits, and the stalls that accesses owe to dispatched work, `tstore` words and the range scoreboard.
Locations are those of `State.mem`, so a granule of a peer's scratchpad differs from the same offset of the own core. -/

namespace Sys2Proof.Machine

/-! ## Regions (R31, R32, R67) -/

/-- A region of elements at a location. -/
structure Reg where
  base : Nat
  rows : Nat
  cols : Nat
  fmt  : BitVec 4
  deriving DecidableEq, Repr

/-- Bytes of a row. -/
def Reg.pitch (r : Reg) : Nat := r.cols * elemW r.fmt / 8
/-- Bytes of the code array. -/
def Reg.codeBytes (r : Reg) : Nat := r.rows * r.pitch
/-- Where the side array of a block format starts (R32). -/
def Reg.side (r : Reg) : Nat := r.base + (r.codeBytes + 15) / 16 * 16
/-- Side-array bytes of one row. -/
def Reg.sidePitch (r : Reg) : Nat := r.cols / 32 * sideBytes r.fmt
/-- The end of the region. -/
def Reg.stop (r : Reg) : Nat := if isBlock r.fmt then r.side + r.rows * r.sidePitch else r.base + r.codeBytes
/-- The whole region. -/
def Reg.span (r : Reg) : Span := (r.base, r.stop)

/-- A run of bytes, or nothing if it is empty. -/
def spanOf (a b : Nat) : List Span := if a < b then [(a, b)] else []

/-- The bytes of the elements of rows r0 to r1 and columns c0 to c1 (exclusive), without side entries. -/
def Reg.codes (r : Reg) (r0 r1 c0 c1 : Nat) : List Span :=
  if c0 = 0 ∧ r.cols ≤ c1 then spanOf (r.base + r0 * r.pitch) (r.base + r1 * r.pitch)
  else
    (List.range (r1 - r0)).flatMap (fun k =>
      let a := r.base + (r0 + k) * r.pitch
      spanOf (a + c0 * elemW r.fmt / 8) (a + (c1 * elemW r.fmt + 7) / 8))

/-- The side-array bytes of the blocks of a rectangle. -/
def Reg.sides (r : Reg) (r0 r1 c0 c1 : Nat) : List Span :=
  if !isBlock r.fmt then []
  else if c0 = 0 ∧ r.cols ≤ c1 then spanOf (r.side + r0 * r.sidePitch) (r.side + r1 * r.sidePitch)
  else
    (List.range (r1 - r0)).flatMap (fun k =>
      let a := r.side + (r0 + k) * r.sidePitch
      spanOf (a + c0 / 32 * sideBytes r.fmt) (a + (c1 + 31) / 32 * sideBytes r.fmt))

/-- The bytes of a rectangle, clipped to the region. -/
def Reg.rect (r : Reg) (r0 r1 c0 c1 : Nat) : List Span :=
  let r1 := min r1 r.rows
  let c1 := min c1 r.cols
  if r0 < r1 ∧ c0 < c1 then r.codes r0 r1 c0 c1 ++ r.sides r0 r1 c0 c1 else []

/-- Where a descriptor's region lies for a core (R67, R182). -/
def descReg (d : Desc) (core : Nat) : Reg where
  base :=
    if d.acc then accLoc core d.addr.toNat
    else if d.peerF then dspLoc (peerCore core d.peer.toNat) d.addr.toNat
    else dspLoc core d.addr.toNat
  rows := d.rows.toNat + 1
  cols := d.cols.toNat + 1
  fmt := d.fmt

/-! ## Affine index maps (R166, R167) -/

/-- The signed 16-bit number at a byte offset of a map. -/
def mapS16 (m : List Byte) (o : Nat) : Int := intOf 16 true (leNat ((m.drop o).take 2))

/-- The logical coordinates that a map gives (i, j); no map is the identity (R167). -/
def mapCoord (m : Option (List Byte)) (nest : List (BitVec 16)) (i j : Int) : Int × Int :=
  match m with
  | none => (i, j)
  | some m =>
    let t (o : Nat) : Int :=
      ((List.range 6).map (fun n => mapS16 m (o + 2 * n) * ((nest[n]?).map (fun v => (v.toNat : Int))).getD 0)).sum
    (mapS16 m 0 + mapS16 m 4 * i + mapS16 m 6 * j + t 12, mapS16 m 2 + mapS16 m 8 * i + mapS16 m 10 * j + t 24)

/-- The stored coordinates that (i, j) select (R167). -/
def atCoord (d : Desc) (m : Option (List Byte)) (nest : List (BitVec 16)) (i j : Int) : Int × Int :=
  let (rl, cl) := mapCoord m nest i j
  if d.tr then (cl, rl) else (rl, cl)

/-- The fill pattern of a map (R166). -/
def mapFill (m : Option (List Byte)) : Nat :=
  match m with
  | none => 0
  | some m => leNat ((m.drop 0x24).take 4)

/-- A natural number no less than an integer's negative part. -/
def clipN (x : Int) : Nat := x.toNat

/-- The bytes that a descriptor's rectangle (i, j) reads: the bounding box of its corners, clipped (R185). -/
def boxSpans (core : Nat) (d : Desc) (m : Option (List Byte)) (nest : List (BitVec 16)) (i0 i1 j0 j1 : Nat) :
    List Span :=
  if i1 ≤ i0 ∨ j1 ≤ j0 then []
  else
    let cs := [atCoord d m nest i0 j0, atCoord d m nest i0 (j1 - 1), atCoord d m nest (i1 - 1) j0,
      atCoord d m nest (i1 - 1) (j1 - 1)]
    let f (sel : Int × Int → Int) (pick : Int → Int → Int) : Int :=
      cs.foldl (fun a c => pick a (sel c)) (sel (atCoord d m nest i0 j0))
    (descReg d core).rect (clipN (f (·.1) min)) (clipN (f (·.1) max + 1)) (clipN (f (·.2) min)) (clipN (f (·.2) max + 1))

/-! ## Sub-tiles (R184, R185) -/

/-- The (i, j) range of a command and the size of its sub-tiles. -/
structure Grid where
  rows : Nat
  cols : Nat
  h    : Nat
  w    : Nat
  deriving DecidableEq, Repr

def Grid.ni (g : Grid) : Nat := (g.rows + g.h - 1) / g.h
def Grid.nj (g : Grid) : Nat := (g.cols + g.w - 1) / g.w

/-- Sub-tiles doubled in height, then in width, until there are at most 1,024 (R184). -/
def Grid.fit : Nat → Grid → Grid
  | 0, g => g
  | n + 1, g =>
    if g.ni * g.nj ≤ 1024 then g
    else if g.h < g.rows then Grid.fit n { g with h := g.h * 2 }
    else Grid.fit n { g with w := g.w * 2 }

/-- The sub-tiles of a destination descriptor. -/
def descGrid (d : Desc) : Grid :=
  Grid.fit 20 { rows := d.rows.toNat + 1, cols := d.cols.toNat + 1, h := 16, w := if isBlock d.fmt then 32 else 16 }

/-- One sub-tile: the whole command. -/
def oneGrid : Grid := { rows := 1, cols := 1, h := 1, w := 1 }

/-- The sub-tiles of a tile command (R184). -/
def tileGrid : Instr → Grid
  | .mm _ _ _ d | .mmTri _ _ _ d | .tconv _ _ _ d | .tcopy _ _ d | .tfill _ _ d | .tclr _ d => descGrid d
  | .vtCall _ _ _ d =>
    Grid.fit 20 { rows := d.rows.toNat + 1, cols := d.cols.toNat + 1, h := 16, w := d.cols.toNat + 1 }
  | _ => oneGrid

/-- The rectangle i0, i1, j0, j1 (exclusive ends) of sub-tile `u`. -/
def Grid.rect (g : Grid) (u : Nat) : Nat × Nat × Nat × Nat :=
  let i := u / g.nj
  let j := u % g.nj
  (i * g.h, min g.rows (i * g.h + g.h), j * g.w, min g.cols (j * g.w + g.w))

/-- The diagonal offset of `mm.tri` (R172). -/
def parDg (b : DWord) : Int := intOf 12 true (par b 12 12)

/-- The rows of a sub-tile of `mm.tri` from the first that forms an output (R174, R198). -/
def triFrom (b : DWord) (i0 j0 : Nat) : Nat := max i0 (clipN ((j0 : Int) - parDg b))

/-- The cores that a `tconv` writes (R182). -/
def mcastCores (core : Nat) (b : DWord) : List Nat :=
  (List.range 8).filterMap (fun p => if par b (8 + p) 1 = 1 then some (peerCore core p) else none)

/-- The padding of a block region, which its last sub-tile copies or clears with the codes. -/
def padSpan (r : Reg) (g : Grid) (u : Nat) : List Span :=
  if isBlock r.fmt ∧ u + 1 = g.ni * g.nj then spanOf (r.base + r.codeBytes) r.side else []

/-- Where `wload` finds the side array of A (R169). -/
def wloadSide (core : Nat) (a b : Desc) : List Span :=
  if isBlock a.fmt then
    let r := descReg a core
    let len := r.rows * r.sidePitch
    if b.addr = 0 ∧ b.peer = 0 ∧ b.peerF = false then spanOf r.side (r.side + len)
    else spanOf (descReg b core).base ((descReg b core).base + len)
  else []

/-- The bytes a sub-tile writes. -/
def writeSpans (core bank : Nat) (i : Instr) (u : Nat) : List Span :=
  let g := tileGrid i
  let (i0, i1, j0, j1) := g.rect u
  match i with
  | .mm _ _ _ d | .mmTri _ _ _ d | .tfill _ _ d | .vtCall _ _ _ d => (descReg d core).rect i0 i1 j0 j1
  | .tcopy _ _ d | .tclr _ d => (descReg d core).rect i0 i1 j0 j1 ++ padSpan (descReg d core) g u
  | .tconv _ _ b d =>
    if par b 8 8 = 0 then (descReg d core).rect i0 i1 j0 j1
    else (mcastCores core b).flatMap (fun c => ({ (descReg d core) with base := dspLoc c d.addr.toNat } : Reg).rect i0 i1 j0 j1)
  | .wload _ _ _ d | .wloadAns _ _ _ d => [(wtLoc core bank (par d 0 1), wtLoc core bank (par d 0 1) + 1)]
  | .twalk _ _ _ d => [(descReg d core).span]
  | .tstore _ _ d => [(descReg d core).span]
  | _ => []

/-- The bytes that a descriptor's rectangle (i, j) needs: those of the elements that its map selects (R167, R182). -/
def boxNeeds (core : Nat) (d : Desc) (m : Option (List Byte)) (nest : List (BitVec 16)) (i0 i1 j0 j1 : Nat) :
    List Span :=
  match m with
  | none => boxSpans core d m nest i0 i1 j0 j1
  | some _ =>
    let r := descReg d core
    (List.range (i1 - i0)).flatMap (fun i => (List.range (j1 - j0)).flatMap (fun j =>
      let p := atCoord d m nest ((i0 + i : Nat) : Int) ((j0 + j : Nat) : Int)
      if 0 ≤ p.1 ∧ 0 ≤ p.2 then r.rect p.1.toNat (p.1.toNat + 1) p.2.toNat (p.2.toNat + 1) else []))

/-- The bytes a sub-tile reads, `boxSpans` giving those of a descriptor's rectangle; a rectangle of `mm.tri` that lies all
above the diagonal reads none (log 19). -/
def readBy (boxSpans : Nat → Desc → Option (List Byte) → List (BitVec 16) → Nat → Nat → Nat → Nat → List Span)
    (core bank : Nat) (i : Instr) (m : Option (List Byte)) (nest : List (BitVec 16)) (u : Nat) : List Span :=
  let g := tileGrid i
  let (i0, i1, j0, j1) := g.rect u
  let half (b : DWord) : List Span := [(wtLoc core bank (par b 0 1), wtLoc core bank (par b 0 1) + 1)]
  match i with
  | .mm _ a b d =>
    boxSpans core a m nest i0 i1 0 (par b 2 10 + 1) ++ half b ++
      (if par b 1 1 = 1 then (descReg d core).rect i0 i1 j0 j1 else [])
  | .mmTri _ a b d =>
    if triFrom b i0 j0 < i1 then
      boxSpans core a m nest (triFrom b i0 j0) i1 0 (par b 2 10 + 1) ++ half b ++
        (if par b 1 1 = 1 then (descReg d core).rect i0 i1 j0 j1 else [])
    else []
  | .tconv _ a _ _ => boxSpans core a m [] i0 i1 j0 j1
  | .tcopy _ a d =>
    if isBlock a.fmt then (descReg a core).rect i0 i1 j0 j1 ++ padSpan (descReg a core) (descGrid d) u
    else boxSpans core a m [] i0 i1 j0 j1
  | .vtCall _ a _ _ => boxSpans core a m [] i0 i1 0 (a.cols.toNat + 1)
  | .wload _ a b _ => (descReg a core).codes 0 (descReg a core).rows 0 (descReg a core).cols ++ wloadSide core a b
  | .wloadAns _ a b _ => [(descReg a core).span, (descReg b core).span]
  | .twalk _ a b _ => [(descReg a core).span, (dspLoc core (par b 0 23), dspLoc core (par b 0 23) + 4 * (par b 23 9 + 1))]
  | .tstore _ a d =>
    if isBlock a.fmt then [(descReg a core).span] else boxSpans core a m [] 0 (d.rows.toNat + 1) 0 (d.cols.toNat + 1)
  | _ => []

/-- The bytes a sub-tile reads, with the bounding box of what a map selects (R185, R198). -/
def readSpans (core bank : Nat) (i : Instr) (m : Option (List Byte)) (nest : List (BitVec 16)) (u : Nat) : List Span :=
  readBy boxSpans core bank i m nest u

/-- The bytes a sub-tile needs (R182). -/
def needSpans (core bank : Nat) (i : Instr) (m : Option (List Byte)) (nest : List (BitVec 16)) (u : Nat) : List Span :=
  readBy boxNeeds core bank i m nest u

/-- Bytes that a sub-tile's operands name beside those it reads: the side array of A of a `wload` whose B names another
(R185). -/
def namedSpans (core : Nat) : Instr → List Span
  | .wload _ a _ _ => [(descReg a core).span]
  | _ => []

/-- The command of a tile word. -/
def tileInstr (w : TileWord) : Instr := (decodeTile w).getD .wkNop

/-- The bytes that sub-tile `u` of a sheaf writes. -/
def Sheaf.writes (h : Sheaf) (core u : Nat) : List Span := writeSpans core h.bank (tileInstr h.word) u

/-- The footprint of sub-tile `u` of a sheaf, in granules (R185). -/
def Sheaf.foot (h : Sheaf) (core u : Nat) : List Span := (h.writes core u).map Span.granules

/-- The source set of sub-tile `u` of a sheaf, in granules (R185). -/
def Sheaf.src (h : Sheaf) (core u : Nat) : List Span :=
  (readSpans core h.bank (tileInstr h.word) h.mapA h.nest u ++ namedSpans core (tileInstr h.word)).map Span.granules

/-- The granules a queued `tstore` writes, and those it reads (R161). -/
def Queued.foot (q : Queued) (core : Nat) : List Span := (writeSpans core 0 (tileInstr q.word) 0).map Span.granules
def Queued.src (q : Queued) (core : Nat) : List Span := (readSpans core 0 (tileInstr q.word) q.mapA [] 0).map Span.granules

/-! ## Demand and force (R189 to R192) -/

def SubSt.isOpen : SubSt → Bool
  | .opn => true
  | _ => false

/-- Sub-tile `u` of a sheaf is open. -/
def Sheaf.openAt (h : Sheaf) (u : Nat) : Bool :=
  match h.subs[u]? with
  | some v => v.isOpen && !h.dying && !h.faulted
  | none => false

/-- Sub-tile `u` of a sheaf is dispatched and has not run. -/
def Sheaf.dispAt (h : Sheaf) (u : Nat) : Bool :=
  match h.subs[u]? with
  | some v => v.isDisp
  | none => false

def Sheaf.setSub (h : Sheaf) (u : Nat) (v : SubSt) : Sheaf := { h with subs := h.subs.set u v }

def Core.sheaf (k : Core) (q : Nat) : Option Sheaf := k.stook.find? (fun h => h.seq = q)
def Core.updSheaf (k : Core) (q : Nat) (f : Sheaf → Sheaf) : Core :=
  { k with stook := k.stook.map (fun h => if h.seq = q then f h else h) }

/-- The sheaves before an order point, latest first. -/
def Core.before (k : Core) (o : Nat) : List Nat := ((k.stook.filter (fun h => decide (h.seq < o))).map (·.seq)).reverse

/-- A step over every sub-tile of the sheaves before `o`, latest first, as the stook stands when each is reached. -/
def overSubs (k : Core) (o : Nat) (f : Core → Sheaf → Nat → Core) : Core :=
  (k.before o).foldl (fun k q =>
    match k.sheaf q with
    | none => k
    | some h =>
      (List.range h.subs.length).foldl (fun k u =>
        match k.sheaf q with
        | none => k
        | some h => if h.openAt u then f k h u else k) k) k

/-- No sheaf between two has an open sub-tile that reads a footprint (R190). -/
def noReaderBetween (k : Core) (core lo hi : Nat) (ft : List Span) : Bool :=
  !(k.stook.any (fun h => decide (lo < h.seq) && decide (h.seq < hi) &&
    (List.range h.subs.length).any (fun u => h.openAt u && spansMeet (h.src core u) ft)))

/-- A step on sub-tiles of a sheaf; if it is the first dispatch, or the drop of the last open sub-tile, the sheaf takes its
place in the order in which waits are queued (R162, R186, R190). -/
def Core.advance (k : Core) (q : Nat) (f : Sheaf → Sheaf) : Core :=
  { k.updSheaf q (fun h =>
      let g := f h
      if g.due.isNone && (g.subs.any SubSt.isDisp || g.settled) then { g with due := some k.clock } else g) with
    clock := k.clock + 1 }

/-- Sub-tile `u` of a sheaf writes every byte that sub-tile `v` of an earlier one writes, and covers its granules: running
only the later changes no value (R185, R190). -/
def supersedes (core : Nat) (h : Sheaf) (u : Nat) (e : Sheaf) (v : Nat) : Bool :=
  (e.foot core v).all (fun x => spanIn x (h.foot core u)) && (e.writes core v).all (fun x => spanIn x (h.writes core u))

/-- `dispatch(S, u)` of R190, with the demand on its sources; `fuel` bounds the depth, which falls with the sheaf. -/
def dispatch (core : Nat) (d : Demander) : Nat → Core → Nat → Nat → Core
  | 0, k, _, _ => k
  | n + 1, k, q, u =>
    match k.sheaf q with
    | none => k
    | some h =>
      if !h.openAt u then k
      else
        let ft := h.foot core u
        let sr := h.src core u
        let k := overSubs k q (fun k e v => if spansMeet (e.foot core v) sr then dispatch core d n k e.seq v else k)
        let k := overSubs k q (fun k e v =>
          if spansMeet (e.src core v) ft then dispatch core d n k e.seq v
          else if spansMeet (e.foot core v) ft then
            if supersedes core h u e v && noReaderBetween k core e.seq q (e.foot core v) then
              k.advance e.seq (fun e => e.setSub v .dropped)
            else dispatch core d n k e.seq v
          else k)
        k.advance q (fun h => if h.openAt u then h.setSub u (.disp d) else h)

/-- The demand of a reader on the granules `b`, of sheaves before `o` (R190). -/
def Core.demand (k : Core) (core o : Nat) (d : Demander) (b : List Span) : Core :=
  overSubs k o (fun k h u => if spansMeet (h.foot core u) b then dispatch core d (k.stook.length + 1) k h.seq u else k)

/-- The force of a writer of the granules `w`, of sheaves before `o` (R192). -/
def Core.force (k : Core) (core o : Nat) (d : Demander) (w : List Span) : Core :=
  overSubs k o (fun k h u =>
    if spansMeet (h.foot core u) w || spansMeet (h.src core u) w then dispatch core d (k.stook.length + 1) k h.seq u
    else k)

/-- Sheaves forced whole (R193, R194, R197). -/
def Core.forceWhole (k : Core) (core : Nat) (d : Demander) (p : Sheaf → Bool) : Core :=
  overSubs k k.nextSeq (fun k h u => if p h then dispatch core d (k.stook.length + 1) k h.seq u else k)

/-- Sub-tiles dispatched or already run, and sub-tiles dropped. -/
def Core.tally (k : Core) : Nat × Nat :=
  k.stook.foldl (fun a h => (a.1 + h.subs.countP (fun v => match v with | .disp _ => true | .done => true | _ => false),
    a.2 + h.subs.countP (fun v => match v with | .dropped => true | _ => false))) (0, 0)

/-- The counters after demands or forces took a core from `k0` to `k` (R201). -/
def Core.counted (k0 k : Core) : Core :=
  let a := k0.tally
  let b := k.tally
  if a = b then k
  else
    { k with cnt := { k.cnt with
        shsub := k.cnt.shsub + BitVec.ofNat 64 (b.1 - a.1)
        shdrop := k.cnt.shdrop + BitVec.ofNat 64 (b.2 - a.2)
        shdem := k.cnt.shdem + 1 } }

/-- The control part of a tile word. -/
def wordHdr (w : TileWord) : TileHdr := decHdr w

/-- A sheaf whose word signals semaphore `n` of a team of its core (R193); a multicast that leaves its own core out signals
only the others (R182). -/
def Sheaf.signals (h : Sheaf) (core tk n : Nat) : Bool :=
  (wordHdr h.word).sigEn && decide ((wordHdr h.word).sigSem.toNat = n) && decide (h.team = tk) &&
    (match tileInstr h.word with
      | .tconv _ _ b _ => decide (par b 8 8 = 0) || (mcastCores core b).contains core
      | _ => true)

/-- A sheaf whose wait is due: its first work is dispatched, or all of it is dropped (R162, R186). -/
def Sheaf.waitDue (h : Sheaf) : Bool :=
  h.wait = .notQueued && !h.dying && (h.subs.any SubSt.isDisp || h.settled)

/-- The sheaf of a core whose wait has fallen due from `lo` on and is to be queued first. -/
def Core.nextWait (k : Core) (lo : Nat) : Option Sheaf :=
  (k.stook.filter (fun h => h.waitDue && decide (lo ≤ h.due.getD 0))).foldl (fun (b : Option Sheaf) h =>
    match b with
    | none => some h
    | some g => if h.due.getD 0 < g.due.getD 0 then some h else some g) none

/-- The step in which sheaves have fallen due. -/
def Core.timed (k : Core) (tick : Nat) : Core :=
  if k.stook.all (fun h => h.due.isNone || h.since.isSome) then k
  else { k with stook := k.stook.map (fun h => if h.due.isSome && h.since.isNone then { h with since := some tick } else h) }

/-- Waits on semaphores are served from the head of the queue for as long as the head's amount fits (R153, R154):
served waits, count left, waits left. -/
def serveQueue : Nat → Word → List (Waiter × Word) → List Waiter × Word × List (Waiter × Word)
  | 0, c, q => ([], c, q)
  | _, c, [] => ([], c, [])
  | n + 1, c, (w, a) :: q =>
    if a ≤ c then
      let r := serveQueue n (c - a) q
      (w :: r.1, r.2)
    else ([], c, (w, a) :: q)

/-- A wait is served (R153, R162, R244). -/
def State.served (s : State) (w : Waiter) : State :=
  match w with
  | .strand key => s.complete key id
  | .sheaf c q => s.updCore c (fun k => k.updSheaf q (fun h => { h with wait := .served }))
  | .kept tk q =>
    s.updTeam tk (fun t => { t with kept := t.kept.map (fun h => if h.seq = q then { h with wait := .served } else h) })
  | .queue c x =>
    s.updCore c (fun k =>
      if x then { k with xq := match k.xq with | q :: r => { q with wait := .served } :: r | [] => [] }
      else { k with tq := match k.tq with | q :: r => { q with wait := .served } :: r | [] => [] })
  | .engine e => s.updEng e (fun g => { g with run := g.run.map (fun r => { r with semW := .served }) })

/-- The queue of a semaphore served (R154). -/
def State.serveSem (s : State) (key : Nat) : State :=
  match s.sems.get? key with
  | none => s
  | some q =>
    if q.ovf then s
    else
      let r := serveQueue (q.q.length + 1) q.count q.q
      let s := if q.sys && !r.1.isEmpty then s.dropLines else s
      r.1.foldl State.served { s with sems := s.sems.set key { q with count := r.2.1, q := r.2.2 } }

/-- A signal of a team's semaphore by `a` (R151); `core` counts a stray one, `sys` says that it is a release at system
scope (R268). -/
def State.signal (s : State) (core tk n : Nat) (a : Nat) (sys : Bool) : State :=
  match s.sems.get? (semKey tk n) with
  | none => s.updCnt core (fun c => { c with shstray := c.shstray + 1 })
  | some q =>
    if q.ovf then s
    else
    let q := { q with sys := q.sys || sys }
    if q.count.toNat + a < 2 ^ 32 then
      { s with sems := s.sems.set (semKey tk n) { q with count := q.count + BitVec.ofNat 32 a } }.serveSem (semKey tk n)
    else
      { s with sems := s.sems.set (semKey tk n) { q with count := 0xFFFFFFFF, ovf := true } }.fail (tk / 512)
        { Faults.none with fk := 5, unit := core, info := BitVec.ofNat 32 n }

/-- A wait joins a semaphore's queue and is served if its turn has come (R153, R154). -/
def State.queueWait (s : State) (tk n : Nat) (w : Waiter) (a : Nat) : State :=
  match s.sems.get? (semKey tk n) with
  | none => s
  | some q =>
    { s with sems := s.sems.set (semKey tk n) { q with q := q.q ++ [(w, BitVec.ofNat 32 a)] } }.serveSem (semKey tk n)

/-- The demander of a forced wait (R193, R196 kind 7). -/
def waitDemander : Demander := { kind := 7, pc := 0xFFFFFFFF, sid := 0x7FF, agent := 0, key := none, num := 0 }

/-- The waits that have fallen due on a core from `lo` on are queued in the order of R190's dispatches. Before one is queued
the sheaves that would signal it are forced, and the waits of those, whose first work that dispatches, are queued (R162,
R193); the first number bounds the sheaves. -/
def State.settleWaits : Nat → Nat → Nat → State → State
  | 0, _, _, s => s
  | n + 1, lo, core, s =>
    match (s.core core).nextWait lo with
    | none => s
    | some h =>
      let hd := wordHdr h.word
      let mark (st : SheafWait) (s : State) : State :=
        s.updCore core (fun k => k.updSheaf h.seq (fun h => { h with wait := st }))
      if hd.waitEn then
        let now := (s.core core).clock
        let s := (mark .queued s).updCore core (fun k =>
          k.counted ((k.forceWhole core waitDemander (fun e => e.signals core h.team hd.waitSem.toNat)).timed s.tick))
        let s := (State.settleWaits n now core s).queueWait h.team hd.waitSem.toNat (.sheaf core h.seq) hd.waitAmt.toNat
        State.settleWaits n lo core s
      else State.settleWaits n lo core (mark .served s)

/-- A core after a step on its stook, with what that step owes: counters and waits (R162, R201). -/
def State.stookStep (s : State) (core : Nat) (f : Core → Core) : State :=
  State.settleWaits ((s.core core).stook.length + 1) 0 core (s.updCore core (fun k => k.counted ((f k).timed s.tick)))

/-! ## Stalls (R145, R161, R189, R192) -/

/-- A scoreboard entry of a core that is live, or whose registration has its order point no later than `o`, covers a byte of some
runs (R145). -/
def Core.registered (k : Core) (o : Nat) (xs : List Span) : Bool :=
  k.sb.any (fun e => (e.2.live || decide (e.2.mark ≤ o)) && spansMeet [(e.2.lo, e.2.hi)] xs)

/-- An access before order point `o` of a core that reads `rd` and writes `wr` must wait: for dispatched work, for a
`tstore`, or for a scoreboard entry. `seq` is the order point that decides whether a registration holds it off. -/
def Core.busy (k : Core) (core o seq : Nat) (rd wr : List Span) : Bool :=
  k.stook.any (fun h => decide (h.seq < o) && (List.range h.subs.length).any (fun u => h.dispAt u &&
    (spansMeet (h.foot core u) rd || spansMeet (h.foot core u) wr || spansMeet (h.src core u) wr))) ||
  k.tq.any (fun q => decide (q.seq < o) &&
    (spansMeet (q.foot core) rd || spansMeet (q.foot core) wr || spansMeet (q.src core) wr)) ||
  k.registered seq (rd ++ wr)

/-- A `tstore` of another core whose source lies in this one's scratchpad holds off what writes there, from its push until
it has read (R161, R192). -/
def State.farHolds (s : State) (core o : Nat) (wr : List Span) : Bool :=
  s.cores.any (fun c => c.1 != core && c.2.tq.any (fun q =>
    q.far.any (fun f => f.1 = core && decide (f.2 < o)) && spansMeet (q.src c.1) wr))

/-- What an access must wait for on a core, of its own work and of other cores' copies. -/
def State.busy (s : State) (core o seq : Nat) (rd wr : List Span) : Bool :=
  (s.core core).busy core o seq rd wr || s.farHolds core o wr

/-! Arrivals at other cores (R189) -/

/-- The seat of an access at a core. -/
def Seat.is (x : Seat) (a : Access) (p : Nat) : Bool := decide (x.acc = a) && x.core == p

/-- An access arrives at a core with an order point there, unless it has already; `runs` is what it reads and writes. -/
def State.sitAt (s : State) (a : Access) (p mark : Nat) (runs : List Span) : State :=
  if s.seats.any (fun x => x.is a p) then
    { s with seats := s.seats.map (fun x => if x.is a p then { x with runs := runs } else x) }
  else { s with seats := s.seats ++ [{ acc := a, core := p, mark := mark, runs := runs }] }

/-- An access arrives at a core, unless it has already. -/
def State.sit (s : State) (a : Access) (p : Nat) (runs : List Span) : State := s.sitAt a p (s.core p).nextSeq runs

/-- The order point of an access at a core: that of its arrival. -/
def State.seat (s : State) (a : Access) (p : Nat) : Nat :=
  ((s.seats.find? (fun x => x.is a p)).map (·.mark)).getD (s.core p).nextSeq

/-- An access is complete. -/
def State.rise (s : State) (a : Access) : State := { s with seats := s.seats.filter (fun x => x.acc ≠ a) }

/-- The granules of a list of runs. -/
def granulesOf (xs : List Span) : List Span := xs.map Span.granules

/-- The demands and forces of an access of a core's own agent (R189, R192), and whether it must wait. -/
def State.reach (s : State) (core o : Nat) (d : Demander) (rd wr : List Span) : State × Bool :=
  let rd := granulesOf rd
  let wr := granulesOf wr
  let s := if rd.isEmpty then s else s.stookStep core (fun k => k.demand core o d rd)
  let s := if wr.isEmpty then s else s.stookStep core (fun k => k.force core o d wr)
  (s, s.busy core o o rd wr)

/-- The demander of a strand word. -/
def Env.demander (e : Env) (kind : Nat) : Demander :=
  { kind := kind, pc := e.st.pc, sid := e.st.num, agent := 0, key := some e.key, num := 0 }

/-- The demander of an access that arrives from a peer core or a transfer engine (R196). -/
def outerDemander (kind agent : Nat) : Demander :=
  { kind := kind, pc := 0xFFFFFFFF, sid := 0x7FF, agent := agent, key := none, num := 0 }

/-- The demander of a move command's access. -/
def moveDemander (eng num : Nat) : Demander := { outerDemander 6 eng with num := num }

end Sys2Proof.Machine
end

