-- ==== Sys2Proof/Machine/Operands.lean ====
section
/-! DEFINITION. Operands of strand words: local addresses (R137, R138), loads and stores of scratchpads, the semaphore
file and the core registers (R139 to R149, R201, R205), and the CSRs of a strand (R57). -/

namespace Sys2Proof.Machine

/-! ## The local address map (R137) -/

/-- What a local address names. -/
inductive LocalTo where
  /-- The data scratchpad of the core itself, through its own range or its own peer window. -/
  | dsp (off : Nat)
  | isp (off : Nat)
  | sem (n : Nat) (hi : Bool)
  | reg (off : Nat)
  /-- The data scratchpad of another core of the cluster. -/
  | peer (core off : Nat)
  | unmapped
  deriving DecidableEq, Repr

/-- The map of local space for core `c`. -/
def localTo (c a : Nat) : LocalTo :=
  if a < 0x800000 then .dsp a
  else if a < 0x840000 then .isp (a - 0x800000)
  else if 0x900000 ≤ a ∧ a < 0x900800 then .sem ((a - 0x900000) / 8) ((a - 0x900000) % 8 ≥ 4)
  else if 0x910000 ≤ a ∧ a < 0x911000 then .reg (a - 0x910000)
  else if 0x10000000 ≤ a ∧ a < 0x18000000 ∧ a % 0x1000000 < 0x800000 then
    if peerCore c ((a - 0x10000000) / 0x1000000) = c then .dsp (a % 0x1000000)
    else .peer (peerCore c ((a - 0x10000000) / 0x1000000)) (a % 0x1000000)
  else .unmapped

/-- How an access to a core of the cluster ends (R138). -/
inductive PeerCase where
  | served (team : Nat)
  | waits
  | fails
  deriving DecidableEq, Repr

/-- A peer access of a kernel to core `c` (R138). -/
def State.peerCase (s : State) (lid c : Nat) : PeerCase :=
  match s.residentTeam lid c with
  | some tk => .served tk
  | none =>
    if (s.teamOn lid c).isSome then .waits
    else
      match s.kernels.get? lid with
      | none => .fails
      | some k =>
        if k.cores.contains c && s.teams.any (fun t => t.2.lid = lid &&
          (match t.2.place with | .waiting => true | .saved _ => true | _ => false)) then .waits else .fails

/-- How a data access resolves: to a location, to a wait, or to cause 12. -/
inductive DataAt where
  | loc (l : Nat)
  | wait
  | bad
  deriving DecidableEq, Repr

/-- An access of `n` bytes at local address `a` by a strand word to a data scratchpad (R137, R138). -/
def State.dataAt (s : State) (e : Env) (a n : Nat) : DataAt :=
  match localTo e.core a with
  | .dsp o => if (e.tm.firstUnowned o (o + n)).isNone then .loc (dspLoc e.core o) else .bad
  | .peer p o =>
    match s.peerCase e.tm.lid p with
    | .served tk =>
      match s.teams.get? tk with
      | some t => if (t.firstUnowned o (o + n)).isNone then .loc (dspLoc p o) else .bad
      | none => .bad
    | .waits => .wait
    | .fails => .bad
  | _ => .bad

/-- The cores other than `c` whose storage a set of runs touches. -/
def otherCores (c : Nat) (xs : List Span) : List Nat :=
  (xs.filterMap (fun x => (locCore x.1).bind (fun p => if p.1 = c then none else some p.1))).eraseDups

/-- The runs of a set that lie in a core. -/
def spansOn (c : Nat) (xs : List Span) : List Span :=
  xs.filter (fun x => match locCore x.1 with | some p => p.1 = c | none => false)

/-- Demands and forces of an access on a peer core, in the order there from its arrival (R189, R192). -/
def State.reachFar (s : State) (a : Access) (core p : Nat) (rd wr : List Span) : State × Bool :=
  let s := s.sit a p (spansOn p (rd ++ wr))
  s.reach p (s.seat a p) (outerDemander 5 core) (spansOn p rd) (spansOn p wr)

/-- A strand's word waits and executes again: its accesses keep the order points of their arrival. -/
def State.again (s : State) (key : Nat) : Bool :=
  match (s.strands.get? key).bind (·.wait) with
  | some (.poll _) => true
  | _ => false

/-- Demands and forces of a strand word's access on every core it touches, and whether it must wait (R138, R189, R192). On a
peer core the access takes its place in the order there when it arrives. -/
def State.reachAll (s : State) (core o : Nat) (d : Demander) (rd wr : List Span) : State × Bool :=
  match otherCores core (rd ++ wr) with
  | [] => s.reach core o d rd wr
  | ps =>
    let key := d.key.getD 0
    let s := if s.again key then s else s.rise (.strand key)
    let r := ps.foldl (fun (r : State × Bool) p =>
      let q := r.1.reachFar (.strand key) core p rd wr
      (q.1, r.2 || q.2)) (s.reach core o d rd wr)
    (if r.2 then r.1 else r.1.rise (.strand key), r.2)

/-! ## Core registers (R139) -/

/-- The two halves of a 64-bit number. -/
def lo32 (v : DWord) : Word := v.truncate 32
def hi32 (v : DWord) : Word := (v >>> 32).truncate 32

/-- Offsets of the low words of the 64-bit counters (R144, R201, R205). -/
def counterLow : List Nat := [0x400, 0x408, 0x500, 0x508, 0x510, 0x610, 0x618]

/-- The 64-bit counter whose low word has an offset. -/
def State.counter64 (s : State) (core off : Nat) : DWord :=
  let n := (s.core core).cnt
  match off with
  | 0x400 => n.bkacc
  | 0x408 => n.bkcfl
  | 0x500 => n.shapp
  | 0x508 => n.shsub
  | 0x510 => n.shdrop
  | 0x610 => n.ghit
  | _ => n.gmiss

/-- Bits that say which scoreboard entries are live (R145). -/
def Core.sblive (k : Core) : Word :=
  k.sb.foldl (fun (v : Word) e => if e.2.live then v ||| BitVec.ofNat 32 (2 ^ e.1) else v) 0

/-- Bytes of storage of a granary entry (R203). -/
def GEntry.size (g : GEntry) : Nat := g.input.length + g.output.length

/-- The word of a region entry at an offset in it (R140). -/
def Region.word (r : Region) (o : Nat) : Word :=
  match o / 4 with
  | 0 => r.base
  | 1 => r.size
  | 2 => r.mode.zeroExtend 32
  | 3 => r.sk.zeroExtend 32
  | 10 => r.cfl
  | n => if h : 4 ≤ n ∧ n ≤ 9 then (r.h[n - 4]'(by omega)).zeroExtend 32 <<< 12 else 0

/-- The word of a windrow at an offset in it (R149). -/
def Windrow.word (w : Windrow) (o : Nat) : Word :=
  match o / 4 with
  | 0 => (if w.en then 1 else 0) ||| (w.sem.zeroExtend 32 <<< 8)
  | 1 => w.base.zeroExtend 32
  | 2 => w.rows.zeroExtend 32
  | 3 => w.pitch.zeroExtend 32
  | 4 => w.head
  | 5 => w.arrived
  | _ => 0

/-- The bits of gopen (R205). -/
def Team.gopen (t : Team) : Word :=
  t.blocks.foldl (fun (v : Word) b => v ||| 
    BitVec.ofNat 32 ((match b.2.1 with | .capture => 1 | .run => 2 | .replay => 3) * 4 ^ b.1)) 0

/-- A register offset that R139 maps (log 20). -/
def regMapped (off : Nat) : Bool :=
  decide (off < 0x420) || decide (0x480 ≤ off ∧ off < 0x490) || decide (0x500 ≤ off ∧ off < 0x534) ||
    decide (0x600 ≤ off ∧ off < 0x630) || decide (0x800 ≤ off ∧ off < 0x900)

/-- The value of the register word at an offset of the core-register block, as team `tm` sees it. -/
def State.regWord (s : State) (core : Nat) (tm : Team) (off : Nat) : Word :=
  let k := s.core core
  if h : off < 0x400 then (tm.regions[off / 0x40]'(by omega)).word (off % 0x40)
  else if h : 0x800 ≤ off ∧ off < 0x900 then (k.windrows[(off - 0x800) / 0x20]'(by omega)).word (off % 0x20)
  else if counterLow.contains off then lo32 (s.counter64 core off)
  else if counterLow.contains (off - 4) then hi32 (s.counter64 core (off - 4))
  else
    match off with
    | 0x410 => k.cnt.bkfull
    | 0x414 => k.cnt.bkhigh.zeroExtend 32
    | 0x480 => k.sblive
    | 0x484 => k.cnt.sbstall
    | 0x488 => k.cnt.sbfull
    | 0x518 => k.cnt.shdisc
    | 0x51C => k.cnt.shovf
    | 0x520 => k.cnt.shstray
    | 0x524 => k.cnt.shfault
    | 0x528 => k.cnt.shdem
    | 0x52C => BitVec.ofNat 32 k.stook.length ||| (k.cnt.shpeak.zeroExtend 32 <<< 16)
    | 0x530 => if k.eager then 1 else 0
    | 0x600 => tm.gthr
    | 0x604 => tm.gfmt.zeroExtend 32 ||| (if tm.grel then 0x100 else 0) ||| (tm.glim.zeroExtend 32 <<< 12)
    | 0x608 => tm.gstep
    | 0x60C => tm.gopen
    | 0x620 => k.cnt.gstale
    | 0x624 => k.cnt.gevict
    | 0x628 => BitVec.ofNat 32 (((k.gran.filter (fun g => g.ctx = s.lidCtx tm.lid)).map GEntry.size).sum)
    | 0x62C => BitVec.ofNat 32 (k.gran.filter (fun g => g.ctx = s.lidCtx tm.lid)).length
    | _ => 0

/-- A read of a core register by a strand (R139): a low word of a 64-bit counter latches its high word, and the next
read of that high word returns what was latched. -/
def State.regRead (s : State) (core : Nat) (tm : Team) (st : Strand) (off : Nat) : Strand × Word :=
  if counterLow.contains off then
    let v := s.counter64 core off
    ({ st with latch := st.latch.set (off + 4) (hi32 v) }, lo32 v)
  else
    match st.latch.get? off with
    | some v => ({ st with latch := st.latch.erase off }, v)
    | none => (st, s.regWord core tm off)

/-- One half of a 64-bit counter replaced. -/
def setHalf (v : DWord) (hi : Bool) (w : Word) : DWord := if hi then w ++ lo32 v else hi32 v ++ w

/-- The counters of a core after a write of an RW counter word (R144, R145, R201, R205). -/
def Counters.put (n : Counters) (off : Nat) (v : Word) : Counters :=
  match off with
  | 0x400 => { n with bkacc := setHalf n.bkacc false v }
  | 0x404 => { n with bkacc := setHalf n.bkacc true v }
  | 0x408 => { n with bkcfl := setHalf n.bkcfl false v }
  | 0x40C => { n with bkcfl := setHalf n.bkcfl true v }
  | 0x410 => { n with bkfull := v }
  | 0x414 => { n with bkhigh := v.truncate 5 }
  | 0x484 => { n with sbstall := v }
  | 0x488 => { n with sbfull := v }
  | 0x500 => { n with shapp := setHalf n.shapp false v }
  | 0x504 => { n with shapp := setHalf n.shapp true v }
  | 0x508 => { n with shsub := setHalf n.shsub false v }
  | 0x50C => { n with shsub := setHalf n.shsub true v }
  | 0x510 => { n with shdrop := setHalf n.shdrop false v }
  | 0x514 => { n with shdrop := setHalf n.shdrop true v }
  | 0x518 => { n with shdisc := v }
  | 0x51C => { n with shovf := v }
  | 0x520 => { n with shstray := v }
  | 0x524 => { n with shfault := v }
  | 0x528 => { n with shdem := v }
  | 0x52C => { n with shpeak := (v >>> 16).truncate 11 }
  | 0x610 => { n with ghit := setHalf n.ghit false v }
  | 0x614 => { n with ghit := setHalf n.ghit true v }
  | 0x618 => { n with gmiss := setHalf n.gmiss false v }
  | 0x61C => { n with gmiss := setHalf n.gmiss true v }
  | 0x620 => { n with gstale := v }
  | 0x624 => { n with gevict := v }
  | _ => n

/-- A windrow after a write of one of its words (R149, R240). -/
def Windrow.put (w : Windrow) (o : Nat) (v : Word) : Windrow :=
  match o / 4 with
  | 0 =>
    let w := if v.getLsbD 0 && !w.en then { w with head := 0, arrived := 0 } else w
    { w with en := v.getLsbD 0, sem := (v >>> 8).truncate 8 }
  | 1 => if w.en then w else { w with base := v.truncate 23 }
  | 2 => if w.en then w else { w with rows := v.truncate 12 }
  | 3 => if w.en then w else { w with pitch := v.truncate 17 }
  | _ => w

/-- A write of a register word without the steps of R142. -/
def State.regPut (s : State) (core tk off : Nat) (v : Word) : State :=
  if h : off < 0x400 then
    if off % 0x40 = 0x28 then
      s.updTeam tk (fun t =>
        let r := t.regions[off / 0x40]'(by omega)
        { t with regions := t.regions.set (off / 0x40) ({ r with cfl := v }) (by omega) })
    else s
  else if h : 0x800 ≤ off ∧ off < 0x900 then
    s.updCore core (fun k =>
      let w := (k.windrows[(off - 0x800) / 0x20]'(by omega)).put (off % 0x20) v
      { k with windrows := k.windrows.set ((off - 0x800) / 0x20) w (by omega) })
  else if off = 0x530 then s.updCore core (fun k => { k with eager := v.getLsbD 0 })
  else s.updCnt core (fun n => n.put off v)

/-- A region entry with sk or a row of its XOR matrix set (R140). -/
def Region.putField (r : Region) (o : Nat) (v : Word) : Region :=
  if o = 0x0C then if (v.truncate 4 : BitVec 4).toNat ≤ 11 then { r with sk := v.truncate 4 } else r
  else if h : 4 ≤ o / 4 ∧ o / 4 ≤ 9 then { r with h := r.h.set (o / 4 - 4) ((v >>> 12).truncate 12) (by omega) }
  else r

/-- A word of sk or of the XOR matrix of a region entry. -/
def isRegionField (off : Nat) : Bool :=
  decide (off < 0x400) && decide (0x0C ≤ off % 0x40) && decide (off % 0x40 ≤ 0x24)

/-- REGION_FIELD_WRITE (R142): force, wait, zero, set; the state and whether the write must still wait. -/
def State.regionFieldWrite (s : State) (core tk o : Nat) (d : Demander) (off : Nat) (v : Word) : State × Bool :=
  match s.teams.get? tk with
  | none => (s, false)
  | some t =>
    if h : off < 0x400 then
      let r := t.regions[off / 0x40]'(by omega)
      let sp : List Span := if r.mode = 0 then [] else spanOf (dspLoc core r.base.toNat) (dspLoc core (r.base.toNat + r.size.toNat))
      let (s, w) := s.reach core o d [] sp
      if w then (s, true)
      else
        let s := if r.mode = 0 then s else s.zero (dspLoc core r.base.toNat) r.size.toNat
        (s.updTeam tk (fun t => { t with regions := t.regions.set (off / 0x40) (r.putField (off % 0x40) v) (by omega) }), false)
    else (s, false)

/-- A write of a core register (R4, R139): the state, and whether the write must still wait. -/
def State.regWrite (s : State) (core tk o : Nat) (d : Demander) (off : Nat) (v : Word) : State × Bool :=
  if isRegionField off then s.regionFieldWrite core tk o d off v else (s.regPut core tk off v, false)

/-- A word of the semaphore file (R150). -/
def State.semWord (s : State) (tk n : Nat) (hi : Bool) : Word :=
  match s.sems.get? (semKey tk n) with
  | none => 0
  | some q => if hi then (if q.ovf then 1 else 0) ||| BitVec.ofNat 32 (min 255 q.q.length * 256) else q.count

/-! ## Scalar loads and stores (R86) -/

/-- The effective address of a scalar access. -/
def Env.addr (e : Env) (b : XReg) (imm : BitVec 12) : Word := e.st.getX b + imm.signExtend 32

/-- A read of a strand's own scratchpads meets an uncorrectable error, or gives the state and the number read. -/
def State.strandRead (s : State) (e : Env) (l n : Nat) (k : State → Nat → WordEnd) : WordEnd :=
  match s.readCheck (some e.kn.ctx) l n with
  | (s, some p) => .ended (s.memError e.tm.lid p)
  | (s, none) => k s (s.mem.num l n)

/-- A scalar load of `n` bytes into `d`; `ext` extends what was read (R85, R86, R91). -/
def loadEnd (s : State) (e : Env) (d : XReg) (a : Word) (n : Nat) (ext : Nat → Word) : WordEnd :=
  if a.toNat % n ≠ 0 then .trap 11 false a e.st s
  else
    match localTo e.core a.toNat with
    | .isp o => s.strandRead e (ispLoc e.core o) n (fun s v => .done (e.st.later d (ext v)) s)
    | .sem k hi =>
      if n = 4 ∧ e.kn.desc.ownsSem k then .done (e.st.later d (s.semWord e.tk k hi)) s else .trap 12 false a e.st s
    | .reg o =>
      if n = 4 ∧ regMapped o then
        let (st, v) := s.regRead e.core e.tm e.st o
        .done (st.later d v) s
      else .trap 12 false a e.st s
    | _ =>
      match s.dataAt e a.toNat n with
      | .bad => .trap 12 false a e.st s
      | .wait => .block (.poll e.mark) s
      | .loc l =>
        let (s, w) := s.reachAll e.core e.mark (e.demander 0) [(l, l + n)] []
        if w then .block (.poll e.mark) s else s.strandRead e l n (fun s v => .done (e.st.later d (ext v)) s)

/-- A store into a kernel's own text (R320): a fetch may still give the old word until a `fence.i` (R89, R280). -/
def State.textStore (s : State) (core o : Nat) (bs : List Byte) : State :=
  let old := BitVec.ofNat 32 (s.mem.num (ispLoc core (o / 4 * 4)) 4)
  (s.updCore core (fun k => { k with stale := k.stale ++ [(o / 4 * 4, old)] })).store (ispLoc core o) bs

/-- The write of a strand's word: an ECC word that it covers only in part is read first (R257), and an uncorrectable error
there ends the word (R296). -/
def State.strandWrite (s : State) (e : Env) (xs : List Span) (k : State → WordEnd) : WordEnd :=
  match s.checkSpans e.kn.ctx (partWords xs) with
  | (s, some p) => .ended (s.memError e.tm.lid p)
  | (s, none) => k s

/-- A scalar store of the low `n` bytes of a value (R85, R86). -/
def storeEnd (s : State) (e : Env) (a : Word) (n : Nat) (v : Word) : WordEnd :=
  if a.toNat % n ≠ 0 then .trap 11 false a e.st s
  else
    match localTo e.core a.toNat with
    | .isp o =>
      if e.kn.desc.tw then
        s.strandWrite e [(ispLoc e.core o, ispLoc e.core o + n)] (fun s => .done e.st (s.textStore e.core o (leBytes n v.toNat)))
      else .trap 12 false a e.st s
    | .reg o =>
      if n = 4 ∧ regMapped o then
        let (s, w) := s.regWrite e.core e.tk e.mark (e.demander 0) o v
        if w then .block (.poll e.mark) s else .done e.st s
      else .trap 12 false a e.st s
    | _ =>
      match s.dataAt e a.toNat n with
      | .bad => .trap 12 false a e.st s
      | .wait => .block (.poll e.mark) s
      | .loc l =>
        let (s, w) := s.reachAll e.core e.mark (e.demander 0) [] [(l, l + n)]
        if w then .block (.poll e.mark) s
        else s.strandWrite e [(l, l + n)] (fun s => .done e.st (s.store l (leBytes n v.toNat)))

/-- A scalar load word. -/
def loadWord (s : State) (d b : XReg) (imm : BitVec 12) (n : Nat) (ext : Nat → Word) :
    Host.Outcome State Fault Refusal :=
  strandWord s [b] [d] (fun e => loadEnd s e d (e.addr b imm) n ext)

/-- A scalar store word. -/
def storeWord (s : State) (t b : XReg) (imm : BitVec 12) (n : Nat) : Host.Outcome State Fault Refusal :=
  strandWord s [b, t] [] (fun e => storeEnd s e (e.addr b imm) n (e.st.getX t))

/-! ## CSRs (R57) -/

/-- The level that lpsvN reads, N counted from the outermost (R103). -/
def lpsvWord (ls : List LoopLevel) (n : Nat) : Word :=
  match ls.reverse[n]? with
  | some l => l.index ++ l.count
  | none => 0

/-- The value of a CSR. -/
def Strand.csr (st : Strand) (core csr : Nat) : Word :=
  match csr with
  | 0x800 => st.fmt.zeroExtend 32 ||| (st.wg.zeroExtend 32 <<< 4) ||| (if st.cdir then 0x40 else 0)
  | 0x801 => st.vbase.zeroExtend 32
  | 0x802 => st.rrb.zeroExtend 32
  | 0x803 => if st.femode then 1 else 0
  | 0x804 => st.vfflags.zeroExtend 32
  | 0x805 => st.vfrm.zeroExtend 32
  | 0x806 => if st.zmul then 1 else 0
  | 0x807 => st.srseed
  | 0x808 => st.ktvec
  | 0x809 => st.kepc
  | 0x80A => st.kcode.zeroExtend 32 ||| (if st.hflag then 0x40000000 else 0) ||| (if st.kdone then 0x80000000 else 0)
  | 0x80B => st.kinfo
  | 0x820 => BitVec.ofNat 32 (st.num + st.num % 4 * 0x1000 + st.num / 4 * 0x10000)
  | 0x821 => BitVec.ofNat 32 core
  | n =>
    if 0x810 ≤ n ∧ n ≤ 0x815 then lpsvWord (if st.hflag then st.saved else st.loops) (n - 0x810)
    else if h : 0x830 ≤ n ∧ n ≤ 0x835 then
      (st.bias[n - 0x830]'(by omega)) ++ (((st.loops.reverse[n - 0x830]?).map (·.index)).getD 0)
    else 0

/-- A level with the index that a write of lpsvN gives it (R103). -/
def LoopLevel.putIndex (l : LoopLevel) (v : Word) : LoopLevel :=
  let i : BitVec 16 := (v >>> 16).truncate 16
  { l with index := if l.count ≤ i then l.count - 1 else i }

/-- A strand after a write of a CSR (R4, R33 to R37, R92, R102, R103, R111, R114, R115, R165). -/
def Strand.setCsr (st : Strand) (csr : Nat) (v : Word) : Strand :=
  match csr with
  | 0x800 =>
    let f : BitVec 4 := v.truncate 4
    let w : BitVec 2 := (v >>> 4).truncate 2
    { st with
      fmt := if f = fFP32 ∨ f = fBF16 ∨ f = fFP16 ∨ f = fI32 ∨ f = fI16 then f else st.fmt
      wg := if w = 3 then st.wg else w
      cdir := v.getLsbD 6 }
  | 0x801 => { st with vbase := v.truncate 9 }
  | 0x802 => { st with rrb := v.truncate 4 }
  | 0x803 => { st with femode := v.getLsbD 0 }
  | 0x804 => { st with vfflags := v.truncate 5 }
  | 0x805 =>
    let n : BitVec 10 := v.truncate 10
    { st with vfrm := if 6 ≤ v.toNat % 8 then n &&& 0x3F8 ||| st.vfrm &&& 7 else n }
  | 0x806 => { st with zmul := v.getLsbD 0 }
  | 0x807 => { st with srseed := v, gens := [] }
  | 0x808 => { st with ktvec := v &&& 0xFFFFFFFC }
  | 0x809 => { st with kepc := v &&& 0xFFFFFFFC }
  | 0x80A => { st with kdone := v.getLsbD 31 }
  | n =>
    if 0x810 ≤ n ∧ n ≤ 0x815 then
      if st.hflag then
        { st with saved := (st.saved.reverse.modify (n - 0x810) (fun l => l.putIndex v)).reverse }
      else st
    else if h : 0x830 ≤ n ∧ n ≤ 0x835 then
      { st with bias := st.bias.set (n - 0x830) ((v >>> 16).truncate 16) (by omega) }
    else st

/-- A Zicsr word (R90): the old value to `d`, and the new value, if any, computed from the old. -/
def csrWord (s : State) (d : XReg) (csr : BitVec 12) (srcs : List XReg) (new : Strand → Word → Option Word) :
    Host.Outcome State Fault Refusal :=
  strandWord s srcs [d] (fun e =>
    let old := e.st.csr e.core csr.toNat
    let st := match new e.st old with
      | some v => e.st.setCsr csr.toNat v
      | none => e.st
    .done (st.setX d old) s)

end Sys2Proof.Machine
end

