-- ==== Sys2Proof/Machine/Fetch.lean ====
section
/-! DEFINITION. What each agent executes next (R54, R64, R71, R89, R100, R218, R280), the agents that act when no
schedule is given (log 1), and the placing of one instruction where the next step executes it (log 2). -/

namespace Sys2Proof.Machine

/-- An instruction word of a core's instruction scratchpad as a fetch gives it: the word there, or, until a `fence.i`,
one that a store of the core has replaced (R89, R280). -/
def State.fetchWord (s : State) (core off : Nat) : Word :=
  let olds := (s.core core).stale.filter (fun e => e.1 = off)
  let now := BitVec.ofNat 32 (s.mem.num (ispLoc core off) 4)
  if olds.isEmpty then now
  else ((olds[(Config.freeWord s.tick 0).toNat % (olds.length + 1)]?).map (·.2)).getD now

/-- A strand's next word: the one in which it waits, which runs as fetched (R280), or the word at its pc. -/
def State.fetchStrand (s : State) (core : Nat) (st : Strand) : Instr :=
  match st.wait, st.held with
  | some _, some i => i
  | _, _ =>
    let pc := st.pc.toNat
    if 0x800000 ≤ pc ∧ pc < 0x840000 then
      let w := s.fetchWord core (pc - 0x800000)
      (decodeStrand w).getD (.illegalInstruction w)
    else .fetchAddressTrap st.pc

/-- The move word at an offset of a die's move-program memory. -/
def State.moveWordAt (s : State) (die off : Nat) : DWord := BitVec.ofNat 64 (s.mem.num (moveLoc die + off) 8)

/-- An engine's next word (R71). -/
def State.fetchMove (s : State) (e : Nat) (r : Run) : Instr :=
  if r.pc.toNat % 8 = 0 ∧ r.pc.toNat + 8 ≤ 2 ^ 20 then
    (decodeMove (s.moveWordAt (engDie e) r.pc.toNat)).getD .illegalMoveWord
  else .illegalMoveWord

/-- A walker's next word (R218): a fetch out of range or an illegal word, then the limit of words executed. -/
def State.fetchWalker (s : State) (r : WalkRun) (b : DWord) : Instr :=
  if r.wpc < 0 ∨ (par b 23 9 : Int) < r.wpc then .walkerIllegalWord
  else
    match decodeWalker (BitVec.ofNat 32 (s.mem.num (dspLoc r.core (par b 0 23 + 4 * r.wpc.toNat)) 4)) with
    | none => .walkerIllegalWord
    | some i => if 2 ^ 24 ≤ r.steps then .walkerStepLimit else i

/-- A word that waits its turn in one of a core's two engine queues: `xfer` in the transfer queue, `tstore` in the other
(R161). -/
def queuedWord : Instr → Option Bool
  | .tstore .. => some false
  | .xfer .. => some true
  | _ => none

/-- A data word, whose executions issue move commands (R222). -/
def issuesMove : Instr → Bool
  | .mvCopy _ | .mvGath _ | .mvScat _ | .mvTpose _ | .mvCvt _ | .mvRed _ | .mvMcast _ | .mvAtom .. | .mvWin _ | .mvZip _
  | .mvUnzip _ | .mvCsum _ | .mvCsumSrc _ | .mvNvm .. => true
  | _ => false

/-- What a fetch makes of a word or address that is none; it comes from a fetch alone. -/
def misfetch : Instr → Bool
  | .illegalInstruction _ | .fetchAddressTrap _ | .illegalMoveWord | .walkerIllegalWord | .walkerStepLimit => true
  | _ => false

/-- The instruction that an agent executes next, if it has one. -/
def State.fetch (s : State) (a : Agent) : Option Instr :=
  match a with
  | .none => none
  | .strand c sl =>
    ({ s with cur := .strand c sl } : State).env.map (fun e => s.fetchStrand c e.st)
  | .engine e => (s.eng e).run.bind (fun r => if r.ended then none else some (s.fetchMove e r))
  | .walker id =>
    (s.walkers.get? id).bind (fun r => ((s.core r.core).sheaf r.seq).bind (fun h =>
      match tileInstr h.word, h.subs.head? with
      | .twalk _ _ b _, some (.disp _) => some (s.fetchWalker r b)
      | _, _ => none))
  | .tile c q u =>
    ((s.core c).sheaf q).bind (fun h =>
      if u < h.subs.length then (decodeTile h.word).filter (fun i => (queuedWord i).isNone) else none)
  | .queue c x =>
    (if x then (s.core c).xq.head? else (s.core c).tq.head?).bind (fun q =>
      (decodeTile q.word).filter (fun i => queuedWord i == some x))
  | .box e n _ _ => ((s.eng e).cmds.find? (fun c => c.num = n)).bind (fun c => if issuesMove c.op then some c.op else none)
  | .event i => if i.kind = .event ∧ misfetch i = false then some i else none
  | .waiting i => if i ∈ s.requests ∧ i.kind = .event ∧ misfetch i = false then some i else none

/-- The fetch of the word that a strand is about to issue (R296): `true` if it meets an uncorrectable error, which fails the
kernel or rolls it back in place of the word. -/
def State.fetchCheck (s : State) : State × Bool :=
  match s.cur, s.env with
  | .strand c _, some e =>
    if e.st.wait = none ∧ 0x800000 ≤ e.st.pc.toNat ∧ e.st.pc.toNat < 0x840000 then
      match s.readCheck (some e.kn.ctx) (ispLoc c (e.st.pc.toNat - 0x800000)) 4 with
      | (s, none) => (s, false)
      | (s, some l) => (s.memError e.kn.lid l, true)
    else (s, false)
  | _, _ => (s, false)

/-! ## The default schedule (log 1) -/

/-- The slots of a core in the order of the search for the next word: from the slot after the one that issued last (R84). -/
def Core.turns (k : Core) : List Nat := (List.range 4).map (fun i => (k.last + 1 + i) % 4)

/-- A strand whose next word has still to issue and is able to, its source registers full and the vector engine free;
`none` for one that is not able to, `false` for one that waits in a word that has issued (R84). -/
def Env.fresh (e : Env) (s : State) : Option Bool :=
  match e.st.wait with
  | none => some true
  | some (.full r) => if e.st.isEmpty r then none else some true
  | some .engine => if s.vectorBusy e then none else some true
  | some _ => some false

/-- The strands of a core that may act: the first in the round robin whose next word has still to issue, and those whose
words wait and execute again, which uses no issue slot (R84). -/
def State.coreStrands (s : State) (c : Nat) : List Agent :=
  let able := (s.core c).turns.filterMap (fun sl =>
    (({ s with cur := .strand c sl } : State).env).bind (fun e => (e.fresh s).map (fun b => (sl, b))))
  ((able.find? (·.2)).toList ++ able.filter (fun p => !p.2)).map (fun p => Agent.strand c p.1)

/-- Agents of a core: strands that may act, pending results, dispatched sub-tiles, engine queues. -/
def State.coreAgents (s : State) (c : Nat) : List Agent :=
  let k := s.core c
  let strands := s.coreStrands c
  let tm := match k.active with | some tk => tk | none => 0
  let arrivals := (List.range 4).flatMap (fun sl =>
    let key := strandKey (tm / 512) (tm % 512 * 4 + sl)
    match k.active, s.strands.get? key with
    | some _, some st =>
      (st.pend.map (·.1)).eraseDups.map (fun r => Agent.event (.asyncResultArrive key r)) ++
        (match st.wait with | some (.steal ..) => [.event (.rangeSteal key)] | _ => [])
    | _, _ => [])
  let tiles := k.stook.flatMap (fun h =>
    (List.range h.subs.length).filterMap (fun u =>
      if h.dispAt u || (u = 0 && h.settled) then some (.tile c h.seq u) else none))
  strands ++ arrivals ++ tiles ++ (if k.tq.isEmpty then [] else [.queue c false]) ++
    (if k.xq.isEmpty then [] else [.queue c true]) ++ (if k.switch then [.event (.teamSwitchComplete c)] else []) ++
    (match k.loft with | .spilling => [.event (.spillComplete c)] | _ => [])

/-- Agents of an engine: its run and the commands in flight. -/
def engineAgents (id : Nat) (e : Engine) : List Agent :=
  (match e.run with | some r => if r.ended then [.event (.moveRunRetire id)] else [.engine id] | none => []) ++
    e.cmds.flatMap (fun c =>
      match c.st with
      | .issued => [.event (.moveCommandStart id c.num)]
      | .active => (c.slots.map (fun b => Agent.box id c.num b.box 1)) ++
          (((List.range 64).find? (fun b => !c.bmp.getLsbD b && !c.slots.any (fun x => x.box = b))).toList.map
            (fun b => Agent.box id c.num b 1)) ++ [.event (.windrowRowArrival id c.num),
          .event (.moveUncorrectableError id c.num), .event (.moveCommandRetire id c.num)]
      | _ => [])

/-- Agents of a transfer die. -/
def dieAgents (d : Nat × Die) : List Agent :=
  d.2.engines.flatMap (fun e => engineAgents e.1 e.2) ++
    d.2.posts.map (fun f => .event (.faultEventQueue f.eng f.num)) ++
    (List.range d.2.walks.length).map (fun i => .event (.pageWalkComplete d.1 i))

/-- Steps of the queues and kernels. -/
def State.kernelAgents (s : State) : List Agent :=
  s.queues.flatMap (fun q => match q.2.st with
    | .active => [.event (.launchRecordFetch (BitVec.ofNat 12 q.1)), .event (.recordAdmission (BitVec.ofNat 12 q.1))]
    | _ => []) ++
  s.kernels.filterMap (fun k => match k.2.st with
    | .admitted => some (.event (.kernelLoadComplete k.1))
    | .rolling => some (.event (.rollbackComplete k.1))
    | _ => none) ++
  s.teams.flatMap (fun t => match t.2.place with
    | .active _ | .spent _ | .held _ => []
    | _ => (((s.kernels.get? t.2.lid).map (·.cores)).getD []).map (fun c => .event (.teamPlace t.1 c))) ++
  s.recs.filterMap (fun r => match r.2.st with
    | .ready => none
    | _ => some (.event (.completionRecordWrite r.1))) ++
  s.ctxs.filterMap (fun c => if c.2.waiting.isEmpty && s.dies.all (fun d => d.2.faults.all (fun f => f.ctx ≠ c.1)) then none else some (.event (.eventRingPost (BitVec.ofNat 6 c.1))))

/-- Every agent that may have something to do. -/
def State.agents (s : State) : List Agent :=
  s.cores.flatMap (fun c => s.coreAgents c.1) ++ s.walkers.map (fun w => .walker w.1) ++
    s.dies.flatMap dieAgents ++ s.kernelAgents ++ s.requests.map Agent.waiting

/-- Who acts: the head of the agenda, or, with an empty agenda, the agents in turn. -/
def State.nextAgent (s : State) : Agent :=
  match s.agenda with
  | a :: _ => a
  | [] =>
    let xs := s.agents
    (xs[s.tick % xs.length]?).getD .none

/-- The state in which an agent acts. -/
def State.acting (s : State) (a : Agent) : State := { s with cur := a, tick := s.tick + 1, agenda := s.agenda.tail }

/-! ## Placing one instruction -/

/-- A kernel descriptor for one instruction: one strand, all semaphores, the whole scratchpad, text writable. -/
def probeDesc : KDesc where
  nsm := 0
  lp := false
  tw := true
  slo := 0
  shi := 255
  sv := true
  eoff := 0
  tva := 0
  tsz := 0
  dsz := 0
  dva := 0
  mva := 0
  moff := 0
  msz := 0
  abase := 0
  acnt := 0
  regions := [(0, 0x800000, 1)]

/-- A running kernel for one instruction. -/
def probeKernel : Kernel where
  lid := 1
  recId := 0
  ctx := 0
  member := 0
  desc := probeDesc
  arg := 0
  st := .running
  fl := Faults.none
  rbOn := false
  rb := false
  rbt := false
  rbl := false
  logSeq := 0
  log := []
  groups := []
  bars := []
  fired := false
  producers := []
  cores := [0]
  used := [0]

/-- A state in which strand slot 0 of core 0 may issue: this state if it is such, or one with a kernel of one strand. -/
def State.withStrand (s : State) : State :=
  match ({ s with cur := .strand 0 0 } : State).env with
  | some _ => s
  | none =>
    { s with
      kernels := s.kernels.set 1 probeKernel
      teams := s.teams.set (teamKey 1 0) { Team.start 1 0 probeDesc.regions with place := .active 0, started := true }
      strands := s.strands.set (strandKey 1 0) (Strand.start 1 0 0x800000 0)
      cores := s.cores.set 0 { s.core 0 with active := some (teamKey 1 0), stale := [], switch := false } }

/-- The offset in core 0's instruction scratchpad of the next word of slot 0. -/
def State.probePc (s : State) : Nat :=
  match ({ s with cur := .strand 0 0 } : State).env with
  | some e => (e.st.pc.toNat - 0x800000) % 0x40000
  | none => 0

/-- A strand word as the next word of slot 0 of core 0. -/
def State.withStrandWord (s : State) (w : Nat) : State :=
  let s := s.withStrand
  let o := s.probePc
  let s := s.updStrand (match (s.core 0).active with | some tk => strandKey (tk / 512) (tk % 512 * 4) | none => 0)
    (fun st => { st with pc := BitVec.ofNat 32 (0x800000 + o), held := none })
  let s := s.updCore 0 (fun k => { k with stale := k.stale.filter (fun e => e.1 ≠ o) })
  { s.setMem (s.mem.setNum (ispLoc 0 o) 4 w) with agenda := .strand 0 0 :: s.agenda }

/-- A dispatched sheaf of one word on core 0. -/
def probeSheaf (q : Nat) (tk : Nat) (w : TileWord) : Sheaf where
  seq := q
  lid := tk / 512
  team := tk
  bank := 0
  word := w
  cmdNo := 0
  pc := 0x800000
  sid := 0
  vfrm := 0
  zmul := false
  mapA := none
  nest := [0, 0, 0, 0, 0, 0]
  wfmt := fBF16
  subs := (List.range (let g := tileGrid (tileInstr w); g.ni * g.nj)).map (fun _ => .disp waitDemander)
  wait := .served
  faulted := false
  dying := false
  block := none
  begun := false
  due := none
  since := none

/-- The team of core 0 after `withStrand`. -/
def State.probeTeam (s : State) : Nat := ((s.core 0).active).getD 0

/-- A tile command word as dispatched work, or at the head of its engine queue (R161). -/
def State.withTileWord (s : State) (w : Nat) : State :=
  let s := s.withStrand
  let tk := s.probeTeam
  let q := (s.core 0).nextSeq
  let word := BitVec.ofNat 256 w
  let one : Queued := { seq := q, lid := tk / 512, team := tk, word := word, cmdNo := 0, pc := 0x800000, sid := 0
                        mapA := none, wait := .served, far := [] }
  match tileInstr word with
  | .tstore .. =>
    { s.updCore 0 (fun k => { k with tq := one :: k.tq, nextSeq := q + 1 }) with agenda := .queue 0 false :: s.agenda }
  | .xfer .. =>
    { s.updCore 0 (fun k => { k with xq := one :: k.xq, nextSeq := q + 1 }) with agenda := .queue 0 true :: s.agenda }
  | _ =>
    { s.updCore 0 (fun k => { k with stook := k.stook ++ [probeSheaf q tk word], nextSeq := q + 1 }) with
      agenda := .tile 0 q 0 :: s.agenda }

/-- A `twalk` word whose program lies at address 0: A is 1 x 64 bytes at 0x1000, D 1 x 64 INT32 at 0x2000. -/
def probeTwalk : TileWord :=
  let a : DWord := 0x1000 + (0xD <<< 32) + (0x3F <<< 48)
  let d : DWord := 0x2000 + (0xB <<< 32) + (0x3F <<< 48)
  d ++ (0 : DWord) ++ a ++ (0x220 : DWord)

/-- A walker word as the only word of a `twalk` that walker 0 runs for core 0. -/
def State.withWalkerWord (s : State) (w : Nat) : State :=
  let s := s.withStrand
  let tk := s.probeTeam
  let q := (s.core 0).nextSeq
  let run : WalkRun := { core := 0, seq := q, k := (Vector.replicate 16 (0 : Word)).set 2 1 |>.set 3 64
                         wpc := 0, er := 0, buf := [], steps := 0 }
  let s := s.updCore 0 (fun k => { k with stook := k.stook ++ [{ probeSheaf q tk probeTwalk with begun := true }], nextSeq := q + 1 })
  { (s.setMem (s.mem.setNum (dspLoc 0 0) 4 w)) with walkers := s.walkers.set 0 run, agenda := .walker 0 :: s.agenda }

/-- The header of a run that no tile word gave. -/
def noHdr : TileHdr where
  waitSem := 0
  waitEn := false
  sigSem := 0
  sigEn := false
  scope := 0
  waitAmt := 0
  sigAmt := 0
  chain := 0

/-- A move word as the next word of engine 0. -/
def State.withMoveWord (s : State) (w : Nat) : State :=
  let s := s.withStrand
  let r : Run :=
    { lid := s.probeTeam / 512, core := 0, team := s.probeTeam, hdr := noHdr, a := Vector.replicate 16 0, n := Vector.replicate 6 0
      pc := 0, from_ := 0, ended := false, status := 0, semW := .notQueued, atomW := none, last := none, stuck := none }
  let s := s.updEng 0 (fun e => { e with run := some r })
  { (s.setMem (s.mem.setNum (moveLoc 0) 8 w)) with agenda := .engine 0 :: s.agenda }

end Sys2Proof.Machine
end

