-- ==== Sys2Proof/Machine/Life.lean ====
section
/-! DEFINITION. The life of a kernel while it runs: its groups (R351 to R358) and barriers (R359 to R366), its trigger
(R345), and its passage from PROLOGUE to RETIRED (R333). -/

namespace Sys2Proof.Machine

/-! ## Groups and barriers -/

/-- The members of a group in join order (R352). -/
def Kernel.members (k : Kernel) (g : Nat) : List Nat := (k.groups.get? g).getD []

/-- A kernel with the members of a group; an empty group is EMPTY (R353). -/
def Kernel.setMembers (k : Kernel) (g : Nat) (ms : List Nat) : Kernel :=
  { k with groups := if ms.isEmpty then k.groups.erase g else k.groups.set g ms }

/-- The groups other than 0 that a strand belongs to. -/
def Kernel.memberships (k : Kernel) (num : Nat) : Nat :=
  k.groups.countP (fun e => decide (e.1 ≠ 0) && e.2.contains num)

/-- Group 0 at the start of a kernel: every strand, in ascending number (R351). -/
def Kernel.formGroup0 (k : Kernel) : Kernel := { k with groups := [(0, List.range (k.desc.nsm + 1))], bars := [] }

/-- A phase's result from its contributions (R361). -/
def combine (op : Nat) (cs : List Word) : Word :=
  match op with
  | 1 => cs.foldl (· &&& ·) 0xFFFFFFFF
  | 2 => cs.foldl (· ||| ·) 0
  | 3 => cs.foldl (· + ·) 0
  | 4 => BitVec.ofNat 32 (cs.countP (fun c => c != 0))
  | _ => 0

/-- The fields of a binding word (R360). -/
def Bar.grp (b : Bar) : Nat := b.word.toNat % 256
def Bar.op (b : Bar) : Nat := b.word.toNat / 256 % 8
def Bar.timeout (b : Bar) : Nat := b.word.toNat / 4096 % 16

/-- A binding word within the limits of R360. -/
def barWordOk (w : Word) : Bool := decide (w.toNat / 256 % 8 ≤ 4) && !w.getLsbD 11 && decide (w.toNat / 65536 = 0)

/-- PHASE_COMPLETE (R362): the phase completes once every current member has arrived in it. -/
def Bar.settle (b : Bar) (ms : List Nat) : Bar :=
  if !b.broken && !b.arr.isEmpty && ms.all (fun m => b.arr.any (fun a => a.1 = m)) then
    { b with results := b.results.set b.k (combine b.op (b.arr.map (·.2))), k := b.k + 1, arr := [] }
  else b

/-- The barriers bound to a group, after a change to the group or an arrival. -/
def Kernel.settleBars (k : Kernel) (g : Nat) : Kernel :=
  { k with bars := k.bars.map (fun e => (e.1, if e.2.grp = g then e.2.settle (k.members g) else e.2)) }

/-- A strand leaves a group (R353). -/
def Kernel.leave (k : Kernel) (g num : Nat) : Kernel :=
  if (k.members g).contains num then (k.setMembers g ((k.members g).filter (· ≠ num))).settleBars g else k

/-- A strand leaves every group it belongs to, in ascending group number (R358). -/
def Kernel.leaveAll (k : Kernel) (num : Nat) : Kernel := (k.groups.map (·.1)).foldl (fun k g => k.leave g num) k

/-! ## From PROLOGUE to RETIRED (R333, R345) -/

/-- Number of teams of a kernel (R334). -/
def KDesc.teams (d : KDesc) : Nat := (d.nsm + 4) / 4

/-- The strands of a kernel that exist. -/
def State.strandOf (s : State) (lid num : Nat) : Option Strand := s.strands.get? (strandKey lid num)

/-- Every strand of a kernel has triggered or ended (R345). -/
def State.allTriggered (s : State) (lid : Nat) (k : Kernel) : Bool :=
  (List.range (k.desc.nsm + 1)).all (fun n =>
    match s.strandOf lid n with
    | some st => st.trig || decide (st.st = .ended)
    | none => false)

/-- A producer's trigger has fired; one that has completed, or that no kernel stands for, counts as triggered (R345). -/
def State.producerFired (s : State) (r : Nat) : Bool :=
  match s.recs.get? r with
  | none => true
  | some rc => rc.lids.all (fun l => ((s.kernels.get? l).map (·.fired)).getD true)

/-- Every producer of a kernel has triggered. -/
def State.producersFired (s : State) (k : Kernel) : Bool := k.producers.all s.producerFired

/-- A team that must start before its kernel can drain: every team but an unstarted one of a pipeline (log 21). -/
def State.mustStart (s : State) (k : Kernel) (t : Team) : Bool :=
  t.started || (match s.recs.get? k.recId with | some r => decide (r.form ≠ 3) | none => true)

/-- Every strand of every team that must start has ended. -/
def State.allEnded (s : State) (lid : Nat) (k : Kernel) : Bool :=
  s.teams.all (fun t => t.2.lid ≠ lid || !s.mustStart k t.2 ||
    (t.2.started && (List.range 4).all (fun i =>
      decide (k.desc.nsm < t.2.num * 4 + i) ||
      (match s.strandOf lid (t.2.num * 4 + i) with
        | some st => decide (st.st = .ended)
        | none => true))))

/-- No run, no unretired command and no queued `xfer` of a kernel is left (R260, log 21). -/
def State.quiet (s : State) (lid : Nat) : Bool :=
  s.dies.all (fun d => d.2.engines.all (fun e =>
    (match e.2.run with | some r => decide (r.lid ≠ lid) | none => true) &&
    e.2.cmds.all (fun c => c.lid ≠ lid || c.st.gone))) &&
  s.cores.all (fun c => c.2.xq.all (fun q => decide (q.lid ≠ lid)))

/-- The windrows that a kernel's `mv.win` commands serve are disabled (R240). -/
def State.endWindrows (s : State) (lid : Nat) : State :=
  { s with cores := s.cores.map (fun c => (c.1, { c.2 with windrows := c.2.windrows.map (fun w =>
      match w.served with
      | some (e, n) => if (s.eng e).cmds.any (fun d => d.num = n && d.lid = lid) then { w with en := false } else w
      | none => w) })) }

/-- A kernel retires (R333): its trigger has fired, what is left of its work is discarded, its semaphores go FREE, its
write-log entries are freed (R264). -/
def State.retireKernel (s : State) (lid : Nat) : State :=
  { s with kernels := s.kernels.modify lid (fun k => { k with st := .retired, fired := true, log := [] }) }.endWork lid

/-- One kernel brought up to date with R333 and R345. -/
def State.settleKernel (s : State) (lid : Nat) : State :=
  match s.kernels.get? lid with
  | none => s
  | some k =>
    let k := if k.st.live && !k.fired && !k.rbOn && s.allTriggered lid k then { k with fired := true } else k
    let k := if (k.st = .prologue ∨ k.st = .waiting) ∧ s.producersFired k then { k with st := .running } else k
    let s := s.setKernel lid k
    let s :=
      if k.st = .running ∧ s.allEnded lid k then (s.setKernel lid { k with st := .draining }).endWindrows lid else s
    if (((s.kernels.get? lid).map (·.st)) = some .draining) ∧ s.quiet lid then s.retireKernel lid else s

/-- Every kernel brought up to date, `n` times over, so that a trigger reaches those that wait for it. -/
def settleTimes : Nat → State → State
  | 0, s => s
  | n + 1, s => settleTimes n ((s.kernels.map (·.1)).foldl State.settleKernel s)

/-- Every kernel brought up to date. -/
def State.settleKernels (s : State) : State := settleTimes (s.kernels.length + 1) s

/-- A strand is BLOCKED in `dep.wait`. -/
def Strand.inDepWait (st : Strand) : Bool :=
  decide (st.st = .blocked) && (match st.held with | some .depWait => true | _ => false)

/-- A PROLOGUE kernel goes to WAITING when every live strand is BLOCKED in `dep.wait` (R333). -/
def State.settleWaiting (s : State) (lid : Nat) : State :=
  match s.kernels.get? lid with
  | none => s
  | some k =>
    if k.st = .prologue ∧ s.strands.any (fun e => decide (e.2.lid = lid ∧ e.2.st ≠ .ended)) ∧
        s.strands.all (fun e => e.2.lid ≠ lid || decide (e.2.st = .ended) || e.2.inDepWait) then
      s.setKernel lid { k with st := .waiting }
    else s

/-- A team whose park is requested is parked once every live strand of it has reached a `yield`, and leaves its core (R344): at
once if the loft bank is EMPTY, and otherwise by a switch that Reeve requests with what the bank holds in mind (R337). -/
def State.settlePark (s : State) (tk c : Nat) : State :=
  match s.teams.get? tk with
  | none => s
  | some t =>
    if t.park.isSome && !s.teamEnded tk && (List.range 4).all (fun i =>
        match s.strandOf t.lid (t.num * 4 + i) with
        | some st => (decide (st.st = .stopped) && st.yielded) || decide (st.st = .ended)
        | none => true) then
      (s.updTeam tk (fun t => { t with parked := true })).updCore c (fun k =>
        if k.switch || k.held.isSome then k else { k with switch := true, due := false })
    else s

/-! ## The span of a group (R354) -/

/-- A domain of R267 that a group may span. -/
inductive Domain where
  | core
  | cluster
  | die
  | device
  deriving DecidableEq, Repr

/-- The narrowest domain that contains some cores; no core gives no span. -/
def spanOfCores : List Nat → Option Domain
  | [] => none
  | c :: cs =>
    some (if cs.all (fun d => decide (d = c)) then .core
      else if cs.all (fun d => decide (d / 8 = c / 8)) then .cluster
      else if cs.all (fun d => decide (d / 64 = c / 64)) then .die
      else .device)

/-- The cores on which a team counts for a span: the one that holds it or last held it, or, for one that has never been given a
core, every core of the kernel (R343, R354). -/
def State.groupCores (s : State) (k : Kernel) (tk : Nat) : List Nat :=
  match s.teams.get? tk with
  | none => k.cores
  | some t =>
    match t.place, t.lastCore with
    | .active c, _ | .spent c, _ | .held c, _ => [c]
    | _, some c => [c]
    | _, none => k.cores

/-- The span of group `g` of a kernel (R354), the domain at which a phase of its barriers synchronises (R366); it follows the
membership and the places of the members' teams. -/
def State.groupSpan (s : State) (lid g : Nat) : Option Domain :=
  (s.kernels.get? lid).bind (fun k =>
    spanOfCores ((k.members g).flatMap (fun n => s.groupCores k (teamKey lid (n / 4)))))

end Sys2Proof.Machine
end

