-- ==== Sys2Proof/Machine/Granary.lean ====
section
/-! DEFINITION. The granary words (R202 to R213). -/

namespace Sys2Proof.Machine

/-- Misuse (R208): the `gr` word raises cause 16 with the granary engine's status, and the kernel fails with fk = 2;
inside the handler it is a double trap. -/
def granaryStatus (e : Env) (s : State) (code detail kind : Nat) : WordEnd :=
  let st := BitVec.ofNat 32 (code + detail * 256)
  let s := s.updCnt e.core (fun c => { c with shfault := c.shfault + 1 })
  if e.st.hflag then .trap 16 false st e.st s
  else
    .ended (s.fail e.tm.lid { Faults.none with
      fk := 2, cause := 16, sid := e.st.num, info := st, pc := e.st.pc
      tile := some { dpc := e.st.pc, apc := e.st.pc, cmd := e.tm.cmdNo, status := st, engine := 4, kind := kind
                     asid := e.st.num, tag := 0, tv := false, dsid := e.st.num, agent := 0, subt := 0 } })

/-- A `gr` word completes and takes the team's next command number (R206). -/
def granaryDone (e : Env) (s : State) : WordEnd := .done e.st (s.updTeam e.tk (fun t => { t with cmdNo := t.cmdNo + 1 }))

/-- Whether an entry belongs to a context and has a key. -/
def GEntry.is (g : GEntry) (ctx : Nat) (key : Word) : Bool := decide (g.ctx = ctx) && g.key == key

/-- Removes the VALID, unpinned entry of a context that was used longest ago (R211). -/
def evictOne (gs : List GEntry) (ctx : Nat) : Option (List GEntry) :=
  let old := (gs.filter (fun g => decide (g.ctx = ctx) && decide (g.st = .valid) && g.pins.isEmpty)).foldl
    (fun (b : Option GEntry) g => match b with
      | none => some g
      | some c => if g.used < c.used then some g else some c) none
  old.map (fun g => gs.filter (fun h => !(h.is ctx g.key)))

/-- Evicts until `size` more bytes and `n` more entries fit in the quota `q` (R202, R211): the entries left, how many
were evicted, and whether there is space. -/
def findSpace (ctx q size n : Nat) : Nat → List GEntry → Nat → List GEntry × Nat × Bool
  | 0, gs, k => (gs, k, false)
  | fuel + 1, gs, k =>
    let own := gs.filter (fun g => g.ctx = ctx)
    if (own.map GEntry.size).sum + size ≤ q * 65536 ∧ own.length + n ≤ 8 * q then (gs, k, true)
    else
      match evictOne gs ctx with
      | none => (gs, k, false)
      | some gs => findSpace ctx q size n fuel gs (k + 1)

/-- The granary quota of a context (R202). -/
def State.quota (s : State) (ctx : Nat) : Nat := ((s.ctxs.get? ctx).map (·.q)).getD 0

/-- The greatest of a list of exact values, none of which is a NaN. -/
def maxOf (xs : List Num) : Num := xs.foldl (fun a x => if a.lt x then x else a) (.fin false 0 0)

/-- `match` of R209. -/
def granaryMatch (fmt : BitVec 4) (rel : Bool) (thr : Word) (new stored : List Byte) : Bool :=
  let n := stored.length * 8 / elemW fmt
  let xs := (unpackE (elemW fmt) n new).map (decodeE fmt)
  let ys := (unpackE (elemW fmt) n stored).map (decodeE fmt)
  if xs.any Num.isNaN || ys.any Num.isNaN then false
  else
    let ds := (xs.zip ys).map (fun p => if p.1.eqv p.2 then .fin false 0 0 else (addN .rne p.1 p.2.negate).1.abs)
    let a := maxOf (ys.map Num.abs)
    let t := decodeE fFP32 thr.toNat
    let bound := if rel then (if t.isZero || a.isZero then .fin false 0 0 else (mulN t a).1) else t
    !(bound.lt (maxOf ds))

/-- The region that rgN names, if it is enabled. -/
def Team.region (t : Team) (n : BitVec 4) : Option Region :=
  let r := t.regions[n.toNat]'n.isLt
  if r.mode = 0 then none else some r

/-- The bytes of a region of the core's scratchpad. -/
def Region.span (r : Region) (core : Nat) : Span := (dspLoc core r.base.toNat, dspLoc core (r.base.toNat + r.size.toNat))

/-- The state of the block of a slot set (R205). -/
def State.setBlock (s : State) (e : Env) (b : Option (BlockSt × Word)) : State :=
  s.updTeam e.tk (fun t => { t with blocks := match b with
    | some v => t.blocks.set e.slot v
    | none => t.blocks.erase e.slot })

/-- The runs of the granary store that hold an entry's input and its output (R202, R295). -/
def GEntry.inputRuns (g : GEntry) (core : Nat) : List Span := g.place.map (fun x => (granLoc core x.1, granLoc core x.2))
def GEntry.outputRuns (g : GEntry) (core : Nat) : List Span := g.outPlace.map (fun x => (granLoc core x.1, granLoc core x.2))

/-- What some runs leave free of others. -/
def freeRuns (gaps taken : List Span) : List Span :=
  taken.foldl (fun gs x => gs.flatMap (fun g =>
    if g.meets x then [(g.1, min g.2 x.1), (max g.1 x.2, g.2)].filter (fun r => decide (r.1 < r.2)) else [g])) gaps

/-- The first `n` bytes of some runs. -/
def takeRuns (n : Nat) : List Span → List Span
  | [] => []
  | g :: gs => if n = 0 then [] else (g.1, g.1 + min n (g.2 - g.1)) :: takeRuns (n - (g.2 - g.1)) gs

/-- Where `n` more bytes lie in a store of 2 MiB beside its entries (R202): in what these leave free, from an offset of the
device's choice on and then from the start (DESIGN CHOICE, log 38: the spec places no entry). -/
def storePlace (tick : Nat) (gs : List GEntry) (n : Nat) : List Span :=
  let gaps := freeRuns [(0, 2 ^ 21)] (gs.flatMap (fun g => g.place ++ g.outPlace))
  let o := (Config.freeWord tick 0x202).toNat % 2 ^ 15 * 64
  takeRuns n (freeRuns gaps [(0, o)] ++ freeRuns gaps [(o, 2 ^ 21)])

/-- An entry that a strand's open block refers to (R204). -/
def GEntry.pinnedBy (g : GEntry) (ctx : Nat) (key : Word) (strand : Nat) : Bool := g.is ctx key && g.pins.contains strand

/-- A stored input that a lookup compares with the bytes `n` of a new one in a format (R209). -/
def GEntry.comparable (g : GEntry) (fmt : BitVec 4) (n : Nat) : Bool :=
  decide (g.st = .valid) && decide (g.input.length = n) && g.fmt == fmt

/-- GR_BEGIN after its demand: the lookup of R209 over the input bytes `new`. DESIGN CHOICE (log 38), which R211 leaves
open: an old VALID entry of the key makes room for its replacement before space is sought, and counts as evicted only if
none is found; and an entry counts as used at its capture's `gr.begin`, and again at its `gr.end`. -/
def granaryBegin (e : Env) (s : State) (key : Word) (new : List Byte) : State :=
  let ctx := e.kn.ctx
  let k := s.core e.core
  let entry := k.gran.find? (fun g => g.is ctx key)
  let fits : Bool := match entry with
    | some g => g.comparable e.tm.gfmt new.length && granaryMatch g.fmt e.tm.grel e.tm.gthr new g.input
    | none => false
  let rc := (entry.map (·.rc)).getD 0
  if fits && decide (rc < e.tm.glim.toNat) then
    let s := s.updCore e.core (fun k => { k with
      gclock := k.gclock + 1
      gran := k.gran.map (fun g => if g.is ctx key then { g with pins := g.pins ++ [e.key], used := k.gclock + 1 } else g) })
    s.setBlock e (some (.replay, key))
  else
    let s := s.updCnt e.core (fun c =>
      if fits then { c with gstale := c.gstale + 1 } else { c with gmiss := c.gmiss + 1 })
    let busy : Bool := match entry with
      | some g => decide (g.st = .filling) || !g.pins.isEmpty
      | none => false
    if busy then s.setBlock e (some (.run, key))
    else
      let rest := k.gran.filter (fun g => !(g.is ctx key))
      let (gs, n, ok) := findSpace ctx (s.quota ctx) new.length 1 257 rest 0
      let n := if ok || entry.isNone then n else n + 1
      let s := s.updCnt e.core (fun c => { c with gevict := c.gevict + BitVec.ofNat 32 n })
      if ok then
        let g : GEntry := { ctx := ctx, key := key, st := .filling, fmt := e.tm.gfmt, input := new, output := []
                            place := storePlace s.tick (gs ++ k.gran.filter (fun h => h.ctx ≠ ctx)) new.length, outPlace := []
                            rc := 0, step := 0, pins := [e.key], inval := false, used := k.gclock + 1 }
        ((s.writeRuns (g.inputRuns e.core)).updCore e.core (fun k =>
          { k with gran := gs ++ [g], gclock := k.gclock + 1 })).setBlock e (some (.capture, key))
      else (s.updCore e.core (fun k => { k with gran := gs })).setBlock e (some (.run, key))

/-- GR_BEGIN (R209). Of the words of two strands that wait on their demands, whichever executes again first acts first
(DESIGN CHOICE, log 38: R209's order of R191 does not place them). -/
def execGrBegin (rg : BitVec 4) (x : XReg) (s : State) : Host.Outcome State Fault Refusal :=
  strandWord s [x] [] (fun e =>
    let key := e.st.getX x
    if (e.tm.blocks.get? e.slot).isSome then granaryStatus e s 0x60 0 4
    else if key.toNat / 2 ^ 30 ≠ 0 then granaryStatus e s 0x61 0 4
    else
      match e.tm.region rg with
      | none => granaryStatus e s 0x62 rg.toNat 4
      | some r =>
        let (s, w) := s.reach e.core e.mark (e.demander 4) [r.span e.core] []
        if w then .block (.poll e.mark) s
        else
          let stored := ((s.core e.core).gran.find? (fun g =>
            g.is e.kn.ctx key && g.comparable e.tm.gfmt r.size.toNat)).toList.flatMap (fun g => g.inputRuns e.core)
          match s.checkSpans e.kn.ctx (r.span e.core :: stored) with
          | (s, some p) => .ended (s.memError e.tm.lid p)
          | (s, none) => granaryDone e (granaryBegin e s key (s.mem.read (r.span e.core).1 r.size.toNat)))

/-- The sheaves of a replayed block that are still PENDING or PARTIAL are discarded (R186, R210). -/
def discardBlock (k : Core) (num tk : Nat) : Core :=
  let hit (h : Sheaf) : Bool := h.block == some num && decide (h.team = tk) && h.subs.any SubSt.isOpen && !h.dying
  let n := k.stook.countP hit
  let stook := k.stook.map (fun h => if hit h then
    { h with dying := true, subs := h.subs.map (fun u => if u.isOpen then .dropped else u) } else h)
  { k with
    stook := stook.filter (fun h => !(h.dying && h.settled))
    cnt := { k.cnt with shdisc := k.cnt.shdisc + BitVec.ofNat 32 n } }

/-- The sheaves of a replayed block that its `gr.end` discards. -/
def blockOpen (k : Core) (num tk : Nat) : List Nat :=
  (k.stook.filter (fun h => h.block == some num && decide (h.team = tk) && h.subs.any SubSt.isOpen && !h.dying)).map (·.seq)

/-- Sheaves set aside, so that no force reaches them, or brought back. -/
def Core.aside (k : Core) (ids : List Nat) (b : Bool) : Core :=
  { k with stook := k.stook.map (fun h => if ids.contains h.seq then { h with dying := b } else h) }

/-- A pin of a strand released; an entry reached by `gr.inval` while pinned goes EMPTY with its last pin (R204). -/
def unpin (gs : List GEntry) (ctx : Nat) (key : Word) (strand : Nat) (f : GEntry → GEntry) : List GEntry :=
  (gs.map (fun g => if g.is ctx key then { f g with pins := g.pins.erase strand } else g)).filter (fun g =>
    !(g.is ctx key && g.inval && g.pins.isEmpty))

/-- A block ends: sheaves appended later are not the block's. -/
def State.closeBlock (s : State) (e : Env) : State :=
  (s.updCore e.core (fun k => { k with stook := k.stook.map (fun h =>
    if h.block = some e.st.num ∧ h.team = e.tk then { h with block := none } else h) })).setBlock e none

/-- The output region of a `gr.end` captured in the entry that the block fills (R210, R211). The entry counts as used now, as it
did at the `gr.begin` (DESIGN CHOICE, log 38). -/
def granaryCapture (e : Env) (s : State) (key : Word) (out : List Byte) : State :=
  let ctx := e.kn.ctx
  let k := s.core e.core
  if !k.gran.any (fun g => g.pinnedBy ctx key e.key) then s
  else
    let (gs, n, ok) := findSpace ctx (s.quota ctx) out.length 0 257 k.gran 0
    let s := s.updCnt e.core (fun c => { c with gevict := c.gevict + BitVec.ofNat 32 n })
    if ok then
      let place := storePlace s.tick gs out.length
      (s.writeRuns (place.map (fun x => (granLoc e.core x.1, granLoc e.core x.2)))).updCore e.core (fun k => { k with
        gclock := k.gclock + 1
        gran := unpin gs ctx key e.key (fun g => { g with
          st := .valid, output := out, outPlace := place, rc := 0, step := e.tm.gstep, used := k.gclock + 1 }) })
    else s.updCore e.core (fun k => { k with gclock := k.gclock + 1, gran := gs.filter (fun g => !(g.is ctx key)) })

/-- GR_END (R210). A replay whose entry is gone writes nothing and discards no sheaf. -/
def execGrEnd (rg : BitVec 4) (s : State) : Host.Outcome State Fault Refusal :=
  strandWord s [] [] (fun e =>
    match e.tm.blocks.get? e.slot, e.tm.region rg with
    | none, _ => granaryStatus e s 0x63 0 0
    | _, none => granaryStatus e s 0x62 rg.toNat 0
    | some (.run, _), some _ => granaryDone e (s.closeBlock e)
    | some (.capture, key), some r =>
      let (s, w) := s.reach e.core e.mark (e.demander 0) [r.span e.core] []
      if w then .block (.poll e.mark) s
      else
        match s.readCheck (some e.kn.ctx) (r.span e.core).1 r.size.toNat with
        | (s, some p) => .ended (s.memError e.tm.lid p)
        | (s, none) =>
          granaryDone e ((granaryCapture e s key (s.mem.read (r.span e.core).1 r.size.toNat)).closeBlock e)
    | some (.replay, key), some r =>
      match (s.core e.core).gran.find? (fun g => g.pinnedBy e.kn.ctx key e.key) with
      | none => granaryDone e (s.closeBlock e)
      | some g =>
        if g.output.length ≠ r.size.toNat then granaryStatus e s 0x64 rg.toNat 0
        else
          -- the block's sheaves are discarded before the write, and only if the word completes (R108, R213)
          let ids := blockOpen (s.core e.core) e.st.num e.tk
          let (s, w) := (s.updCore e.core (fun k => k.aside ids true)).reach e.core e.mark (e.demander 0) [] [r.span e.core]
          let s := s.updCore e.core (fun k => k.aside ids false)
          if w then .block (.poll e.mark) s
          else match s.checkSpans e.kn.ctx (g.outputRuns e.core) with
          | (s, some p) => .ended (s.memError e.tm.lid p)
          | (s, none) =>
            let s := s.updCore e.core (fun k => discardBlock k e.st.num e.tk)
            let s := s.store (r.span e.core).1 g.output
            let s := s.updCore e.core (fun k => { k with
              gran := unpin k.gran e.kn.ctx key e.key (fun g => { g with rc := g.rc + 1, step := e.tm.gstep })
              cnt := { k.cnt with ghit := k.cnt.ghit + 1 } })
            granaryDone e (s.closeBlock e))

/-- The lowest offset of a `gr.cfg` record whose field is out of range (R212). -/
def cfgBad (t f z : Word) : Option Nat :=
  let thr := decodeE fFP32 t.toNat
  if thr.isNaN || thr.isInf || (thr.neg && !thr.isZero) then some 0
  else if 2 < f.toNat % 16 ∨ f.toNat / 4096 % 16 = 0 ∨ f &&& 0xFFFF0EF0 ≠ 0 then some 4
  else if z ≠ 0 then some 12
  else none

/-- GR_CFG (R212). -/
def execGrCfg (x : XReg) (s : State) : Host.Outcome State Fault Refusal :=
  strandWord s [x] [] (fun e =>
    let a := e.st.getX x
    if a.toNat % 16 ≠ 0 then .trap 11 false a e.st s
    else
      match s.dataAt e a.toNat 16 with
      | .bad => .trap 12 false a e.st s
      | .wait => .block (.poll e.mark) s
      | .loc l =>
        let (s, w) := s.reachAll e.core e.mark (e.demander 0) [(l, l + 16)] []
        if w then .block (.poll e.mark) s
        else
          s.strandRead e l 16 (fun s v =>
            let t := BitVec.ofNat 32 v
            let f := BitVec.ofNat 32 (v / 2 ^ 32)
            match cfgBad t f (BitVec.ofNat 32 (v / 2 ^ 96)) with
            | some o => granaryStatus e s 0x65 o 0
            | none =>
              granaryDone e (s.updTeam e.tk (fun u => { u with
                gthr := if t = 0x80000000 then 0 else t
                gfmt := f.truncate 4
                grel := f.getLsbD 8
                glim := (f >>> 12).truncate 4
                gstep := BitVec.ofNat 32 (v / 2 ^ 64) }))))

/-- Whether `gr.inval` reaches a key (R212). -/
def invalHits (sel key : Word) : Bool :=
  if sel.getLsbD 31 then true
  else if sel.getLsbD 30 then decide (key.toNat % 4096 = sel.toNat % 4096)
  else key == sel

/-- The blocks of some strands that refer to the entry of a key run on without it (R204). -/
def stopBlocks (teams : Tbl Team) (key : Word) (strands : List Nat) : Tbl Team :=
  strands.foldl (fun ts k => ts.modify (strandTeam k) (fun t =>
    let bs := t.blocks.modify (strandNum k % 4) (fun b => if b.2 = key then (.run, key) else b)
    { t with blocks := bs })) teams

/-- Every granary entry of a context on a core goes EMPTY, pinned or not (R203, R204). DESIGN CHOICE (log 38), which R204
leaves open: an open block of another kernel that refers to such an entry, a capture or a replay, runs on without capture,
as one that R213 converts, and gmiss does not rise. -/
def State.emptyGranary (s : State) (c ctx : Nat) : State :=
  let hit := (s.core c).gran.filter (fun g => g.ctx = ctx)
  ({ s with teams := hit.foldl (fun ts (g : GEntry) => stopBlocks ts g.key g.pins) s.teams } : State).updCore c (fun k =>
    { k with gran := k.gran.filter (fun g => g.ctx ≠ ctx) })

/-- Entries of a context that `sel` reaches are invalidated on a core (R204, R212). -/
def State.invalGranary (s : State) (core ctx : Nat) (sel : Word) : State :=
  let k := s.core core
  let hit (g : GEntry) : Bool := decide (g.ctx = ctx) && invalHits sel g.key
  let filling := k.gran.filter (fun g => hit g && decide (g.st = .filling))
  let left := (k.gran.filter (fun g => !(hit g && (decide (g.st = .filling) || g.pins.isEmpty)))).map (fun g =>
    if hit g then { g with inval := true } else g)
  let s := { s with teams := filling.foldl (fun ts (g : GEntry) => stopBlocks ts g.key g.pins) s.teams }
  s.updCore core (fun k => { k with gran := left })

/-- GR_INVAL (R212). -/
def execGrInval (x : XReg) (s : State) : Host.Outcome State Fault Refusal :=
  strandWord s [x] [] (fun e => granaryDone e (s.invalGranary e.core e.kn.ctx (e.st.getX x)))

end Sys2Proof.Machine
end

