-- ==== Sys2Proof/Machine/Base.lean ====
section
/-! DEFINITION. The base instructions (R85 to R90) and the traps of an illegal word and of a fetch (R64, R100). -/

namespace Sys2Proof.Machine

/-- A word that computes `d` from the strand's registers and completes. -/
def valueWord (s : State) (srcs : List XReg) (d : XReg) (f : Strand → Word) : Host.Outcome State Fault Refusal :=
  strandWord s srcs [d] (fun e => .done (e.st.setX d (f e.st)) s)

/-- A word whose result arrives later (R91). -/
def laterWord (s : State) (srcs : List XReg) (d : XReg) (f : Strand → Word) : Host.Outcome State Fault Refusal :=
  strandWord s srcs [d] (fun e => .done (e.st.later d (f e.st)) s)

/-- Control passes to `t`; a target that is no multiple of 4 raises cause 10 (R56). -/
def goTo (e : Env) (s : State) (st : Strand) (t : Word) : WordEnd :=
  if t &&& 3 = 0 then .jump st s t else .trap 10 false t e.st s

/-- LUI (R85). -/
def execLui (d : XReg) (imm : BitVec 20) (s : State) : Host.Outcome State Fault Refusal :=
  valueWord s [] d (fun _ => imm ++ (0 : BitVec 12))

/-- AUIPC (R85). -/
def execAuipc (d : XReg) (imm : BitVec 20) (s : State) : Host.Outcome State Fault Refusal :=
  valueWord s [] d (fun st => st.pc + (imm ++ (0 : BitVec 12)))

/-- JAL (R85). -/
def execJal (d : XReg) (off : BitVec 20) (s : State) : Host.Outcome State Fault Refusal :=
  strandWord s [] [d] (fun e => goTo e s (e.st.setX d (e.st.pc + 4)) (e.st.pc + (off ++ (0 : BitVec 1)).signExtend 32))

/-- JALR (R85). -/
def execJalr (d b : XReg) (imm : BitVec 12) (s : State) : Host.Outcome State Fault Refusal :=
  strandWord s [b] [d] (fun e =>
    goTo e s (e.st.setX d (e.st.pc + 4)) ((e.st.getX b + imm.signExtend 32) &&& 0xFFFFFFFE))

/-- A branch: control passes to the target if the comparison holds (R85). -/
def branchWord (s : State) (a b : XReg) (off : BitVec 12) (c : Word → Word → Bool) :
    Host.Outcome State Fault Refusal :=
  strandWord s [a, b] [] (fun e =>
    if c (e.st.getX a) (e.st.getX b) then goTo e s e.st (e.st.pc + (off ++ (0 : BitVec 1)).signExtend 32)
    else .done e.st s)

/-- BEQ (R85). -/
def execBeq (a b : XReg) (off : BitVec 12) (s : State) : Host.Outcome State Fault Refusal :=
  branchWord s a b off (fun a b => a == b)

/-- BNE (R85). -/
def execBne (a b : XReg) (off : BitVec 12) (s : State) : Host.Outcome State Fault Refusal :=
  branchWord s a b off (fun a b => a != b)

/-- BLT (R85). -/
def execBlt (a b : XReg) (off : BitVec 12) (s : State) : Host.Outcome State Fault Refusal :=
  branchWord s a b off (fun a b => a.slt b)

/-- BGE (R85). -/
def execBge (a b : XReg) (off : BitVec 12) (s : State) : Host.Outcome State Fault Refusal :=
  branchWord s a b off (fun a b => !a.slt b)

/-- BLTU (R85). -/
def execBltu (a b : XReg) (off : BitVec 12) (s : State) : Host.Outcome State Fault Refusal :=
  branchWord s a b off (fun a b => a.ult b)

/-- BGEU (R85). -/
def execBgeu (a b : XReg) (off : BitVec 12) (s : State) : Host.Outcome State Fault Refusal :=
  branchWord s a b off (fun a b => !a.ult b)

/-- LB (R85, R86). -/
def execLb (d b : XReg) (imm : BitVec 12) (s : State) : Host.Outcome State Fault Refusal :=
  loadWord s d b imm 1 (fun v => (BitVec.ofNat 8 v).signExtend 32)

/-- LH (R85, R86). -/
def execLh (d b : XReg) (imm : BitVec 12) (s : State) : Host.Outcome State Fault Refusal :=
  loadWord s d b imm 2 (fun v => (BitVec.ofNat 16 v).signExtend 32)

/-- LW (R85, R86). -/
def execLw (d b : XReg) (imm : BitVec 12) (s : State) : Host.Outcome State Fault Refusal :=
  loadWord s d b imm 4 (fun v => BitVec.ofNat 32 v)

/-- LBU (R85, R86). -/
def execLbu (d b : XReg) (imm : BitVec 12) (s : State) : Host.Outcome State Fault Refusal :=
  loadWord s d b imm 1 (fun v => BitVec.ofNat 32 v)

/-- LHU (R85, R86). -/
def execLhu (d b : XReg) (imm : BitVec 12) (s : State) : Host.Outcome State Fault Refusal :=
  loadWord s d b imm 2 (fun v => BitVec.ofNat 32 v)

/-- SB (R85, R86). -/
def execSb (t b : XReg) (imm : BitVec 12) (s : State) : Host.Outcome State Fault Refusal :=
  storeWord s t b imm 1

/-- SH (R85, R86). -/
def execSh (t b : XReg) (imm : BitVec 12) (s : State) : Host.Outcome State Fault Refusal :=
  storeWord s t b imm 2

/-- SW (R85, R86). -/
def execSw (t b : XReg) (imm : BitVec 12) (s : State) : Host.Outcome State Fault Refusal :=
  storeWord s t b imm 4

/-- ADDI (R85). -/
def execAddi (d b : XReg) (imm : BitVec 12) (s : State) : Host.Outcome State Fault Refusal :=
  valueWord s [b] d (fun st =>
    let a := st.getX b
    let i : Word := imm.signExtend 32
    a + i)

/-- SLTI (R85). -/
def execSlti (d b : XReg) (imm : BitVec 12) (s : State) : Host.Outcome State Fault Refusal :=
  valueWord s [b] d (fun st =>
    let a := st.getX b
    let i : Word := imm.signExtend 32
    if a.slt i then 1 else 0)

/-- SLTIU (R85). -/
def execSltiu (d b : XReg) (imm : BitVec 12) (s : State) : Host.Outcome State Fault Refusal :=
  valueWord s [b] d (fun st =>
    let a := st.getX b
    let i : Word := imm.signExtend 32
    if a.ult i then 1 else 0)

/-- XORI (R85). -/
def execXori (d b : XReg) (imm : BitVec 12) (s : State) : Host.Outcome State Fault Refusal :=
  valueWord s [b] d (fun st =>
    let a := st.getX b
    let i : Word := imm.signExtend 32
    a ^^^ i)

/-- ORI (R85). -/
def execOri (d b : XReg) (imm : BitVec 12) (s : State) : Host.Outcome State Fault Refusal :=
  valueWord s [b] d (fun st =>
    let a := st.getX b
    let i : Word := imm.signExtend 32
    a ||| i)

/-- ANDI (R85). -/
def execAndi (d b : XReg) (imm : BitVec 12) (s : State) : Host.Outcome State Fault Refusal :=
  valueWord s [b] d (fun st =>
    let a := st.getX b
    let i : Word := imm.signExtend 32
    a &&& i)

/-- SLLI (R85). -/
def execSlli (d b : XReg) (sh : BitVec 5) (s : State) : Host.Outcome State Fault Refusal :=
  valueWord s [b] d (fun st => st.getX b <<< sh.toNat)

/-- SRLI (R85). -/
def execSrli (d b : XReg) (sh : BitVec 5) (s : State) : Host.Outcome State Fault Refusal :=
  valueWord s [b] d (fun st => st.getX b >>> sh.toNat)

/-- SRAI (R85). -/
def execSrai (d b : XReg) (sh : BitVec 5) (s : State) : Host.Outcome State Fault Refusal :=
  valueWord s [b] d (fun st => (st.getX b).sshiftRight sh.toNat)

/-- ADD (R85). -/
def execAdd (d b t : XReg) (s : State) : Host.Outcome State Fault Refusal :=
  valueWord s [b, t] d (fun st => st.getX b + st.getX t)

/-- SUB (R85). -/
def execSub (d b t : XReg) (s : State) : Host.Outcome State Fault Refusal :=
  valueWord s [b, t] d (fun st => st.getX b - st.getX t)

/-- SLL (R85). -/
def execSll (d b t : XReg) (s : State) : Host.Outcome State Fault Refusal :=
  valueWord s [b, t] d (fun st => st.getX b <<< ((st.getX t).toNat % 32))

/-- SLT (R85). -/
def execSlt (d b t : XReg) (s : State) : Host.Outcome State Fault Refusal :=
  valueWord s [b, t] d (fun st => if (st.getX b).slt (st.getX t) then 1 else 0)

/-- SLTU (R85). -/
def execSltu (d b t : XReg) (s : State) : Host.Outcome State Fault Refusal :=
  valueWord s [b, t] d (fun st => if (st.getX b).ult (st.getX t) then 1 else 0)

/-- XOR (R85). -/
def execXor (d b t : XReg) (s : State) : Host.Outcome State Fault Refusal :=
  valueWord s [b, t] d (fun st => st.getX b ^^^ st.getX t)

/-- SRL (R85). -/
def execSrl (d b t : XReg) (s : State) : Host.Outcome State Fault Refusal :=
  valueWord s [b, t] d (fun st => st.getX b >>> ((st.getX t).toNat % 32))

/-- SRA (R85). -/
def execSra (d b t : XReg) (s : State) : Host.Outcome State Fault Refusal :=
  valueWord s [b, t] d (fun st => (st.getX b).sshiftRight ((st.getX t).toNat % 32))

/-- OR (R85). -/
def execOr (d b t : XReg) (s : State) : Host.Outcome State Fault Refusal :=
  valueWord s [b, t] d (fun st => st.getX b ||| st.getX t)

/-- AND (R85). -/
def execAnd (d b t : XReg) (s : State) : Host.Outcome State Fault Refusal :=
  valueWord s [b, t] d (fun st => st.getX b &&& st.getX t)

/-- MUL (R85). -/
def execMul (d b t : XReg) (s : State) : Host.Outcome State Fault Refusal :=
  valueWord s [b, t] d (fun st => st.getX b * st.getX t)

/-- MULH (R85). -/
def execMulh (d b t : XReg) (s : State) : Host.Outcome State Fault Refusal :=
  valueWord s [b, t] d (fun st => BitVec.ofInt 32 ((st.getX b).toInt * (st.getX t).toInt / 2 ^ 32))

/-- MULHSU (R85). -/
def execMulhsu (d b t : XReg) (s : State) : Host.Outcome State Fault Refusal :=
  valueWord s [b, t] d (fun st => BitVec.ofInt 32 ((st.getX b).toInt * (st.getX t).toNat / 2 ^ 32))

/-- MULHU (R85). -/
def execMulhu (d b t : XReg) (s : State) : Host.Outcome State Fault Refusal :=
  valueWord s [b, t] d (fun st => BitVec.ofNat 32 ((st.getX b).toNat * (st.getX t).toNat / 2 ^ 32))

/-- DIV (R85, R87). -/
def execDiv (d b t : XReg) (s : State) : Host.Outcome State Fault Refusal :=
  laterWord s [b, t] d (fun st =>
    if st.getX t = 0 then 0xFFFFFFFF else BitVec.ofInt 32 ((st.getX b).toInt.tdiv (st.getX t).toInt))

/-- DIVU (R85, R87). -/
def execDivu (d b t : XReg) (s : State) : Host.Outcome State Fault Refusal :=
  laterWord s [b, t] d (fun st =>
    if st.getX t = 0 then 0xFFFFFFFF else BitVec.ofNat 32 ((st.getX b).toNat / (st.getX t).toNat))

/-- REM (R85, R87). -/
def execRem (d b t : XReg) (s : State) : Host.Outcome State Fault Refusal :=
  laterWord s [b, t] d (fun st =>
    if st.getX t = 0 then st.getX b else BitVec.ofInt 32 ((st.getX b).toInt.tmod (st.getX t).toInt))

/-- REMU (R85, R87). -/
def execRemu (d b t : XReg) (s : State) : Host.Outcome State Fault Refusal :=
  laterWord s [b, t] d (fun st =>
    if st.getX t = 0 then st.getX b else BitVec.ofNat 32 ((st.getX b).toNat % (st.getX t).toNat))

/-- A fence waits until every pending result of the strand has arrived; its earlier accesses are already performed
(R88, log 8). -/
def fenceEnd (e : Env) (s : State) (k : WordEnd) : WordEnd :=
  if e.st.pend.isEmpty then k else .block (.poll e.mark) s

/-- FENCE, in every encoding (R88). -/
def execFence (_imm : BitVec 12) (_b _d : XReg) (s : State) : Host.Outcome State Fault Refusal :=
  strandWord s [] [] (fun e => fenceEnd e s (.done e.st s))

/-- FENCE.I (R89): every buffered word of the core is discarded. -/
def execFenceI (_imm : BitVec 12) (_b _d : XReg) (s : State) : Host.Outcome State Fault Refusal :=
  strandWord s [] [] (fun e => fenceEnd e s (.done e.st (s.updCore e.core (fun k => { k with stale := [] }))))

/-- ECALL (R100, R105). -/
def execEcall (s : State) : Host.Outcome State Fault Refusal :=
  strandWord s [] [] (fun e => .trap 0 true 0 e.st s)

/-- EBREAK (R100, R105). -/
def execEbreak (s : State) : Host.Outcome State Fault Refusal :=
  strandWord s [] [] (fun e => .trap 1 true 0 e.st s)

/-- CSRRW (R90). -/
def execCsrrw (d : XReg) (csr : BitVec 12) (b : XReg) (s : State) : Host.Outcome State Fault Refusal :=
  csrWord s d csr [b] (fun st _ => some (st.getX b))

/-- CSRRS (R90): with x0 nothing is written. -/
def execCsrrs (d : XReg) (csr : BitVec 12) (b : XReg) (s : State) : Host.Outcome State Fault Refusal :=
  csrWord s d csr [b] (fun st old => if b = 0 then none else some (old ||| st.getX b))

/-- CSRRC (R90): with x0 nothing is written. -/
def execCsrrc (d : XReg) (csr : BitVec 12) (b : XReg) (s : State) : Host.Outcome State Fault Refusal :=
  csrWord s d csr [b] (fun st old => if b = 0 then none else some (old &&& ~~~(st.getX b)))

/-- CSRRWI (R90). -/
def execCsrrwi (d : XReg) (csr : BitVec 12) (u : BitVec 5) (s : State) : Host.Outcome State Fault Refusal :=
  csrWord s d csr [] (fun _ _ => some (u.zeroExtend 32))

/-- CSRRSI (R90): with 0 nothing is written. -/
def execCsrrsi (d : XReg) (csr : BitVec 12) (u : BitVec 5) (s : State) : Host.Outcome State Fault Refusal :=
  csrWord s d csr [] (fun _ old => if u = 0 then none else some (old ||| u.zeroExtend 32))

/-- CSRRCI (R90): with 0 nothing is written. -/
def execCsrrci (d : XReg) (csr : BitVec 12) (u : BitVec 5) (s : State) : Host.Outcome State Fault Refusal :=
  csrWord s d csr [] (fun _ old => if u = 0 then none else some (old &&& ~~~(u.zeroExtend 32)))

/-- ILLEGAL_INSTRUCTION (R64, R100 cause 8). -/
def execIllegalInstruction (w : Word) (s : State) : Host.Outcome State Fault Refusal :=
  strandWord s [] [] (fun e => .trap 8 false w e.st s)

/-- FETCH_ADDRESS_TRAP (R100 cause 9). -/
def execFetchAddressTrap (a : Word) (s : State) : Host.Outcome State Fault Refusal :=
  strandWord s [] [] (fun e => .trap 9 false a e.st s)

end Sys2Proof.Machine
end

