-- ==== Sys2Proof/Machine/Push.lean ====
section
/-! DEFINITION. The command registers and the push of tile words: `tc.ld`, `tc.set`, `tc.push`, `vcs.ld` (R156 to R182),
`tc.force` and `tc.drain` (R194), with the operand checks of R163 in their order. -/

namespace Sys2Proof

/-! ## Rules on one descriptor -/

/-- Rows of a descriptor (R67). -/
def Desc.nrows (d : Desc) : Nat := d.rows.toNat + 1
/-- Columns of a descriptor. -/
def Desc.ncols (d : Desc) : Nat := d.cols.toNat + 1

/-- The field rules of R31 and R32. -/
def Desc.shapeOk (d : Desc) : Bool :=
  decide (d.ncols * Machine.elemW d.fmt % 8 = 0) && (!Machine.isBlock d.fmt || decide (d.ncols % 32 = 0))

/-- The rules of R164 on tr, on destinations and on acc with peer. -/
def Desc.flagsOk (d : Desc) (dest : Bool) : Bool :=
  !(d.tr && Machine.isBlock d.fmt) && !(d.acc && d.peerF) && (!dest || (d.map = 0 && !d.tr && !d.mask))

/-- A descriptor as all zero bits, but for its address, peer and peer flag. -/
def Desc.plain (d : Desc) : Bool :=
  d.map == 0 && d.fmt == 0 && d.rows == 0 && d.cols == 0 && !d.acc && !d.tr && !d.mask

/-- A descriptor that is all zero. -/
def Desc.isZero (d : Desc) : Bool := d.plain && d.addr == 0 && d.peer == 0 && !d.peerF

/-- A byte stream descriptor: UINT8, map 0. -/
def Desc.bytes (d : Desc) : Bool := d.fmt == Machine.fU8 && d.map == 0

end Sys2Proof

namespace Sys2Proof.Machine

/-- The 256-bit word in c0 to c7 (R65). -/
def Strand.tileWord (st : Strand) : TileWord :=
  BitVec.ofNat 256 ((List.finRange 8).foldl (fun v i => v + (st.c[i.val]).toNat * 2 ^ (32 * i.val)) 0)

/-- c0 to c7 holding a word, with its template address (R157, R158). -/
def Strand.setTile (st : Strand) (w : TileWord) (t : Option Word) : Strand :=
  { st with c := Vector.ofFn (fun i : Fin 8 => BitVec.ofNat 32 (w.toNat / 2 ^ (32 * i.val))), tmpl := t }

/-- The load of a tile word (R157), by `tc.ld` or along a chain (R159). -/
def loadTile (e : Env) (s : State) (a : Word) (k : State → TileWord → WordEnd) : WordEnd :=
  if a.toNat % 32 ≠ 0 then .trap 11 false a e.st s
  else if 0x800000 ≤ a.toNat then .trap 12 false a e.st s
  else
    match s.dataAt e a.toNat 32 with
    | .loc l =>
      let (s, w) := s.reach e.core e.mark (e.demander 0) [(l, l + 32)] []
      if w then .block (.poll e.mark) s else s.strandRead e l 32 (fun s v => k s (BitVec.ofNat 256 v))
    | _ => .trap 12 false a e.st s

/-- TC_LD (R157). -/
def execTcLd (x : XReg) (s : State) : Host.Outcome State Fault Refusal :=
  strandWord s [x] [] (fun e =>
    loadTile e s (e.st.getX x) (fun s w => .done (e.st.setTile w (some (e.st.getX x))) s))

/-- TC_SET (R157). -/
def execTcSet (n : BitVec 3) (x : XReg) (s : State) : Host.Outcome State Fault Refusal :=
  strandWord s [x] [] (fun e =>
    .done { e.st with c := e.st.c.set n.toNat (e.st.getX x) n.isLt, tmpl := none } s)

/-! ## Operand checks (R163) -/

/-- Why a word is rejected at its push (R163). -/
inductive Reject where
  /-- Cause 8, with the `tc.push` word. -/
  | illegal
  /-- Cause 12, with the lowest failing address. -/
  | byte (a : Word)
  deriving DecidableEq, Repr

/-- A check that fails with cause 8. -/
def require (b : Bool) : Option Reject := if b then none else some .illegal

/-- The bytes of a map in a core's control store, none for map 0 (R166). -/
def State.mapBytes (s : State) (core bank : Nat) (m : BitVec 4) : Option (List Byte) :=
  if m = 0 then none else some (s.mem.read (vcsLoc core bank + 0x3C00 + 64 * m.toNat) 64)

/-- The class of a matrix format (R173): 16-bit, 8-bit float, 4-bit, integer. -/
def mmClass (f : BitVec 4) : Option Nat :=
  match f.toNat with
  | 1 | 2 => some 0
  | 3 | 4 | 6 | 7 => some 1
  | 5 | 8 | 9 => some 2
  | 10 | 13 => some 3
  | _ => none

/-- K_t of a matrix format (R23, R168). -/
def kLimit (f : BitVec 4) : Nat := 4096 / elemW f

/-- The coordinate rule of R167 for (i, j) from (i0, j0) to (i1, j1), exclusive: with mask 0 the corners lie inside. -/
def cornersOk (d : Desc) (m : Option (List Byte)) (nest : List (BitVec 16)) (i0 i1 j0 j1 : Nat) : Bool :=
  d.mask || decide (i1 ≤ i0) || decide (j1 ≤ j0) ||
    [(i0, j0), (i0, j1 - 1), (i1 - 1, j0), (i1 - 1, j1 - 1)].all (fun c =>
      let p := atCoord d m nest c.1 c.2
      decide (0 ≤ p.1) && decide (p.1 < d.nrows) && decide (0 ≤ p.2) && decide (p.2 < d.ncols))

/-- The byte rule of R164 for `n` bytes at a descriptor's address: the lowest failing byte. A peer's bytes must lie in its
scratchpad; whether the kernel owns them is checked when the work runs (R163). -/
def byteRule (e : Env) (d : Desc) (n : Nat) : Option Reject :=
  let a := d.addr.toNat
  if d.acc then
    let r := e.kn.desc.accRows
    (firstOutside [(r.1 * 1024, r.2 * 1024)] 2 a (a + n)).map (fun o => .byte (0x01000000 + BitVec.ofNat 32 o))
  else if d.peerF && decide (peerCore e.core d.peer.toNat ≠ e.core) then require (decide (a + n ≤ 0x800000))
  else (e.tm.firstUnowned a (a + n)).map (fun o => .byte (BitVec.ofNat 32 o))

/-- Step 3 of R163 for one descriptor: `own` holds the command's rules on it alone. -/
def descCheck (e : Env) (m : Option (List Byte)) (nest : List (BitVec 16)) (d : Desc) (dest own : Bool)
    (i0 i1 j0 j1 : Nat) : Option Reject :=
  require (d.shapeOk && ((m.map (fun b => (b.drop 0x28).all (· == 0))).getD true) && d.flagsOk dest && own &&
    cornersOk d m nest i0 i1 j0 j1) <|>
  byteRule e d ((descReg d e.core).stop - (descReg d e.core).base)

/-- A destination descriptor over its whole region. -/
def destCheck (e : Env) (d : Desc) (own : Bool) : Option Reject :=
  descCheck e none [] d true own 0 d.nrows 0 d.ncols

/-- Step 5 of R163: two sets of runs share no byte. The overlap of A and D (R199) is judged on bytes, not on the granules of R185
(DESIGN CHOICE, log 19). -/
def apart (xs ys : List Span) : Option Reject := require (!spansMeet xs ys)

/-- The formats of `wload` (R169). -/
def wloadFmt (f : BitVec 4) : Bool := (mmClass f).isSome

/-- The formats of the dense output of `twalk` (R214). -/
def walkFmt (f : BitVec 4) : Bool := decide (f.toNat ≤ 5) || (decide (10 ≤ f.toNat) && decide (f.toNat ≤ 13))

/-- The formats and shapes that join operands in `mm` and `mm.tri` (R172, R173). -/
def mmJoin (tri : Bool) (wf : BitVec 4) (a d : Desc) (b : DWord) : Bool :=
  (if tri then decide (par b 24 8 = 0) else decide (par b 12 52 = 0)) &&
  (mmClass a.fmt).isSome && mmClass a.fmt == mmClass wf && decide (par b 2 10 + 1 ≤ kLimit wf) &&
  d.fmt == (if mmClass a.fmt = some 3 then fI32 else fFP32)

/-- The rules of `mm` and `mm.tri` (R172 to R174, R199). -/
def mmCheck (e : Env) (m : Option (List Byte)) (nest : List (BitVec 16)) (wf : BitVec 4) (tri : Bool)
    (a : Desc) (b : DWord) (d : Desc) : Option Reject :=
  let lo := if tri then min d.nrows (clipN (- parDg b)) else 0
  descCheck e m nest a false true lo d.nrows 0 (par b 2 10 + 1) <|>
  destCheck e d (d.acc && decide (d.nrows ≤ 512) && decide (d.ncols ≤ 256)) <|>
  require (mmJoin tri wf a d b) <|>
  apart [(descReg a e.core).span] [(descReg d e.core).span]

/-- The rules of `wload` (R169). -/
def wloadCheck (e : Env) (m : Option (List Byte)) (a b : Desc) (d : DWord) : Option Reject :=
  let k := if a.tr then a.nrows else a.ncols
  let n := if a.tr then a.ncols else a.nrows
  let (i1, j1) := if a.tr then (a.ncols, a.nrows) else (a.nrows, a.ncols)
  let own := wloadFmt a.fmt && a.map == 0 && decide (k ≤ kLimit a.fmt) && decide (n ≤ 256)
  descCheck e m [] a false own 0 i1 0 j1 <|>
  require (if isBlock a.fmt then b.plain else b.isZero) <|>
  (if isBlock a.fmt && !b.isZero then byteRule e b ((descReg a e.core).rows * (descReg a e.core).sidePitch) else none) <|>
  require (decide (par d 1 63 = 0))

/-- The rules of `wload.ans` (R170). -/
def ansCheck (e : Env) (ma mb : Option (List Byte)) (a b : Desc) (d : DWord) : Option Reject :=
  descCheck e ma [] a false (a.bytes && !a.tr && !a.mask) 0 a.nrows 0 a.ncols <|>
  descCheck e mb [] b false (b.bytes && decide (b.nrows = 1) && decide (16 ≤ b.ncols)) 0 0 0 0 <|>
  require (decide (par d 1 3 = 0) && decide (par d 8 56 = 0) && wloadFmt (BitVec.ofNat 4 (par d 4 4)))

/-- The rules of `tcopy` and `tstore` (R175). -/
def copyCheck (e : Env) (m : Option (List Byte)) (a d : Desc) : Option Reject :=
  let blk := isBlock a.fmt
  descCheck e m [] a false (!blk || (a.map == 0 && !a.tr && !a.mask)) 0 d.nrows 0 d.ncols <|>
  destCheck e d true <|>
  require (a.fmt == d.fmt && (!blk || (a.rows == d.rows && a.cols == d.cols))) <|>
  apart [(descReg a e.core).span] [(descReg d e.core).span]

/-- The rules of `tconv` (R176, R182). -/
def convCheck (e : Env) (m : Option (List Byte)) (h : TileHdr) (a : Desc) (b : DWord) (d : Desc) : Option Reject :=
  let mc := par b 8 8
  descCheck e m [] a false true 0 d.nrows 0 d.ncols <|>
  destCheck e d true <|>
  require (decide (par b 0 3 ≤ 5) && decide (par b 4 4 = 0) && decide (par b 16 48 = 0) &&
    (decide (mc = 0) || (!d.peerF && !d.acc && (!h.sigEn || h.scope != 0)))) <|>
  apart [(descReg a e.core).span]
    (if mc = 0 then [(descReg d e.core).span]
     else (mcastCores e.core b).map (fun c => ({ (descReg d e.core) with base := dspLoc c d.addr.toNat } : Reg).span))

/-- The rules of `vt.call` (R178, R199). -/
def callCheck (e : Env) (m : Option (List Byte)) (a : Desc) (b : DWord) (d : Desc) : Option Reject :=
  let lf := BitVec.ofNat 4 (par b 20 4)
  let vl := 8192 / elemW lf
  descCheck e m [] a false true 0 d.nrows 0 a.ncols <|>
  destCheck e d true <|>
  require (decide (par b 25 7 = 0) && decide (par b 0 12 + par b 12 8 + 1 ≤ 3840) &&
    (lf == fFP32 || lf == fBF16 || lf == fFP16 || lf == fI32 || lf == fI16) &&
    a.fmt == lf && d.fmt == lf && decide (a.ncols ≤ vl) && decide (d.ncols ≤ vl) && a.rows == d.rows) <|>
  apart [(descReg a e.core).span] [(descReg d e.core).span]

/-- The rules of `twalk` (R214, R215). A may lie in the accumulator and D in a peer core (DESIGN CHOICE, log 35: R214 names the
peer flag for A and the acc flag for D, and excludes neither other flag). -/
def walkCheck (e : Env) (m : Option (List Byte)) (a : Desc) (b : DWord) (d : Desc) : Option Reject :=
  let pa := par b 0 23
  let n := 4 * (par b 23 9 + 1)
  descCheck e m [] a false (a.bytes && !a.tr && !a.mask) 0 a.nrows 0 a.ncols <|>
  destCheck e d (walkFmt d.fmt && decide (d.ncols * elemW d.fmt ≤ 8192)) <|>
  require (decide (pa % 4 = 0)) <|>
  ((e.tm.firstUnowned pa (pa + n)).map (fun o => Reject.byte (BitVec.ofNat 32 o))) <|>
  apart [(descReg d e.core).span] [(descReg a e.core).span, (dspLoc e.core pa, dspLoc e.core (pa + n))]

/-- Step 2 of R163. -/
def semCheck (e : Env) (h : TileHdr) : Option Reject :=
  require (!h.waitEn || e.kn.desc.ownsSem h.waitSem.toNat) <|>
  require (!h.sigEn || e.kn.desc.ownsSem h.sigSem.toNat)

/-- The nest values t0 to t5 (R165). -/
def Strand.nest (st : Strand) : List (BitVec 16) :=
  (List.finRange 6).map (fun (n : Fin 6) =>
    (((st.loops.reverse[n.val]?).map (fun (l : LoopLevel) => l.index)).getD 0 : BitVec 16) + st.bias[n.val])

/-- The checks of one word after R68, the formats latched in the halves being `wf` (R163). -/
def wordCheck (e : Env) (s : State) (wf : Vector (BitVec 4) 2) (i : Instr) : Option Reject :=
  let m (d : Desc) := s.mapBytes e.core e.tm.bank d.map
  let half (b : DWord) : BitVec 4 := if par b 0 1 = 0 then wf[0] else wf[1]
  match i with
  | .mm h a b d => semCheck e h <|> mmCheck e (m a) e.st.nest (half b) false a b d
  | .mmTri h a b d => semCheck e h <|> mmCheck e (m a) e.st.nest (half b) true a b d
  | .wload h a b d => semCheck e h <|> wloadCheck e (m a) a b d
  | .wloadAns h a b d => semCheck e h <|> ansCheck e (m a) (m b) a b d
  | .tstore h a d | .tcopy h a d => semCheck e h <|> copyCheck e (m a) a d
  | .tconv h a b d => semCheck e h <|> convCheck e (m a) h a b d
  | .tfill h b d => semCheck e h <|> destCheck e d true <|> require (decide (par b 48 16 = 0))
  | .tclr h d => semCheck e h <|> destCheck e d true
  | .vtCall h a b d => semCheck e h <|> callCheck e (m a) a b d
  | .twalk h a b d => semCheck e h <|> walkCheck e (m a) a b d
  | .xfer h a _ _ => semCheck e h <|> require (decide (par a 28 36 = 0) && decide (par a 0 20 % 8 = 0))
  | _ => some .illegal

/-- The formats latched in the halves after a word is accepted (R168). -/
def latch (wf : Vector (BitVec 4) 2) (i : Instr) : Vector (BitVec 4) 2 :=
  match i with
  | .wload _ a _ d => if par d 0 1 = 0 then wf.set 0 a.fmt else wf.set 1 a.fmt
  | .wloadAns _ _ _ d => if par d 0 1 = 0 then wf.set 0 (BitVec.ofNat 4 (par d 4 4)) else wf.set 1 (BitVec.ofNat 4 (par d 4 4))
  | _ => wf

/-- The checks of a chain in its order, the first failure deciding (R158). -/
def chainCheck (e : Env) (s : State) : Vector (BitVec 4) 2 → List TileWord → Option Reject
  | _, [] => none
  | wf, w :: ws =>
    match decodeTile w with
    | none => some .illegal
    | some i => wordCheck e s wf i <|> chainCheck e s (latch wf i) ws

/-! ## Push (R158 to R161, R197, R201) -/

/-- The descriptor A of a command, if it has one. -/
def descA : Instr → Option Desc
  | .mm _ a _ _ | .mmTri _ a _ _ | .wload _ a _ _ | .wloadAns _ a _ _ | .tstore _ a _ | .tcopy _ a _ | .tconv _ a _ _
  | .vtCall _ a _ _ | .twalk _ a _ _ => some a
  | _ => none

/-- The weight half that a command reads (R172). -/
def halfRead : Instr → Option Nat
  | .mm _ _ b _ | .mmTri _ _ b _ => some (par b 0 1)
  | _ => none

/-- Whether a command appends a sheaf (R161). -/
def appends : Instr → Bool
  | .tstore .. | .xfer .. => false
  | _ => true

/-- A sheaf joins a core's stook (R160, R186, R201). -/
def Core.append (k : Core) (h : Sheaf) : Core :=
  let st := k.stook ++ [h]
  { k with
    stook := st
    nextSeq := k.nextSeq + 1
    cnt := { k.cnt with
      shapp := k.cnt.shapp + 1
      shpeak := if k.cnt.shpeak.toNat < st.length then BitVec.ofNat 11 st.length else k.cnt.shpeak } }

/-- What a push of an accepted word does (R158 step 3 and 4, R160, R161, R201). -/
def pushWord (e : Env) (s : State) (w : TileWord) : State :=
  let i := tileInstr w
  let tm := (s.teams.get? e.tk).getD e.tm
  let q := (s.core e.core).nextSeq
  let m := (descA i).bind (fun d => s.mapBytes e.core tm.bank d.map)
  let s := s.updTeam e.tk (fun t => { t with cmdNo := t.cmdNo + 1, wfmt := latch t.wfmt i })
  let one : Queued := { seq := q, lid := tm.lid, team := e.tk, word := w, cmdNo := tm.cmdNo, pc := e.st.pc
                        sid := e.st.num, mapA := m, wait := .notQueued, far := [] }
  match i with
  | .xfer .. => s.updCore e.core (fun k => { k with xq := k.xq ++ [one], nextSeq := q + 1 })
  | .tstore .. =>
    let d : Demander := { kind := 2, pc := e.st.pc, sid := e.st.num, agent := 0, key := none, num := 0 }
    let ps := otherCores e.core (one.src e.core)
    let one := { one with far := ps.map (fun p => (p, (s.core p).nextSeq)) }
    let s := ps.foldl (fun (s : State) p => s.updCore p (fun k => { k with nextSeq := k.nextSeq + 1 })) s
    let s := s.stookStep e.core (fun k => k.demand e.core q d (one.src e.core))
    let s := s.stookStep e.core (fun k => k.force e.core q d (one.foot e.core))
    s.updCore e.core (fun k => { k with tq := k.tq ++ [one], nextSeq := q + 1 })
  | _ =>
    let g := tileGrid i
    let h : Sheaf :=
      { seq := q, lid := tm.lid, team := e.tk, bank := tm.bank, word := w, cmdNo := tm.cmdNo, pc := e.st.pc
        sid := e.st.num, vfrm := e.st.vfrm, zmul := e.st.zmul, mapA := m
        nest := (match halfRead i with | some _ => e.st.nest | none => [])
        wfmt := (match halfRead i with | some 0 => tm.wfmt[0] | some _ => tm.wfmt[1] | none => 0)
        subs := List.replicate (g.ni * g.nj) .opn, wait := .notQueued, faulted := false, dying := false
        block := (tm.blocks.get? e.slot).map (fun _ => e.st.num), begun := false
        due := none, since := none }
    let s := s.updCore e.core (fun k => k.append h)
    if (s.core e.core).eager then
      s.stookStep e.core (fun k => k.forceWhole e.core (e.demander 0) (fun x => x.seq = q))
    else s

/-- Entries of each of a core's two engine queues: no fewer than the words of the longest chain (R158, R159). The manual gives
no depth (DESIGN CHOICE, log 43). -/
def queueDepth : Nat := 64 + Config.queueSpare

/-- The words of a chain do not all fit in the engine queues that they enter (R158). -/
def Core.queueFull (k : Core) (ws : List TileWord) : Bool :=
  let n (x : Bool) : Nat := ws.countP (fun w =>
    match tileInstr w with
    | .tstore .. => !x
    | .xfer .. => x
    | _ => false)
  (decide (queueDepth < k.tq.length + n false) && decide (0 < n false)) ||
    (decide (queueDepth < k.xq.length + n true) && decide (0 < n true))

/-- The entries a team may use (R188). -/
def Core.room (k : Core) : Nat := if 2 ≤ k.residents.length then 512 else 1024

/-- The oldest sheaf of a team with an open sub-tile. -/
def Core.oldestOpen (k : Core) (tk : Nat) : Option Sheaf :=
  k.stook.find? (fun h => decide (h.team = tk) && (List.range h.subs.length).any h.openAt)

/-- The oldest such sheaf forced whole by overflow (R197), if there is one. -/
def State.overflow (s : State) (core tk : Nat) (d : Demander) : State :=
  match (s.core core).oldestOpen tk with
  | none => s
  | some h =>
    (s.stookStep core (fun k => k.forceWhole core d (fun x => x.seq = h.seq))).updCnt core
      (fun c => { c with shovf := c.shovf + 1 })

/-- The entries of a team, by their sequence numbers. -/
def Core.entries (k : Core) (tk : Nat) : List Nat := (k.stook.filter (fun h => h.team = tk)).map (·.seq)

/-- The words of a chain, gathered (R159); `fuel` bounds the links that may follow. -/
def gatherChain (e : Env) (pw : Word) :
    Nat → State → TileWord → Option Word → List TileWord → (State → List TileWord → Option Word → WordEnd) → WordEnd
  | n, s, w, t, acc, k =>
    let c := (wordHdr w).chain
    if !c.getLsbD 15 then k s (acc ++ [w]) t
    else
      let d : BitVec 15 := c.truncate 15
      match n, t with
      | 0, _ => .trap 8 false pw e.st s
      | _, none => .trap 8 false pw e.st s
      | n + 1, some a =>
        if d = 0 then .trap 8 false pw e.st s
        else
          let a := a + (d.signExtend 32 <<< 5)
          loadTile e s a (fun s w' => gatherChain e pw n s w' (some a) (acc ++ [w]) k)

/-- The push of a gathered and accepted chain, once there is room (R158, R197, R201). -/
def pushChain (e : Env) (s : State) (d : XReg) (ws : List TileWord) (t : Option Word) : WordEnd :=
  let k := s.core e.core
  let need := (ws.filter (fun w => appends (tileInstr w))).length
  let live := k.entries e.tk
  if k.queueFull ws then .block (.poll e.mark) s
  else if k.room < live.length + need ∧ 0 < need then
    match e.st.wait with
    | some (.room m old) =>
      if old.all (fun q => live.contains q) then .block (.room m old) s
      else
        let s := s.overflow e.core e.tk (e.demander 3)
        .block (.room m ((s.core e.core).entries e.tk)) s
    | _ =>
      let s := s.overflow e.core e.tk (e.demander 3)
      .block (.room e.mark ((s.core e.core).entries e.tk)) s
  else
    let q := k.nextSeq
    let s := ws.foldl (pushWord e) s
    let last := ws.getLast?.getD 0
    if k.eager && decide (0 < need) then
      .ended (s.setStrand e.key (s.park e.core e.st (.pushed q (s.core e.core).nextSeq e.tm.cmdNo last t)))
    else .done ((e.st.setTile last t).setX d e.tm.cmdNo) s

/-- The word of a `tc.push` (R156). -/
def pushCode (d : XReg) : Word := 0x0400300B ||| (d.zeroExtend 32 <<< 7)

/-- A `tc.push` word. -/
def isPush : Instr → Bool
  | .tcPush _ => true
  | _ => false

/-- A `tc.push` of another strand of the core that issued before this one and has not been accepted yet: the core orders
tile commands by the issue of their pushes (R84, R158). -/
def State.pushBefore (s : State) (e : Env) : Bool :=
  (s.siblings e).any (fun st => st.waitsIn isPush && decide (st.issue < e.issue s) &&
    (match st.wait with | some (.pushed ..) => false | _ => true))

/-- A `tc.push` that has issued waits for its turn, keeping what it waits for. -/
def Env.queuePush (e : Env) (s : State) : WordEnd :=
  match e.st.wait with
  | some (.room m old) => .block (.room m old) s
  | _ => .block (.poll e.mark) s

/-- TC_PUSH (R158). -/
def execTcPush (d : XReg) (s : State) : Host.Outcome State Fault Refusal :=
  strandWord s [] [d] (fun e =>
    match e.st.wait with
    | some (.pushed lo hi num last tmpl) =>
      if (s.core e.core).stook.any (fun h => decide (h.team = e.tk) && decide (lo ≤ h.seq) && decide (h.seq < hi)) then
        .block (.pushed lo hi num last tmpl) s
      else .done ((e.st.setTile last tmpl).setX d num) s
    | _ =>
      if s.pushBefore e then e.queuePush s
      else
        gatherChain e (pushCode d) 63 s e.st.tileWord e.st.tmpl [] (fun s ws t =>
          match chainCheck e s e.tm.wfmt ws with
          | some .illegal => .trap 8 false (pushCode d) e.st s
          | some (.byte a) => .trap 12 false a e.st s
          | none => pushChain e s d ws t))

/-! ## `vcs.ld`, `tc.force`, `tc.drain` -/

/-- A `vt.call` sheaf whose microprogram lies in the control-store bytes [lo, hi) of a bank (R180). -/
def Sheaf.callsIn (h : Sheaf) (bank lo hi : Nat) : Bool :=
  match tileInstr h.word with
  | .vtCall _ _ b _ =>
    decide (h.bank = bank) && decide (4 * par b 0 12 < hi) && decide (lo < 4 * (par b 0 12 + par b 12 8 + 1))
  | _ => false

/-- VCS_LD (R180). -/
def execVcsLd (off : BitVec 4) (x y : XReg) (s : State) : Host.Outcome State Fault Refusal :=
  strandWord s [x, y] [] (fun e =>
    let a := e.st.getX x
    let n := (e.st.getX y).toNat
    let o := off.toNat * 1024
    if a.toNat % 4 ≠ 0 then .trap 11 false a e.st s
    else if n % 4 ≠ 0 ∨ 16384 < o + n then .trap 12 false a e.st s
    else if n = 0 then .done e.st s
    else
      match e.tm.firstUnowned a.toNat (a.toNat + n) with
      | some b => .trap 12 false (BitVec.ofNat 32 b) e.st s
      | none =>
        let l := dspLoc e.core a.toNat
        let (s, w) := s.reach e.core e.mark (e.demander 0) [(l, l + n)] []
        let p (h : Sheaf) : Bool := decide (h.seq < e.mark) && h.callsIn e.tm.bank o (o + n)
        let s := s.stookStep e.core (fun k => k.forceWhole e.core (e.demander 0) p)
        if w || (s.core e.core).stook.any (fun h => p h && h.subs.any SubSt.isDisp) then .block (.poll e.mark) s
        else
          match s.readCheck (some e.kn.ctx) l n with
          | (s, some b) => .ended (s.memError e.tm.lid b)
          | (s, none) => .done e.st (s.store (vcsLoc e.core e.tm.bank + o) (s.mem.read l n)))

/-- The runs that `tc.force` names, or the lowest failing address (R116, R194). -/
def forceRange (e : Env) (a n : Nat) : Span ⊕ Nat :=
  if 0x1000000 ≤ a ∧ a < 0x1080000 then
    let r := e.kn.desc.accRows
    match firstOutside [(r.1 * 1024, r.2 * 1024)] 2 (a - 0x1000000) (a - 0x1000000 + n) with
    | some b => .inr (0x1000000 + b)
    | none => .inl (accLoc e.core (a - 0x1000000), accLoc e.core (a - 0x1000000 + n))
  else
    match e.tm.firstUnowned a (a + n) with
    | some b => .inr b
    | none => .inl (dspLoc e.core a, dspLoc e.core (a + n))

/-- TC_FORCE (R194). It reads no data, so no scoreboard entry holds it off. -/
def execTcForce (x y : XReg) (s : State) : Host.Outcome State Fault Refusal :=
  strandWord s [x, y] [] (fun e =>
    let n := (e.st.getX y).toNat
    if n = 0 then .done e.st s
    else
      match forceRange e (e.st.getX x).toNat n with
      | .inr b => .trap 12 false (BitVec.ofNat 32 b) e.st s
      | .inl r =>
        let g := [r.granules]
        let s := s.stookStep e.core (fun k => k.demand e.core e.mark (e.demander 1) g)
        if ({ s.core e.core with sb := [] } : Core).busy e.core e.mark e.mark g [] then .block (.poll e.mark) s
        else .done e.st s)

/-- TC_DRAIN (R194). -/
def execTcDrain (s : State) : Host.Outcome State Fault Refusal :=
  strandWord s [] [] (fun e =>
    let s := s.stookStep e.core (fun k => k.forceWhole e.core (e.demander 1) (fun h => decide (h.team = e.tk) && decide (h.seq < e.mark)))
    let k := s.core e.core
    if k.stook.any (fun h => decide (h.team = e.tk) && decide (h.seq < e.mark)) ||
        k.tq.any (fun q => decide (q.team = e.tk) && decide (q.seq < e.mark)) then .block (.poll e.mark) s
    else .done e.st s)

end Sys2Proof.Machine
end

