-- ==== Sys2Proof/Machine/Lanes.lean ====
section
/-! DEFINITION. What the vector instructions do to rows (R111 to R136), as functions of rows of 1,024 bytes. Strand words
and microprograms of `vt.call` (R179) share them. -/

namespace Sys2Proof.Machine

/-- A row of the accumulator, or a private row of the vector tile engine. -/
abbrev Row := List Byte

/-- How lanes are read and results rounded (R33, R35, R36, R111). -/
structure LaneCtx where
  fmt : BitVec 4
  rm  : Rm
  daz : Bool
  ftz : Bool
  ann : Bool
  deriving Repr

/-- The float type of a lane format (R112). -/
def laneT (f : BitVec 4) : BitVec 4 := if f = fI32 then fFP32 else if f = fI16 then fBF16 else f

/-- The float kind of R112. -/
def isFloatKind (f : BitVec 4) : Bool := f == fFP32 || f == fBF16 || f == fFP16

/-- Lanes of a row (R112). -/
def laneCount (f : BitVec 4) : Nat := 8192 / elemW f

/-- The lanes of a row. -/
def rowLanes (f : BitVec 4) (r : Row) : List Nat := unpackE (elemW f) (laneCount f) r

/-- A row of lanes. -/
def laneRow (f : BitVec 4) (xs : List Nat) : Row := packE (elemW f) xs

/-- The lanes of a predicate (R118). -/
def laneMask (f : BitVec 4) (p : BitVec 512) : List Bool := (List.range (laneCount f)).map (fun i => p.getLsbD i)

namespace LaneCtx

/-- A lane read in the float type, after `daz`. -/
def num (c : LaneCtx) (x : Nat) : Num := decodeE (laneT c.fmt) (dazE c.daz (laneT c.fmt) x)

/-- A result rounded to the float type, and flushed (R123). -/
def put (c : LaneCtx) (x : Num × Flags) : Rnd :=
  let r := roundTo (laneT c.fmt) c.rm false x.1
  ftzR c.ftz (laneT c.fmt) ⟨r.code, r.fl ||| x.2⟩

/-- A value of the float type returned as it is, a NaN as the canonical one. -/
def same (c : LaneCtx) (x : Num) (fl : Flags) : Rnd := ⟨(roundTo (laneT c.fmt) .rne false x).code, fl⟩

def add (c : LaneCtx) (a b _d : Nat) : Rnd := c.put (addN c.rm (c.num a) (c.num b))
def sub (c : LaneCtx) (a b _d : Nat) : Rnd := c.put (addN c.rm (c.num a) (c.num b).negate)

/-- A product; in annihilating mode a zero factor gives zero with the exclusive or of the signs (R36, R123). -/
def mul (c : LaneCtx) (a b _d : Nat) : Rnd :=
  if c.ann && ((c.num a).isZero || (c.num b).isZero) then
    ⟨if codeNeg (laneT c.fmt) a != codeNeg (laneT c.fmt) b then 2 ^ (elemW c.fmt - 1) else 0, 0⟩
  else c.put (mulN (c.num a) (c.num b))

/-- A product and sum with one rounding; an annihilated product returns the addend (R123). -/
def fma (c : LaneCtx) (a b d : Nat) : Rnd :=
  if c.ann && ((c.num a).isZero || (c.num b).isZero) then c.same (c.num d) 0
  else
    let p := mulN (c.num a) (c.num b)
    let r := addN c.rm p.1 (c.num d)
    c.put (r.1, p.2 ||| r.2)

def min (c : LaneCtx) (a b _d : Nat) : Rnd := c.same (minNum (c.num a) (c.num b)) ((c.num a).sigF ||| (c.num b).sigF)
def max (c : LaneCtx) (a b _d : Nat) : Rnd := c.same (maxNum (c.num a) (c.num b)) ((c.num a).sigF ||| (c.num b).sigF)
def abs (c : LaneCtx) (a _b _d : Nat) : Rnd := c.put ((c.num a).abs, 0)
def neg (c : LaneCtx) (a _b _d : Nat) : Rnd := c.put ((c.num a).negate, 0)

/-- The correctly rounded functions and their special cases (R124). -/
def rcp (c : LaneCtx) (a _b _d : Nat) : Rnd :=
  match c.num a with
  | .nan g => c.put (.nan g, 0)
  | .inf n => c.put (.fin n 0 0, 0)
  | .fin n m e => c.put (if m = 0 then (.inf n, fDZ) else (rcpFin n m e, 0))

def sqrt (c : LaneCtx) (a _b _d : Nat) : Rnd :=
  match c.num a with
  | .nan g => c.put (.nan g, 0)
  | .inf n => c.put (if n then (.nan false, fNV) else (.inf false, 0))
  | .fin n m e => c.put (if m = 0 then (.fin n 0 0, 0) else if n then (.nan false, fNV) else (sqrtFin m e, 0))

def rsqrt (c : LaneCtx) (a _b _d : Nat) : Rnd :=
  match c.num a with
  | .nan g => c.put (.nan g, 0)
  | .inf n => c.put (if n then (.nan false, fNV) else (.fin false 0 0, 0))
  | .fin n m e => c.put (if m = 0 then (.inf n, fDZ) else if n then (.nan false, fNV) else (rsqrtFin m e, 0))

def exp2 (c : LaneCtx) (a _b _d : Nat) : Rnd :=
  match c.num a with
  | .nan g => c.put (.nan g, 0)
  | .inf n => c.put (if n then .fin false 0 0 else .inf false, 0)
  | .fin n m e => c.put (exp2Fin n m e, 0)

def log2 (c : LaneCtx) (a _b _d : Nat) : Rnd :=
  match c.num a with
  | .nan g => c.put (.nan g, 0)
  | .inf n => c.put (if n then (.nan false, fNV) else (.inf false, 0))
  | .fin n m e => c.put (if m = 0 then (.inf true, fDZ) else if n then (.nan false, fNV) else (log2Fin m e, 0))

/-- The low w bits of an integer. -/
def int (c : LaneCtx) (v : Int) : Rnd := ⟨intCode (elemW c.fmt) v, 0⟩
/-- A lane as a signed integer. -/
def sgn (c : LaneCtx) (a : Nat) : Int := intOf (elemW c.fmt) true a

def addI (c : LaneCtx) (a b _d : Nat) : Rnd := c.int (c.sgn a + c.sgn b)
def subI (c : LaneCtx) (a b _d : Nat) : Rnd := c.int (c.sgn a - c.sgn b)
def mulI (c : LaneCtx) (a b _d : Nat) : Rnd := c.int (c.sgn a * c.sgn b)
def mulhI (c : LaneCtx) (a b _d : Nat) : Rnd := c.int (c.sgn a * c.sgn b / 2 ^ elemW c.fmt)
def minI (c : LaneCtx) (a b _d : Nat) : Rnd := c.int (if c.sgn a ≤ c.sgn b then c.sgn a else c.sgn b)
def maxI (c : LaneCtx) (a b _d : Nat) : Rnd := c.int (if c.sgn a ≤ c.sgn b then c.sgn b else c.sgn a)
def and (_c : LaneCtx) (a b _d : Nat) : Rnd := ⟨a &&& b, 0⟩
def or (_c : LaneCtx) (a b _d : Nat) : Rnd := ⟨a ||| b, 0⟩
def xor (_c : LaneCtx) (a b _d : Nat) : Rnd := ⟨a ^^^ b, 0⟩
def shl (c : LaneCtx) (a b _d : Nat) : Rnd := ⟨a * 2 ^ (b % elemW c.fmt) % 2 ^ elemW c.fmt, 0⟩
def shr (c : LaneCtx) (a b _d : Nat) : Rnd := ⟨a / 2 ^ (b % elemW c.fmt), 0⟩
def sra (c : LaneCtx) (a b _d : Nat) : Rnd := c.int (c.sgn a / 2 ^ (b % elemW c.fmt))
def move (_c : LaneCtx) (a _b _d : Nat) : Rnd := ⟨a, 0⟩

/-- Comparisons (R126): the predicate bit and the flags. -/
def feq (c : LaneCtx) (a b : Nat) : Bool × Flags :=
  ((c.num a).eqv (c.num b), (c.num a).sigF ||| (c.num b).sigF)
def fne (c : LaneCtx) (a b : Nat) : Bool × Flags :=
  (!(c.num a).eqv (c.num b), (c.num a).sigF ||| (c.num b).sigF)
/-- NV for any NaN. -/
def anyNaN (c : LaneCtx) (a b : Nat) : Flags := if (c.num a).isNaN || (c.num b).isNaN then fNV else 0
def flt (c : LaneCtx) (a b : Nat) : Bool × Flags := ((c.num a).lt (c.num b), c.anyNaN a b)
def fle (c : LaneCtx) (a b : Nat) : Bool × Flags :=
  ((c.num a).lt (c.num b) || (c.num a).eqv (c.num b), c.anyNaN a b)
def ieq (_c : LaneCtx) (a b : Nat) : Bool × Flags := (a == b, 0)
def ine (_c : LaneCtx) (a b : Nat) : Bool × Flags := (a != b, 0)
def ilt (c : LaneCtx) (a b : Nat) : Bool × Flags := (decide (c.sgn a < c.sgn b), 0)
def ile (c : LaneCtx) (a b : Nat) : Bool × Flags := (decide (c.sgn a ≤ c.sgn b), 0)
def iltu (_c : LaneCtx) (a b : Nat) : Bool × Flags := (decide (a < b), 0)
def ileu (_c : LaneCtx) (a b : Nat) : Bool × Flags := (decide (a ≤ b), 0)

end LaneCtx

/-- A function of one, two or three lanes. -/
abbrev LaneFn := LaneCtx → Nat → Nat → Nat → Rnd

/-- A comparison of lanes. -/
abbrev LaneCmp := LaneCtx → Nat → Nat → Bool × Flags

/-- The flags of a list of results. -/
def orFlags (fs : List Flags) : Flags := fs.foldl (· ||| ·) 0

/-- A lane function over the active lanes; the others keep their value. -/
def rowMap (c : LaneCtx) (f : LaneFn) (mask : BitVec 512) (a b d : Row) : Row × Flags :=
  let rs := ((laneMask c.fmt mask).zip ((rowLanes c.fmt a).zip ((rowLanes c.fmt b).zip (rowLanes c.fmt d)))).map
    (fun q => if q.1 then f c q.2.1 q.2.2.1 q.2.2.2 else ⟨q.2.2.2, 0⟩)
  (laneRow c.fmt (rs.map (·.code)), orFlags (rs.map (·.fl)))

/-- A comparison of the active lanes; every other bit is 0 (R126). -/
def rowCmp (c : LaneCtx) (f : LaneCmp) (mask : BitVec 512) (a b : Row) : BitVec 512 × Flags :=
  let rs := ((laneMask c.fmt mask).zip ((rowLanes c.fmt a).zip (rowLanes c.fmt b))).map
    (fun q => if q.1 then f c q.2.1 q.2.2 else (false, 0))
  (BitVec.ofNat 512 (packN 1 (rs.map (fun r => if r.1 then 1 else 0))), orFlags (rs.map (·.2)))

/-- `vsel` (R127): no mask; `sel` chooses the first source. -/
def rowSel (f : BitVec 4) (sel : BitVec 512) (a b : Row) : Row :=
  laneRow f (((laneMask f sel).zip ((rowLanes f a).zip (rowLanes f b))).map (fun q => if q.1 then q.2.1 else q.2.2))

/-- `vbcast` (R127). -/
def rowBcast (f : BitVec 4) (mask : BitVec 512) (x : Word) (d : Row) : Row :=
  laneRow f (((laneMask f mask).zip (rowLanes f d)).map (fun q => if q.1 then x.toNat % 2 ^ elemW f else q.2))

/-- `vperm` (R131). -/
def rowPerm (f : BitVec 4) (mask : BitVec 512) (a b d : Row) : Row :=
  let xs := (rowLanes f a).toArray
  laneRow f (((laneMask f mask).zip ((rowLanes f b).zip (rowLanes f d))).map
    (fun q => if q.1 then xs.getD (q.2.1 % laneCount f) 0 else q.2.2))

/-- `vslide` by k (R131). -/
def rowSlide (f : BitVec 4) (mask : BitVec 512) (k : Int) (a d : Row) : Row :=
  let xs := (rowLanes f a).toArray
  laneRow f (((laneMask f mask).zip ((List.range (laneCount f)).zip (rowLanes f d))).map
    (fun q =>
      if q.1 then
        let i : Int := (q.2.1 : Int) + k
        if 0 ≤ i ∧ i < laneCount f then xs.getD i.toNat 0 else 0
      else q.2.2))

/-- A float lane that meets the identity of a reduction: a number unchanged, whatever daz and ftz say, and a NaN as the
canonical one (R51). -/
def LaneCtx.pass (c : LaneCtx) (v : Nat) : Rnd :=
  let x := decodeE (laneT c.fmt) v
  if x.isNaN then c.same x x.sigF else ⟨v, 0⟩

/-- `vscan` from a running sum, absent at the start (R131). -/
def scanFrom (c : LaneCtx) : Option Nat → List (Bool × Nat × Nat) → List Nat × Flags
  | _, [] => ([], 0)
  | acc, (m, v, d) :: ls =>
    if m then
      let r : Rnd :=
        match acc with
        | none => if isFloatKind c.fmt then c.pass (dazE c.daz (laneT c.fmt) v) else ⟨v, 0⟩
        | some s => if isFloatKind c.fmt then c.add s v 0 else c.addI s v 0
      let t := scanFrom c (some r.code) ls
      (r.code :: t.1, r.fl ||| t.2)
    else
      let t := scanFrom c acc ls
      (d :: t.1, t.2)

/-- `vscan` (R131). -/
def rowScan (c : LaneCtx) (mask : BitVec 512) (a d : Row) : Row × Flags :=
  let r := scanFrom c none ((laneMask c.fmt mask).zip ((rowLanes c.fmt a).zip (rowLanes c.fmt d)))
  (laneRow c.fmt r.1, r.2)

/-! ## Conversion (R132) -/

/-- The targets that round stochastically under mode 5 (R36). -/
def isStochastic (f : BitVec 4) : Bool :=
  f == fBF16 || f == fFP16 || f == fE4M3 || f == fE5M2 || f == fE2M1 || (ifmt f).isSome

/-- Rows that a packed array of a format takes beside lanes of another (R132). -/
def packedRows (lane f : BitVec 4) : Nat := (laneCount lane * elemW f + 8191) / 8192

/-- `vcvt` of the source lanes or elements `xs` into the old destination elements `ds`; `rms` gives each lane's mode. -/
def cvtAll (src dst : BitVec 4) (sat daz ftz : Bool) (rms : List Rm) (mask : List Bool) (xs ds : List Nat) :
    List Nat × Flags :=
  let rs := (mask.zip (rms.zip (xs.zip ds))).map (fun q =>
    if q.1 then convE src dst q.2.1 sat daz ftz q.2.2.1 else ⟨q.2.2.2, 0⟩)
  (rs.map (·.code), orFlags (rs.map (·.fl)))

/-- `vcvt` from source bytes to destination bytes; `unpack` is the direction of `acct`.cdir. -/
def rowCvt (c : LaneCtx) (f : BitVec 4) (sat unpack : Bool) (rms : List Rm) (mask : BitVec 512) (a d : List Byte) :
    List Byte × Flags :=
  let n := laneCount c.fmt
  let (src, dst) := if unpack then (f, c.fmt) else (c.fmt, f)
  let r := cvtAll src dst sat c.daz c.ftz rms (laneMask c.fmt mask) (unpackE (elemW src) n a) (unpackE (elemW dst) n d)
  let out := packE (elemW dst) r.1
  (out ++ d.drop out.length, r.2)

/-! ## Reductions and sparse helpers (R133 to R136) -/

/-- One operation of the halving tree; an absent operand is the identity (R51). -/
def redOp (pass : Nat → Rnd) (op : Nat → Nat → Rnd) : Option Nat → Option Nat → Option Nat × Flags
  | none, none => (none, 0)
  | some v, none => (some (pass v).code, (pass v).fl)
  | none, some v => (some (pass v).code, (pass v).fl)
  | some a, some b => (some (op a b).code, (op a b).fl)

/-- The halving tree over 2^n lanes (R51). -/
def redTree (pass : Nat → Rnd) (op : Nat → Nat → Rnd) : Nat → List (Option Nat) → Option Nat × Flags
  | 0, t => ((t.head?).getD none, 0)
  | n + 1, t =>
    let h := t.length / 2
    let rs := ((t.take h).zip (t.drop h)).map (fun p => redOp pass op p.1 p.2)
    let r := redTree pass op n (rs.map (·.1))
    (r.1, orFlags (rs.map (·.2)) ||| r.2)

/-- A reduction of the active lanes: the result, absent if no lane is active, and the flags. -/
def rowRed (c : LaneCtx) (float : Bool) (op : LaneFn) (mask : BitVec 512) (a : Row) : Option Nat × Flags :=
  let t := ((laneMask c.fmt mask).zip (rowLanes c.fmt a)).map (fun q =>
    if q.1 then some (if float then dazE c.daz (laneT c.fmt) q.2 else q.2) else none)
  redTree (fun v => if float then c.pass v else ⟨v, 0⟩) (fun x y => op c x y 0) (Nat.log2 (laneCount c.fmt)) t

/-- A live lane of the Winnow scan (R134). -/
def laneLive (c : LaneCtx) (v : Nat) : Bool := if isFloatKind c.fmt then !(c.num v).isZero else v != 0

/-- Groups of `g` lanes that hold an active live lane, in ascending order (R134). -/
def liveGroups (g : Nat) : Nat → Nat → List Bool → List Nat
  | 0, _, _ => []
  | n + 1, k, ls => (if (ls.take g).any id then [k] else []) ++ liveGroups g n (k + 1) (ls.drop g)

/-- `vnz` (R134): the list written, and its length. -/
def rowNz (c : LaneCtx) (g : Nat) (mask : BitVec 512) (a : Row) : Row × Nat :=
  let ls := ((laneMask c.fmt mask).zip (rowLanes c.fmt a)).map (fun q => q.1 && laneLive c q.2)
  let out := liveGroups g (laneCount c.fmt / g) 0 ls
  (laneRow c.fmt (out ++ List.replicate (laneCount c.fmt - out.length) (2 ^ elemW c.fmt - 1)), out.length)

/-- `vhist` for bin `b` (R136). -/
def rowHist (f : BitVec 4) (mask : BitVec 512) (a : Row) (b : Nat) (bin : Row) : Row :=
  laneRow f (((laneMask f mask).zip ((rowLanes f a).zip (rowLanes f bin))).map (fun q =>
    if q.1 && decide (q.2.1 = b) then (q.2.2 + 1) % 2 ^ elemW f else q.2.2))

/-- `vhmerge` (R136). -/
def rowHmerge (f : BitVec 4) (mask : BitVec 512) (bins : List Row) (d : Row) : Row :=
  let sums := bins.map (fun r =>
    (((laneMask f mask).zip (rowLanes f r)).map (fun q => if q.1 then q.2 else 0)).foldl (· + ·) 0)
  let old := rowLanes f d
  laneRow f (((old.take 16).zip sums).map (fun p => (p.1 + p.2) % 2 ^ elemW f) ++ old.drop 16)

end Sys2Proof.Machine
end

