-- ==== Sys2Proof/Machine/Vector.lean ====
section
/-! DEFINITION. The vector words of strands (R111 to R136). -/

namespace Sys2Proof.Machine

/-- The accumulator row of register n (R115); `reg(n)` of a run of registers is `row` of n mod 32. -/
def Strand.row (st : Strand) (n : Nat) : Nat :=
  let n := n % 32
  if n < 16 then (st.vbase.toNat + n) % 512 else (st.vbase.toNat + 16 + (n - 16 + st.rrb.toNat) % 16) % 512

/-- How a strand's vector words read and round (R36). -/
def Strand.lanes (st : Strand) : LaneCtx := { fmt := st.fmt, rm := st.rm, daz := st.daz, ftz := st.ftz, ann := st.zmul }

/-- The bytes of an accumulator row. -/
def rowSpan (core row : Nat) : Span := (accLoc core (row * 1024), accLoc core (row * 1024) + 1024)

/-- The contents of a row. -/
def State.rowAt (s : State) (core row : Nat) : Row := s.mem.read (accLoc core (row * 1024)) 1024

/-- A row written, of which the word writes some runs; its other bytes stay (R118). -/
def State.putRow (s : State) (core row : Nat) (runs : List Span) (r : Row) : State :=
  (s.writeRuns runs).setMem (s.mem.write (accLoc core (row * 1024)) r)

/-- The rows that an instruction reads and writes, the scratchpad runs beside them, and the runs of the rows that it
writes. -/
structure Touch where
  rd  : List Nat
  wr  : List Nat
  mrd : List Span
  mwr : List Span
  put : List Span

/-- Runs of `es` bytes at rising places joined where they follow each other. -/
def joinRuns (es : Nat) (ls : List Nat) : List Span :=
  (ls.foldl (fun (r : List Span) l =>
    match r with
    | (a, b) :: t => if b = l then (a, l + es) :: t else (l, l + es) :: (a, b) :: t
    | [] => [(l, l + es)]) []).reverse

/-- The bytes of the active lanes of a row. -/
def laneRuns (core row : Nat) (f : BitVec 4) (mask : BitVec 512) : List Span :=
  joinRuns (elemW f / 8) ((((laneMask f mask).zip (List.range (laneCount f))).filter (·.1)).map (fun q =>
    accLoc core (row * 1024) + q.2 * (elemW f / 8)))

/-- The lowest row of a set that the kernel's teams do not own (R116). -/
def KDesc.badRow (d : KDesc) (rows : List Nat) : Option Nat :=
  (rows.filter (fun r => decide (r < d.accRows.1) || decide (d.accRows.2 ≤ r))).foldl (fun b r => match b with
    | none => some r
    | some x => some (min x r)) none

/-- A vector word on rows and scratchpad bytes: row ownership (R116), demands and forces (R120, R130), errors met by
its reads and by those of the ECC words that it writes in part (R257), and then its effect. -/
def touchEnd (e : Env) (s : State) (t : Touch) (k : State → WordEnd) : WordEnd :=
  match e.kn.desc.badRow (t.rd ++ t.wr) with
  | some r => .trap 12 false (0x01000000 + BitVec.ofNat 32 (0x400 * r)) e.st s
  | none =>
    let rd := t.rd.map (rowSpan e.core) ++ t.mrd
    let (s, w) := s.reachAll e.core e.mark (e.demander 0) rd (t.wr.map (rowSpan e.core) ++ t.mwr)
    if w then .block (.poll e.mark) s
    else
      match s.checkSpans e.kn.ctx (rd ++ partWords (t.put ++ t.mwr)) with
      | (s, some p) => .ended (s.memError e.tm.lid p)
      | (s, none) => k s

/-- A word from vector sources to a vector destination; `useB` and `useD` say whether vs2 and the old vd are read. -/
def rowWord (s : State) (d a b : VReg) (p : PReg) (useB useD : Bool) (f : LaneFn) : Host.Outcome State Fault Refusal :=
  vecWord s [] [] (fun e =>
    let row (r : VReg) : Nat := e.st.row r.toNat
    let rd := row a :: ((if useB then [row b] else []) ++ (if useD then [row d] else []))
    let put := laneRuns e.core (row d) e.st.fmt (e.st.getP p)
    touchEnd e s { rd := rd, wr := [row d], mrd := [], mwr := [], put := put } (fun s =>
      let r := rowMap e.st.lanes f (e.st.getP p) (s.rowAt e.core (row a)) (s.rowAt e.core (row b)) (s.rowAt e.core (row d))
      floatEnd e.st (s.putRow e.core (row d) put r.1) r.2))

/-- A compare word (R126). -/
def cmpWord (s : State) (d : PReg) (a b : VReg) (p : PReg) (f : LaneCmp) : Host.Outcome State Fault Refusal :=
  vecWord s [] [] (fun e =>
    let row (r : VReg) : Nat := e.st.row r.toNat
    touchEnd e s { rd := [row a, row b], wr := [], mrd := [], mwr := [], put := [] } (fun s =>
      let r := rowCmp e.st.lanes f (e.st.getP p) (s.rowAt e.core (row a)) (s.rowAt e.core (row b))
      floatEnd (e.st.setP d r.1) s r.2))

/-- VADD.F (R123). -/
def execVaddF (d a b : VReg) (p : PReg) (s : State) : Host.Outcome State Fault Refusal :=
  rowWord s d a b p true false LaneCtx.add

/-- VSUB.F (R123). -/
def execVsubF (d a b : VReg) (p : PReg) (s : State) : Host.Outcome State Fault Refusal :=
  rowWord s d a b p true false LaneCtx.sub

/-- VMUL.F (R123). -/
def execVmulF (d a b : VReg) (p : PReg) (s : State) : Host.Outcome State Fault Refusal :=
  rowWord s d a b p true false LaneCtx.mul

/-- VFMA.F (R123). -/
def execVfmaF (d a b : VReg) (p : PReg) (s : State) : Host.Outcome State Fault Refusal :=
  rowWord s d a b p true true LaneCtx.fma

/-- VMIN.F (R123). -/
def execVminF (d a b : VReg) (p : PReg) (s : State) : Host.Outcome State Fault Refusal :=
  rowWord s d a b p true false LaneCtx.min

/-- VMAX.F (R123). -/
def execVmaxF (d a b : VReg) (p : PReg) (s : State) : Host.Outcome State Fault Refusal :=
  rowWord s d a b p true false LaneCtx.max

/-- VABSF (R123). -/
def execVabsF (d a : VReg) (p : PReg) (s : State) : Host.Outcome State Fault Refusal :=
  rowWord s d a a p false false LaneCtx.abs

/-- VNEGF (R123). -/
def execVnegF (d a : VReg) (p : PReg) (s : State) : Host.Outcome State Fault Refusal :=
  rowWord s d a a p false false LaneCtx.neg

/-- VRCP (R124). -/
def execVrcp (d a : VReg) (p : PReg) (s : State) : Host.Outcome State Fault Refusal :=
  rowWord s d a a p false false LaneCtx.rcp

/-- VSQRT (R124). -/
def execVsqrt (d a : VReg) (p : PReg) (s : State) : Host.Outcome State Fault Refusal :=
  rowWord s d a a p false false LaneCtx.sqrt

/-- VRSQRT (R124). -/
def execVrsqrt (d a : VReg) (p : PReg) (s : State) : Host.Outcome State Fault Refusal :=
  rowWord s d a a p false false LaneCtx.rsqrt

/-- VEXP2 (R124). -/
def execVexp2 (d a : VReg) (p : PReg) (s : State) : Host.Outcome State Fault Refusal :=
  rowWord s d a a p false false LaneCtx.exp2

/-- VLOG2 (R124). -/
def execVlog2 (d a : VReg) (p : PReg) (s : State) : Host.Outcome State Fault Refusal :=
  rowWord s d a a p false false LaneCtx.log2

/-- VMV (R127). -/
def execVmv (d a : VReg) (p : PReg) (s : State) : Host.Outcome State Fault Refusal :=
  rowWord s d a a p false false LaneCtx.move

/-- VADDI (R125). -/
def execVaddI (d a b : VReg) (p : PReg) (s : State) : Host.Outcome State Fault Refusal :=
  rowWord s d a b p true false LaneCtx.addI

/-- VSUBI (R125). -/
def execVsubI (d a b : VReg) (p : PReg) (s : State) : Host.Outcome State Fault Refusal :=
  rowWord s d a b p true false LaneCtx.subI

/-- VMULI (R125). -/
def execVmulI (d a b : VReg) (p : PReg) (s : State) : Host.Outcome State Fault Refusal :=
  rowWord s d a b p true false LaneCtx.mulI

/-- VMULHI (R125). -/
def execVmulhI (d a b : VReg) (p : PReg) (s : State) : Host.Outcome State Fault Refusal :=
  rowWord s d a b p true false LaneCtx.mulhI

/-- VMINI (R125). -/
def execVminI (d a b : VReg) (p : PReg) (s : State) : Host.Outcome State Fault Refusal :=
  rowWord s d a b p true false LaneCtx.minI

/-- VMAXI (R125). -/
def execVmaxI (d a b : VReg) (p : PReg) (s : State) : Host.Outcome State Fault Refusal :=
  rowWord s d a b p true false LaneCtx.maxI

/-- VAND (R125). -/
def execVand (d a b : VReg) (p : PReg) (s : State) : Host.Outcome State Fault Refusal :=
  rowWord s d a b p true false LaneCtx.and

/-- VOR (R125). -/
def execVor (d a b : VReg) (p : PReg) (s : State) : Host.Outcome State Fault Refusal :=
  rowWord s d a b p true false LaneCtx.or

/-- VXOR (R125). -/
def execVxor (d a b : VReg) (p : PReg) (s : State) : Host.Outcome State Fault Refusal :=
  rowWord s d a b p true false LaneCtx.xor

/-- VSHL (R125). -/
def execVshl (d a b : VReg) (p : PReg) (s : State) : Host.Outcome State Fault Refusal :=
  rowWord s d a b p true false LaneCtx.shl

/-- VSHR (R125). -/
def execVshr (d a b : VReg) (p : PReg) (s : State) : Host.Outcome State Fault Refusal :=
  rowWord s d a b p true false LaneCtx.shr

/-- VSRA (R125). -/
def execVsra (d a b : VReg) (p : PReg) (s : State) : Host.Outcome State Fault Refusal :=
  rowWord s d a b p true false LaneCtx.sra

/-- VCMPFEQ (R126). -/
def execVcmpFEq (d : PReg) (a b : VReg) (p : PReg) (s : State) : Host.Outcome State Fault Refusal :=
  cmpWord s d a b p LaneCtx.feq

/-- VCMPFNE (R126). -/
def execVcmpFNe (d : PReg) (a b : VReg) (p : PReg) (s : State) : Host.Outcome State Fault Refusal :=
  cmpWord s d a b p LaneCtx.fne

/-- VCMPFLT (R126). -/
def execVcmpFLt (d : PReg) (a b : VReg) (p : PReg) (s : State) : Host.Outcome State Fault Refusal :=
  cmpWord s d a b p LaneCtx.flt

/-- VCMPFLE (R126). -/
def execVcmpFLe (d : PReg) (a b : VReg) (p : PReg) (s : State) : Host.Outcome State Fault Refusal :=
  cmpWord s d a b p LaneCtx.fle

/-- VCMPIEQ (R126). -/
def execVcmpIEq (d : PReg) (a b : VReg) (p : PReg) (s : State) : Host.Outcome State Fault Refusal :=
  cmpWord s d a b p LaneCtx.ieq

/-- VCMPINE (R126). -/
def execVcmpINe (d : PReg) (a b : VReg) (p : PReg) (s : State) : Host.Outcome State Fault Refusal :=
  cmpWord s d a b p LaneCtx.ine

/-- VCMPILT (R126). -/
def execVcmpILt (d : PReg) (a b : VReg) (p : PReg) (s : State) : Host.Outcome State Fault Refusal :=
  cmpWord s d a b p LaneCtx.ilt

/-- VCMPILE (R126). -/
def execVcmpILe (d : PReg) (a b : VReg) (p : PReg) (s : State) : Host.Outcome State Fault Refusal :=
  cmpWord s d a b p LaneCtx.ile

/-- VCMPILTU (R126). -/
def execVcmpILtu (d : PReg) (a b : VReg) (p : PReg) (s : State) : Host.Outcome State Fault Refusal :=
  cmpWord s d a b p LaneCtx.iltu

/-- VCMPILEU (R126). -/
def execVcmpILeu (d : PReg) (a b : VReg) (p : PReg) (s : State) : Host.Outcome State Fault Refusal :=
  cmpWord s d a b p LaneCtx.ileu

/-- A word that makes the lanes of a row that `m` makes active of other rows, without flags. -/
def plainWord (s : State) (xs : List XReg) (d : VReg) (srcs : List VReg) (m : PReg) (f : Strand → List Row → Row → Row) :
    Host.Outcome State Fault Refusal :=
  vecWord s xs [] (fun e =>
    let row (r : VReg) : Nat := e.st.row r.toNat
    let put := laneRuns e.core (row d) e.st.fmt (e.st.getP m)
    touchEnd e s { rd := srcs.map row, wr := [row d], mrd := [], mwr := [], put := put } (fun s =>
      .done e.st (s.putRow e.core (row d) put (f e.st (srcs.map (fun r => s.rowAt e.core (row r))) (s.rowAt e.core (row d))))))

/-- The n-th of a list of rows. -/
def nthRow (rs : List Row) (n : Nat) : Row := (rs[n]?).getD []

/-- VSEL (R127). -/
def execVsel (d a b : VReg) (p : PReg) (s : State) : Host.Outcome State Fault Refusal :=
  plainWord s [] d [a, b] 0 (fun st rs _ => rowSel st.fmt (st.getP p) (nthRow rs 0) (nthRow rs 1))

/-- VBCAST (R127). -/
def execVbcast (d : VReg) (x : XReg) (p : PReg) (s : State) : Host.Outcome State Fault Refusal :=
  plainWord s [x] d [] p (fun st _ old => rowBcast st.fmt (st.getP p) (st.getX x) old)

/-- VPERM (R131). -/
def execVperm (d a b : VReg) (p : PReg) (s : State) : Host.Outcome State Fault Refusal :=
  plainWord s [] d [a, b] p (fun st rs old => rowPerm st.fmt (st.getP p) (nthRow rs 0) (nthRow rs 1) old)

/-- VSLIDE (R131). -/
def execVslide (d a : VReg) (x : XReg) (p : PReg) (s : State) : Host.Outcome State Fault Refusal :=
  plainWord s [x] d [a] p (fun st rs old => rowSlide st.fmt (st.getP p) (st.getX x).toInt (nthRow rs 0) old)

/-- VSCAN (R131). -/
def execVscan (d a : VReg) (p : PReg) (s : State) : Host.Outcome State Fault Refusal :=
  vecWord s [] [] (fun e =>
    let row (r : VReg) : Nat := e.st.row r.toNat
    let put := laneRuns e.core (row d) e.st.fmt (e.st.getP p)
    touchEnd e s { rd := [row a], wr := [row d], mrd := [], mwr := [], put := put } (fun s =>
      let r := rowScan e.st.lanes (e.st.getP p) (s.rowAt e.core (row a)) (s.rowAt e.core (row d))
      floatEnd e.st (s.putRow e.core (row d) put r.1) r.2))

/-- VPAND (R128). -/
def execVpand (d a b : PReg) (s : State) : Host.Outcome State Fault Refusal :=
  vecWord s [] [] (fun e => .done (e.st.setP d (e.st.getP a &&& e.st.getP b)) s)

/-- VPOR (R128). -/
def execVpor (d a b : PReg) (s : State) : Host.Outcome State Fault Refusal :=
  vecWord s [] [] (fun e => .done (e.st.setP d (e.st.getP a ||| e.st.getP b)) s)

/-- VPNOT (R128). -/
def execVpnot (d a : PReg) (s : State) : Host.Outcome State Fault Refusal :=
  vecWord s [] [] (fun e => .done (e.st.setP d (~~~(e.st.getP a))) s)

/-- VPCNT (R128). -/
def execVpcnt (d : XReg) (a : PReg) (s : State) : Host.Outcome State Fault Refusal :=
  vecWord s [] [d] (fun e =>
    .done (e.st.later d (BitVec.ofNat 32 ((laneMask e.st.fmt (e.st.getP a)).countP id))) s)

/-! ## Memory (R129, R130) -/

/-- What the checks of the active lanes find. -/
inductive LaneCheck where
  | ok (at_ : List (Nat × Nat))
  | wait
  | trap (cause : Nat) (a : Word)

/-- The active lanes checked in ascending order (R130): locations by lane. A lane that waits for a peer team does not hold up the
check of those after it, so a later lane that fails traps at once (DESIGN CHOICE, log 42). -/
def State.checkLanes (s : State) (e : Env) (es : Nat) : List (Nat × Word) → LaneCheck
  | [] => .ok []
  | (i, a) :: ls =>
    if a.toNat % es ≠ 0 then .trap 11 a
    else
      match s.dataAt e a.toNat es with
      | .bad => .trap 12 a
      | .wait => (match s.checkLanes e es ls with | .trap c b => .trap c b | _ => .wait)
      | .loc l => (match s.checkLanes e es ls with
        | .ok xs => .ok ((i, l) :: xs)
        | r => r)

/-- Elements stored in order, runs of neighbours at once. -/
def State.scatter (s : State) (es : Nat) (xs : List (Nat × Nat)) : State :=
  let runs := (xs.foldl (fun (r : List (Nat × List Nat)) x =>
    match r with
    | (a, vs) :: t => if a + es * vs.length = x.1 then (a, x.2 :: vs) :: t else (x.1, [x.2]) :: (a, vs) :: t
    | [] => [(x.1, [x.2])]) []).reverse
  s.storeAll (runs.map (fun r => (r.1, leJoin es r.2.reverse)))

/-- The active lanes of a strand with the addresses that `addr` gives. -/
def laneAddrs (st : Strand) (p : PReg) (addr : Nat → Word) : List (Nat × Word) :=
  (((laneMask st.fmt (st.getP p)).zip (List.range (laneCount st.fmt))).filter (·.1)).map (fun q => (q.2, addr q.2))

/-- A vector load with lane addresses (R129, R130). A row outside the team's rows (R116) is reported before a lane's address;
the spec gives no order of the two (DESIGN CHOICE, log 42). -/
def vloadEnd (e : Env) (s : State) (d : VReg) (p : PReg) (rd : List Nat) (addr : State → Nat → Word) : WordEnd :=
  let es := elemW e.st.fmt / 8
  let row := e.st.row d.toNat
  match e.kn.desc.badRow (row :: rd) with
  | some r => .trap 12 false (0x01000000 + BitVec.ofNat 32 (0x400 * r)) e.st s
  | none =>
    match s.checkLanes e es (laneAddrs e.st p (addr s)) with
    | .trap c a => .trap c false a e.st s
    | .wait => .block (.poll e.mark) s
    | .ok at_ =>
      let put := laneRuns e.core row e.st.fmt (e.st.getP p)
      touchEnd e s { rd := rd, wr := [row], mrd := joinRuns es (at_.map (·.2)), mwr := [], put := put } (fun s =>
        let old := (rowLanes e.st.fmt (s.rowAt e.core row)).toArray
        let new := at_.foldl (fun (v : Array Nat) x => v.setIfInBounds x.1 (s.mem.num x.2 es)) old
        .done e.st (s.putRow e.core row put (laneRow e.st.fmt new.toList)))

/-- A vector store with lane addresses (R129, R130). -/
def vstoreEnd (e : Env) (s : State) (d : VReg) (p : PReg) (addr : Nat → Word) : WordEnd :=
  let es := elemW e.st.fmt / 8
  let row := e.st.row d.toNat
  match e.kn.desc.badRow [row] with
  | some r => .trap 12 false (0x01000000 + BitVec.ofNat 32 (0x400 * r)) e.st s
  | none =>
    match s.checkLanes e es (laneAddrs e.st p addr) with
    | .trap c a => .trap c false a e.st s
    | .wait => .block (.poll e.mark) s
    | .ok at_ =>
      touchEnd e s { rd := [row], wr := [], mrd := [], mwr := joinRuns es (at_.map (·.2)), put := [] } (fun s =>
        let src := (rowLanes e.st.fmt (s.rowAt e.core row)).toArray
        .done e.st (s.scatter es (at_.map (fun x => (x.2, src.getD x.1 0)))))

/-- The element size in bytes as a word. -/
def Strand.esize (st : Strand) : Word := BitVec.ofNat 32 (elemW st.fmt / 8)

/-- VLD (R129). -/
def execVld (d : VReg) (x : XReg) (p : PReg) (s : State) : Host.Outcome State Fault Refusal :=
  vecWord s [x] [] (fun e => vloadEnd e s d p [] (fun _ i => e.st.getX x + BitVec.ofNat 32 i * e.st.esize))

/-- VST (R129). -/
def execVst (d : VReg) (x : XReg) (p : PReg) (s : State) : Host.Outcome State Fault Refusal :=
  vecWord s [x] [] (fun e => vstoreEnd e s d p (fun i => e.st.getX x + BitVec.ofNat 32 i * e.st.esize))

/-- VLDS (R129). -/
def execVlds (d : VReg) (x y : XReg) (p : PReg) (s : State) : Host.Outcome State Fault Refusal :=
  vecWord s [x, y] [] (fun e => vloadEnd e s d p [] (fun _ i => e.st.getX x + BitVec.ofNat 32 i * e.st.getX y))

/-- VSTS (R129). -/
def execVsts (d : VReg) (x y : XReg) (p : PReg) (s : State) : Host.Outcome State Fault Refusal :=
  vecWord s [x, y] [] (fun e => vstoreEnd e s d p (fun i => e.st.getX x + BitVec.ofNat 32 i * e.st.getX y))

/-- VLDX (R129): the index row is demanded before its lanes are read. -/
def execVldx (d : VReg) (x : XReg) (b : VReg) (p : PReg) (s : State) : Host.Outcome State Fault Refusal :=
  vecWord s [x] [] (fun e =>
    let row := e.st.row b.toNat
    match e.kn.desc.badRow [e.st.row d.toNat, row] with
    | some r => .trap 12 false (0x01000000 + BitVec.ofNat 32 (0x400 * r)) e.st s
    | none =>
      touchEnd e s { rd := [row], wr := [], mrd := [], mwr := [], put := [] } (fun s =>
        let idx := (rowLanes e.st.fmt (s.rowAt e.core row)).toArray
        vloadEnd e s d p [row] (fun _ i => e.st.getX x + BitVec.ofNat 32 (idx.getD i 0) * e.st.esize)))

/-! ## Conversion, reductions and sparse helpers -/

/-- The generators of a strand after a stochastic `vcvt` advances those of the active lanes, and the values drawn
(R37, R38). -/
def Strand.draw (st : Strand) (mask : List Bool) : Strand × List Word :=
  let cur (l : Nat) : Word := (st.gens.get? l).getD (genSeed st.srseed l)
  let new := (mask.zip (List.range mask.length)).map (fun q => (q.1, q.2, if q.1 then genNext (cur q.2) else 0))
  let kept := st.gens.filter (fun g => !(new.any (fun n => n.1 && decide (n.2.1 = g.1))))
  ({ st with gens := (new.filter (·.1)).foldl (fun t n => Tbl.set t n.2.1 n.2.2) kept }, new.map (·.2.2))

/-- The bytes of an array of elements of a format, packed into rows, of which the active ones are written; a byte that
holds two elements is written when either is. -/
def cvtRuns (core : Nat) (rows : List Nat) (f : BitVec 4) (mask : List Bool) : List Span :=
  let w := elemW f
  let byte (b : Nat) : Nat := accLoc core ((rows[b / 1024]?).getD 0 * 1024 + b % 1024)
  joinRuns 1 ((((mask.zip (List.range mask.length)).filter (·.1)).flatMap (fun q =>
    (List.range ((q.2 * w + w + 7) / 8 - q.2 * w / 8)).map (fun i => byte (q.2 * w / 8 + i)))).eraseDups)

/-- VCVT (R132). -/
def execVcvt (d a : VReg) (f : BitVec 4) (sat : Bool) (p : PReg) (s : State) : Host.Outcome State Fault Refusal :=
  vecWord s [] [] (fun e =>
    let n := packedRows e.st.fmt f
    let run (r : VReg) (k : Nat) : List Nat := (List.range k).map (fun i => e.st.row (r.toNat + i))
    let src := run a (if e.st.cdir then n else 1)
    let dst := run d (if e.st.cdir then 1 else n)
    let mask := e.st.getP p
    let target := if e.st.cdir then e.st.fmt else f
    let put := cvtRuns e.core dst target (laneMask e.st.fmt mask)
    touchEnd e s { rd := src, wr := dst, mrd := [], mwr := [], put := put } (fun s =>
      let sto := decide (e.st.vfrm.toNat % 8 = 5) && isStochastic target
      let (st, us) := if sto then e.st.draw (laneMask e.st.fmt mask) else (e.st, [])
      let rms := if sto then us.map (fun u => rmOf 5 u) else List.replicate (laneCount e.st.fmt) e.st.rm
      let r := rowCvt e.st.lanes f sat e.st.cdir rms mask (src.flatMap (fun q => s.rowAt e.core q))
        (dst.flatMap (fun q => s.rowAt e.core q))
      let s := (dst.zip (List.range dst.length)).foldl (fun s q =>
        s.putRow e.core q.1 (put.filter (fun x => decide ((rowSpan e.core q.1).1 ≤ x.1) && decide (x.1 < (rowSpan e.core q.1).2)))
          ((r.1.drop (1024 * q.2)).take 1024)) s
      floatEnd st s r.2))

/-- A reduction word; `idn` is its identity and `ext` extends a result to 32 bits (R133). -/
def redWord (s : State) (d : XReg) (a : VReg) (p : PReg) (f : LaneCtx → Bool × LaneFn × Nat × (Nat → Word)) :
    Host.Outcome State Fault Refusal :=
  vecWord s [] [d] (fun e =>
    let row := e.st.row a.toNat
    touchEnd e s { rd := [row], wr := [], mrd := [], mwr := [], put := [] } (fun s =>
      let c := e.st.lanes
      let (fl, op, idn, ext) := f c
      let r := rowRed c fl op (e.st.getP p) (s.rowAt e.core row)
      floatEnd (e.st.later d (ext (r.1.getD idn))) s r.2))

/-- A result of the lane's kind: a 16-bit integer is sign-extended, a 16-bit float zero-extended (R133). -/
def redExt (c : LaneCtx) (v : Nat) : Word :=
  if isFloatKind c.fmt then BitVec.ofNat 32 v else BitVec.ofInt 32 (c.sgn v)

/-- The code of an infinity of the lane's float type. -/
def LaneCtx.infCode (c : LaneCtx) (n : Bool) : Nat := (roundTo (laneT c.fmt) .rne false (.inf n)).code

/-- VRED_SUM (R51, R133). -/
def execVredSum (d : XReg) (a : VReg) (p : PReg) (s : State) : Host.Outcome State Fault Refusal :=
  redWord s d a p (fun c =>
    if isFloatKind c.fmt then (true, LaneCtx.add, 2 ^ (elemW c.fmt - 1), redExt c) else (false, LaneCtx.addI, 0, redExt c))

/-- VRED_MAX (R51, R133). -/
def execVredMax (d : XReg) (a : VReg) (p : PReg) (s : State) : Host.Outcome State Fault Refusal :=
  redWord s d a p (fun c =>
    if isFloatKind c.fmt then (true, LaneCtx.max, c.infCode true, redExt c)
    else (false, LaneCtx.maxI, 2 ^ (elemW c.fmt - 1), redExt c))

/-- VRED_MIN (R51, R133). -/
def execVredMin (d : XReg) (a : VReg) (p : PReg) (s : State) : Host.Outcome State Fault Refusal :=
  redWord s d a p (fun c =>
    if isFloatKind c.fmt then (true, LaneCtx.min, c.infCode false, redExt c)
    else (false, LaneCtx.minI, 2 ^ (elemW c.fmt - 1) - 1, redExt c))

/-- VRED_AND (R51, R133). -/
def execVredAnd (d : XReg) (a : VReg) (p : PReg) (s : State) : Host.Outcome State Fault Refusal :=
  redWord s d a p (fun c => (false, LaneCtx.and, 2 ^ elemW c.fmt - 1, BitVec.ofNat 32))

/-- VRED_OR (R51, R133). -/
def execVredOr (d : XReg) (a : VReg) (p : PReg) (s : State) : Host.Outcome State Fault Refusal :=
  redWord s d a p (fun _ => (false, LaneCtx.or, 0, BitVec.ofNat 32))

/-- VNZ (R134). -/
def execVnz (d a : VReg) (x : XReg) (p : PReg) (s : State) : Host.Outcome State Fault Refusal :=
  vecWord s [] [x] (fun e =>
    let row (r : VReg) : Nat := e.st.row r.toNat
    let put := [rowSpan e.core (row d)]
    touchEnd e s { rd := [row a], wr := [row d], mrd := [], mwr := [], put := put } (fun s =>
      let r := rowNz e.st.lanes (2 ^ e.st.wg.toNat) (e.st.getP p) (s.rowAt e.core (row a))
      .done (e.st.later x (BitVec.ofNat 32 r.2)) (s.putRow e.core (row d) put r.1)))

/-- VCST (R135): the pointer word is read and advanced in this one step. -/
def execVcst (d : VReg) (x : XReg) (p : PReg) (s : State) : Host.Outcome State Fault Refusal :=
  vecWord s [x] [] (fun e =>
    let a := e.st.getX x
    let row := e.st.row d.toNat
    let es := elemW e.st.fmt / 8
    match e.kn.desc.badRow [row] with
    | some r => .trap 12 false (0x01000000 + BitVec.ofNat 32 (0x400 * r)) e.st s
    | none =>
      match s.checkLanes e 4 [(0, a)] with
      | .trap c b => .trap c false b e.st s
      | .ok [(_, l)] =>
        touchEnd e s { rd := [row], wr := [], mrd := [(l, l + 4)], mwr := [], put := [] } (fun s =>
          let q := BitVec.ofNat 32 (s.mem.num l 4)
          let live := ((laneMask e.st.fmt (e.st.getP p)).zip (rowLanes e.st.fmt (s.rowAt e.core row))).filter (·.1)
          let addrs := (List.range live.length).map (fun j => (j, q + BitVec.ofNat 32 (j * es)))
          if q.toNat % es ≠ 0 then .trap 11 false q e.st s
          else
            match s.checkLanes e es addrs with
            | .trap c b => .trap c false b e.st s
            | .wait => .block (.poll e.mark) s
            | .ok at_ =>
              if live.isEmpty then .done e.st s
              else
                touchEnd e s { rd := [], wr := [], mrd := [], mwr := (l, l + 4) :: joinRuns es (at_.map (·.2)), put := [] } (fun s =>
                  let s := s.store l (leBytes 4 (q + BitVec.ofNat 32 (live.length * es)).toNat)
                  .done e.st (s.scatter es ((at_.map (·.2)).zip (live.map (·.2))))))
      | _ => .block (.poll e.mark) s)

/-- The lanes of bin `b` that `vhist` counts in. -/
def histRuns (core row : Nat) (f : BitVec 4) (mask : BitVec 512) (a : Row) (b : Nat) : List Span :=
  joinRuns (elemW f / 8) ((((laneMask f mask).zip ((rowLanes f a).zip (List.range (laneCount f)))).filter (fun q =>
    q.1 && decide (q.2.1 = b))).map (fun q => accLoc core (row * 1024) + q.2.2 * (elemW f / 8)))

/-- VHIST (R136). -/
def execVhist (d a : VReg) (p : PReg) (s : State) : Host.Outcome State Fault Refusal :=
  vecWord s [] [] (fun e =>
    let bins := (List.range 16).map (fun b => e.st.row (d.toNat + b))
    touchEnd e s { rd := e.st.row a.toNat :: bins, wr := bins, mrd := [], mwr := [], put := [] } (fun s =>
      let src := s.rowAt e.core (e.st.row a.toNat)
      let new := (bins.zip (List.range 16)).map (fun q =>
        (q.1, histRuns e.core q.1 e.st.fmt (e.st.getP p) src q.2, rowHist e.st.fmt (e.st.getP p) src q.2 (s.rowAt e.core q.1)))
      .done e.st (new.foldl (fun s q => s.putRow e.core q.1 q.2.1 q.2.2) s)))

/-- VHMERGE (R136). -/
def execVhmerge (d a : VReg) (p : PReg) (s : State) : Host.Outcome State Fault Refusal :=
  vecWord s [] [] (fun e =>
    let bins := (List.range 16).map (fun b => e.st.row (a.toNat + b))
    let row := e.st.row d.toNat
    let put := [(accLoc e.core (row * 1024), accLoc e.core (row * 1024) + 16 * (elemW e.st.fmt / 8))]
    touchEnd e s { rd := row :: bins, wr := [row], mrd := [], mwr := [], put := put } (fun s =>
      .done e.st (s.putRow e.core row put
        (rowHmerge e.st.fmt (e.st.getP p) (bins.map (fun r => s.rowAt e.core r)) (s.rowAt e.core row)))))

end Sys2Proof.Machine
end

