-- ==== Sys2Proof/Machine/Elements.lean ====
section
/-! DEFINITION. Stored elements as tile work and moves read and write them: codes and side entries of regions (R31, R32),
elements that a descriptor's map selects (R167), conversion between any two formats (R42 to R46). -/

namespace Sys2Proof.Machine

/-- The side entries of `n` blocks from bytes: scale and spare (R32). -/
def sideEntries (f : BitVec 4) (n : Nat) (bs : List Byte) : List (Nat × Nat) :=
  if f = fYF4 then (leSplit 2 n bs).map (fun v => (v % 256, v / 256)) else (leSplit 1 n bs).map (fun v => (v, 0))

/-- The bytes of a side entry. -/
def sideOf (f : BitVec 4) (scale spare : Nat) : List Byte :=
  if f = fYF4 then [BitVec.ofNat 8 scale, BitVec.ofNat 8 spare] else [BitVec.ofNat 8 scale]

/-- The value of a stored element (R42, R43, R45); `side` is the entry of its block. -/
def valueOf (f : BitVec 4) (side : Nat × Nat) (code : Nat) : Num :=
  if isBlock f then decodeB f side.1 side.2 code else decodeE f code

/-- The sign of the NaN that an element of a block is (R43, R45): none where the scale makes it NaN, for E8M0 has no
sign (R29); else that of the spare or of the code (log 15). -/
def nanNeg (src : BitVec 4) (side : Nat × Nat) (code : Nat) : Bool :=
  decide (side.1 ≠ 0xFF) && (if src = fYF4 ∧ code = 8 then codeNeg fE4M3 side.2 else codeNeg src code)

/-- A conversion of one stored element to a format without blocks (R40 to R42, R176, R235). -/
def convElem (src dst : BitVec 4) (rm : Rm) (sat : Bool) (side : Nat × Nat) (code : Nat) : Rnd :=
  if isBlock src then
    let x := valueOf src side code
    if dst = fSIGN then ⟨if (if x.isNaN then nanNeg src side code else x.neg) then 1 else 0, 0⟩ else roundTo dst rm sat x
  else convE src dst rm sat false false code

/-- Stored rows held for reading: codes, and side entries for a block format. -/
structure Grab where
  fmt   : BitVec 4
  r0    : Nat
  rows  : Array (Array Nat)
  sides : Array (Array (Nat × Nat))

/-- Rows r0 to r1 of a region. -/
def Mem.grab (m : Mem) (r : Reg) (r0 r1 : Nat) : Grab where
  fmt := r.fmt
  r0 := r0
  rows := ((List.range (r1 - r0)).map (fun k =>
    (unpackE (elemW r.fmt) r.cols (m.read (r.base + (r0 + k) * r.pitch) r.pitch)).toArray)).toArray
  sides :=
    if isBlock r.fmt then
      ((List.range (r1 - r0)).map (fun k =>
        (sideEntries r.fmt (r.cols / 32) (m.read (r.side + (r0 + k) * r.sidePitch) r.sidePitch)).toArray)).toArray
    else #[]

/-- The code of a stored element. -/
def Grab.code (g : Grab) (r c : Nat) : Nat := (g.rows.getD (r - g.r0) #[]).getD c 0

/-- The side entry of the block of a stored element. -/
def Grab.side (g : Grab) (r c : Nat) : Nat × Nat := (g.sides.getD (r - g.r0) #[]).getD (c / 32) (0x7F, 0)

/-- The stored rows that a rectangle (i, j) of a descriptor can select, clipped (R185). -/
def boxRows (d : Desc) (m : Option (List Byte)) (nest : List (BitVec 16)) (i0 i1 j0 j1 : Nat) : Nat × Nat :=
  if i1 ≤ i0 ∨ j1 ≤ j0 then (0, 0)
  else
    let rs := [atCoord d m nest i0 j0, atCoord d m nest i0 (j1 - 1), atCoord d m nest (i1 - 1) j0,
      atCoord d m nest (i1 - 1) (j1 - 1)].map (·.1)
    let lo := clipN (rs.foldl min (rs.headD 0))
    let hi := clipN (rs.foldl max (rs.headD 0) + 1)
    (min lo d.nrows, min hi d.nrows)

/-- A descriptor's elements ready for `at` over a rectangle. -/
def State.grabBox (s : State) (core : Nat) (d : Desc) (m : Option (List Byte)) (nest : List (BitVec 16))
    (i0 i1 j0 j1 : Nat) : Grab :=
  let r := boxRows d m nest i0 i1 j0 j1
  s.mem.grab (descReg d core) r.1 r.2

/-- `at(i, j)` of R167: the stored place, or none for a fill element. -/
def atPlace (d : Desc) (m : Option (List Byte)) (nest : List (BitVec 16)) (i j : Nat) : Option (Nat × Nat) :=
  let p := atCoord d m nest i j
  if 0 ≤ p.1 ∧ p.1 < d.nrows ∧ 0 ≤ p.2 ∧ p.2 < d.ncols then some (p.1.toNat, p.2.toNat) else none

/-- The code and side entry that `at(i, j)` gives; a fill element has scale 0x7F and spare 0 (R167). -/
def Grab.pick (g : Grab) (d : Desc) (m : Option (List Byte)) (nest : List (BitVec 16)) (i j : Nat) : Nat × (Nat × Nat) :=
  match atPlace d m nest i j with
  | some (r, c) => (g.code r c, g.side r c)
  | none => (mapFill m % 2 ^ elemW d.fmt, (0x7F, 0))

/-- Where element (row, col) of a region starts. -/
def Reg.at (r : Reg) (row col : Nat) : Nat := r.base + row * r.pitch + col * elemW r.fmt / 8

/-- Where the side entry of a block of a region lies. -/
def Reg.sideAt (r : Reg) (row blk : Nat) : Nat := r.side + row * r.sidePitch + blk * sideBytes r.fmt

/-- A list cut into pieces of `n`; `fuel` bounds the pieces. -/
def chunks {α : Type} (n : Nat) : Nat → List α → List (List α)
  | 0, _ => []
  | fuel + 1, xs => if xs.isEmpty then [] else xs.take n :: chunks n fuel (xs.drop n)

/-- Values encoded as elements of a row that starts at element 0 of a block: codes, side bytes and flags. -/
def encodeRow (f : BitVec 4) (rm : Rm) (xs : List Num) : List Nat × List Byte × Flags :=
  let bs := (chunks 32 (xs.length / 32 + 1) xs).map (encodeBlock f rm)
  (bs.flatMap (·.codes), bs.flatMap (fun b => sideOf f b.scale b.spare), orFlags (bs.map (·.fl)))

end Sys2Proof.Machine
end

