-- ==== Sys2Proof/Machine/TileRun.lean ====
section
/-! DEFINITION. How dispatched tile work runs (R162, R182, R183, R186, R195, R196): its turn, its peer operands, its
writes, flags and status, and the end of a sheaf. -/

namespace Sys2Proof.Machine

/-- Dispatched work about to run: its core, sheaf and sub-tile, and the demand that dispatched it. -/
structure TileEnv where
  core : Nat
  h    : Sheaf
  u    : Nat
  by_  : Demander

/-- What a sub-tile does: writes, flags, and a status word other than 0 if it ends in error. -/
structure TileOut where
  writes : List (Nat × List Byte)
  fl     : Flags
  status : Word

/-- Work that ends in error with nothing written. -/
def TileOut.fail (code detail : Nat) : TileOut :=
  { writes := [], fl := 0, status := BitVec.ofNat 32 (code + detail * 256) }

/-- Work that ends without error. -/
def TileOut.ok (writes : List (Nat × List Byte)) (fl : Flags) : TileOut := { writes := writes, fl := fl, status := 0 }

/-- The tag that a word carries, and whether it carries one (R159, R196). -/
def tagOf (w : TileWord) : BitVec 15 × Bool :=
  let c := (wordHdr w).chain
  if c.getLsbD 15 then (0, false) else (c.truncate 15, true)

/-- A move command whose access is stopped by a tile fault ends, and its run, with status 0x07 and the core (R195, R247). -/
def State.stopMove (s : State) (core eng num : Nat) : State :=
  s.updEng eng (fun g =>
    match g.cmds.find? (fun c => c.num = num && !c.st.gone) with
    | none => g
    | some c =>
      g.endWith num (BitVec.ofNat 32 (0x07 + core * 2 ^ 13) ||| (c.flags.zeroExtend 32 <<< 8)) 0)

/-- The move commands that a failing sub-tile stops: the one whose access dispatched it, those of which a box waits to read
what it writes, whichever demand dispatched it, and those whose registration waits for it (R145, R195). -/
def State.movesAt (s : State) (core : Nat) (h : Sheaf) (u : Nat) (by_ : Demander) : List (Nat × Nat) :=
  (if by_.kind = 6 then [(by_.agent, by_.num)] else []) ++
    s.seats.filterMap (fun x => match x.acc with
      | .box e n _ => if x.core = core ∧ h.seq < x.mark ∧ spansMeet (h.foot core u) (granulesOf x.runs) = true then some (e, n) else none
      | _ => none) ++
    ((s.core core).sb.filter (fun e => !e.2.live && decide (h.seq < e.2.mark) &&
      (spansMeet (h.foot core u) [(e.2.lo, e.2.hi)] || spansMeet (h.src core u) [(e.2.lo, e.2.hi)]))).map (fun e => (e.2.eng, e.2.num))

/-- A tile fault (R195, R196): it is counted; if the kernel has not failed before, the kernel fails with it. A strand
whose word made the demand traps, which inside its handler is a double trap (R100). -/
def State.tileFault (s : State) (core lid : Nat) (by_ : Demander) (f : TileFault) : State :=
  let s := s.updCnt core (fun c => { c with shfault := c.shfault + 1 })
  match s.kernels.get? lid with
  | none => s
  | some k =>
    if !k.st.live then s
    else
      let twice : Bool := match by_.key.bind (fun key => s.strands.get? key) with
        | some st => st.hflag
        | none => false
      s.fail lid { Faults.none with
        fk := if twice then 1 else 2, cause := if twice then 15 else 16
        sid := if by_.key.isSome then by_.sid else 0x7FF
        info := if twice then 16 else f.status
        pc := if by_.key.isSome then by_.pc else 0xFFFFFFFF, tile := some f }

/-- A sheaf's signal (R162, R182): to its team's semaphore, or to that of the kernel's team on every multicast target. -/
def State.signalSheaf (s : State) (core : Nat) (h : Sheaf) : State :=
  let hd := wordHdr h.word
  if !hd.sigEn then s
  else
    let go (s : State) (c tk : Nat) : State := s.signal c tk hd.sigSem.toNat hd.sigAmt.toNat (hd.scope == 3)
    match tileInstr h.word with
    | .tconv _ _ b _ =>
      if par b 8 8 = 0 then go s core h.team
      else (mcastCores core b).foldl (fun s c => match s.teamOn h.lid c with
        | some tk => go s c tk
        | none => s.updCnt c (fun n => { n with shstray := n.shstray + 1 })) s
    | _ => go s core h.team

/-- A sheaf whose work has all run or been dropped and whose wait has been served signals and is released (R186). -/
def State.settleSheaf (s : State) (core q : Nat) : State :=
  match (s.core core).sheaf q with
  | none => s
  | some h =>
    if h.dying || h.faulted then s.updCore core Core.sweepDead
    else if h.settled && decide (h.wait = .served) then
      (s.updCore core (fun k => { k with stook := k.stook.filter (fun g => g.seq ≠ q) })).signalSheaf core h
    else s

/-- A sub-tile has run. -/
def State.subDone (s : State) (e : TileEnv) : State :=
  (s.updCore e.core (fun k => k.updSheaf e.h.seq (fun h => h.setSub e.u .done))).settleSheaf e.core e.h.seq

/-- Flags of tile work go to the strand that appended it, unless it has ended (R36, R196). -/
def State.raiseFlags (s : State) (lid sid : Nat) (fl : Flags) : State :=
  if fl = 0 then s
  else s.updStrand (strandKey lid sid) (fun st => if st.st = .ended then st else st.raise fl)

/-- Writes of a failing sub-tile, each byte performed or not (R195, log 12). -/
def State.writePart (s : State) (ws : List (Nat × List Byte)) : State :=
  ws.foldl (fun s w =>
    ((List.range w.2.length).zip w.2).foldl (fun s b =>
      if s.choice (w.1 + b.1) then s.store (w.1 + b.1) [b.2] else s) s) s

/-- Work that ends in error: the engine stops, the sheaf is FAULTED and the kernel fails (R186, R195). -/
def State.subFault (s : State) (e : TileEnv) (eng : Nat) (status : Word) : State :=
  let stop (h : Sheaf) : Sheaf :=
    { h with faulted := true, subs := (h.subs.map (fun v => match v with | .done => .done | _ => .dropped)).set e.u .done }
  let s := (s.movesAt e.core e.h e.u e.by_).foldl (fun (s : State) m => s.stopMove e.core m.1 m.2)
    (s.updCore e.core (fun k => k.updSheaf e.h.seq stop))
  let s := s.tileFault e.core e.h.lid e.by_
    { dpc := e.by_.pc, apc := e.h.pc, cmd := e.h.cmdNo, status := status, engine := eng, kind := e.by_.kind
      asid := e.h.sid, tag := (tagOf e.h.word).1, tv := (tagOf e.h.word).2, dsid := e.by_.sid, agent := e.by_.agent
      subt := e.u }
  s.updCore e.core Core.sweepDead

/-- Work that meets an uncorrectable error (R296): its sub-tile writes nothing. -/
def State.subError (s : State) (e : TileEnv) (loc : Nat) : State :=
  let s := s.updCore e.core (fun k => k.updSheaf e.h.seq (fun h => h.setSub e.u .done))
  (s.memError e.h.lid loc).settleSheaf e.core e.h.seq

/-- What the cores of peer operands answer (R138, R182). -/
inductive PeerAnswer where
  | ok
  | wait
  /-- A byte on the core that no team of the kernel there owns. -/
  | bad (core : Nat)
  deriving DecidableEq, Repr

/-- The bytes of runs on a core are all owned by a team. -/
def Team.ownsSpans (t : Team) (core : Nat) (xs : List Span) : Bool :=
  (spansOn core xs).all (fun x => (t.firstUnowned (x.1 - coreLoc core) (x.2 - coreLoc core)).isNone)

/-- Residency, ownership of the bytes that the access needs, demands and forces of the operands that lie on the given other
cores. -/
def State.peersOn (s : State) (a : Access) (lid core : Nat) (rd wr needs : List Span) (ps : List Nat) : State × PeerAnswer :=
  ps.foldl (fun (r : State × PeerAnswer) p =>
    match r.2 with
    | .bad c => (r.1, .bad c)
    | _ =>
      match r.1.peerCase lid p with
      | .fails => (r.1, .bad p)
      | .waits => (r.1, .wait)
      | .served tk =>
        if !(((r.1.teams.get? tk).map (fun t => t.ownsSpans p needs)).getD false) then (r.1, .bad p)
        else
          let q := r.1.reachFar a core p rd wr
          (q.1, if q.2 then .wait else r.2)) (s, .ok)

/-- Residency, ownership, demands and forces of the operands of an access that lie on other cores; of what it reads it needs
the bytes `needs` (R182, R189, R192). -/
def State.peers (s : State) (a : Access) (lid core : Nat) (rd wr needs : List Span) : State × PeerAnswer :=
  match otherCores core (rd ++ wr) with
  | [] => (s, .ok)
  | ps =>
    let r := s.peersOn a lid core rd wr (needs ++ wr) ps
    match r.2 with
    | .wait => r
    | _ => (r.1.rise a, r.2)

/-- The place of a byte of a weight half, of which `writeSpans` and `readSpans` name the first. -/
def isHalf (x : Span) : Bool :=
  match locCore x.1 with
  | some p => decide (0x3000000 ≤ p.2)
  | none => false

/-- A sub-tile's turn: it is dispatched, its sheaf's wait is served, and nothing before it that shares its granules is
left (R145, R190). -/
def State.tileReady (s : State) (e : TileEnv) (i : Instr) : Bool :=
  let rd := readSpans e.core e.h.bank i e.h.mapA e.h.nest e.u
  let wr := writeSpans e.core e.h.bank i e.u
  decide (e.h.wait = .served) &&
    !s.busy e.core e.h.seq e.h.seq (granulesOf (rd ++ namedSpans e.core i)) (granulesOf wr)

/-- The sub-tile that acts, if `State.cur` names one. -/
def State.tileEnv (s : State) : Option (TileEnv × Bool) :=
  match s.cur with
  | .tile c q u =>
    ((s.core c).sheaf q).bind (fun h => (h.subs[u]?).map (fun v =>
      match v with
      | .disp d => ({ core := c, h := h, u := u, by_ := d }, true)
      | _ => ({ core := c, h := h, u := u, by_ := waitDemander }, false)))
  | _ => none

/-- The effect of a sub-tile's output, unless an ECC word that it writes in part, and so reads first, holds an
uncorrectable error (R257, R296). -/
def State.tileEnd (s : State) (e : TileEnv) (eng : Nat) (o : TileOut) : State :=
  match s.checkSpans (s.lidCtx e.h.lid) (partWords (runsOf o.writes)) with
  | (s, some l) => s.subError e l
  | (s, none) =>
    let te : Flags := BitVec.ofNat 5 (e.h.vfrm.toNat / 32)
    let s := s.raiseFlags e.h.lid e.h.sid (o.fl &&& ~~~te)
    if o.status ≠ 0 then (s.writePart o.writes).subFault e eng o.status
    else if o.fl &&& te ≠ 0 then
      (s.writePart o.writes).subFault e eng (0x01#32 ||| ((o.fl &&& te).zeroExtend 32 <<< 8))
    else (s.storeAll o.writes).subDone e

/-- A tile command's sub-tile (R186, R190): it waits for its turn, then reads, computes and writes. `more` names bytes
read beside those of `readSpans`, such as rows of a weight half. -/
def tileWord (s : State) (i : Instr) (eng : Nat) (more : TileEnv → List Span) (f : TileEnv → State → TileOut) :
    Host.Outcome State Fault Refusal :=
  match s.tileEnv with
  | none => .fault .noAgent
  | some (e, false) => .next (s.settleSheaf e.core e.h.seq)
  | some (e, true) =>
    if !s.tileReady e i then .next s
    else
      let rd := (readSpans e.core e.h.bank i e.h.mapA e.h.nest e.u).filter (fun x => !isHalf x)
      let wr := (writeSpans e.core e.h.bank i e.u).filter (fun x => !isHalf x)
      let needs := (needSpans e.core e.h.bank i e.h.mapA e.h.nest e.u).filter (fun x => !isHalf x)
      match s.peers (.tile e.core e.h.seq e.u) e.h.lid e.core rd wr needs with
      | (s, .wait) => .next s
      | (s, .bad p) => .next (s.subFault e eng (BitVec.ofNat 32 (0x02 + p % 8 * 256)))
      | (s, .ok) =>
        match s.checkSpans (s.lidCtx e.h.lid) (needs ++ more e) with
        | (s, some l) => .next (s.subError e l)
        | (s, none) => .next (s.tileEnd e eng (f e s))

end Sys2Proof.Machine
end

