-- ==== Sys2Proof/Machine/Page.lean ====
section
/-! DEFINITION. Page tables, TLBs and walks (R281 to R290, R299, R300), blend windows (R291, R292), liveness (R293,
R294), the write log (R262 to R264) and the remote-read buffer (R277): every access to device memory goes through here. -/

namespace Sys2Proof.Machine

/-! ## Configuration and grants of a context (R299, R300, R303) -/

/-- The granted ranges of a context as runs of physical addresses. -/
def Ctx.granted (c : Ctx) : List Span := c.grants.map (fun g => (g.1, g.1 + g.2))
/-- Every byte of [a, b) is granted to a context. -/
def State.inGrants (s : State) (ctx a b : Nat) : Bool :=
  match s.ctxs.get? ctx with
  | none => false
  | some c => (firstOutside c.granted (c.grants.length + 1) a b).isNone

/-! ## The walk (R281 to R284, R300) -/

/-- The bits of a virtual address below level `l`'s index, and the entries of its table. -/
def lvlShift (l : Nat) : Nat := match l with | 0 => 40 | 1 => 30 | 2 => 21 | _ => 16
def lvlEntries (l : Nat) : Nat := match l with | 0 => 4096 | 1 => 1024 | 2 => 512 | _ => 32
def lvlIndex (l va : Nat) : Nat := va / 2 ^ lvlShift l % lvlEntries l

/-- The page size of a leaf at a level (R281, R283). -/
def leafSize (l : Nat) (e : DWord) : Nat :=
  match l with
  | 1 => 2 ^ 30
  | 2 => if par e 48 2 = 1 then 2 ^ 26 else 2 ^ 21
  | _ => 2 ^ 16

/-- A leaf checked at its level (R283, R284). -/
def checkLeaf (m : Mem) (l tbl va : Nat) (e : DWord) : WalkEnd :=
  if l = 0 ∨ par e 4 2 = 3 then .fault 2
  else if (par e 48 2 ≠ 0 ∧ l ≠ 2) ∨ 1 < par e 48 2 then .fault 2
  else if par e 48 2 = 1 ∧ BitVec.ofNat 64 (m.num (tbl + 8 * (lvlIndex 2 va / 32 * 32)) 8) ≠ e then .fault 2
  else if par e 6 1 = 0 ∧ par e 8 40 * 256 % leafSize l e ≠ 0 then .fault 2
  else if par e 6 1 = 1 ∧ par e 10 38 ≠ 0 then .fault 2
  else .leaf e (leafSize l e)

/-- The walk of R284 from a table, with the pointers and the entries it has passed; `n` bounds the levels left. -/
def State.walkFrom (s : State) (ctx va : Nat) : Nat → Nat → Nat → List WalkPtr → List Nat → Walked
  | 0, _, _, ps, rs => ⟨.fault 2, ps, rs⟩
  | n + 1, l, tbl, ps, rs =>
    let at_ := tbl + 8 * lvlIndex l va
    let rs := rs ++ [at_]
    let e := BitVec.ofNat 64 (s.mem.num at_ 8)
    if par e 0 1 = 0 then ⟨.fault 0, ps, rs⟩
    else if par e 7 1 ≠ 0 ∨ par e 50 14 ≠ 0 then ⟨.fault 2, ps, rs⟩
    else if par e 1 1 = 0 then
      let t := par e 8 40 * 256
      if l = 3 ∨ par e 2 5 ≠ 0 ∨ par e 48 2 ≠ 0 ∨ t % (8 * lvlEntries (l + 1)) ≠ 0 ∨ !s.isOwn t ∨
          !s.inGrants ctx t (t + 8 * lvlEntries (l + 1)) then ⟨.fault 2, ps, rs⟩
      else State.walkFrom s ctx va n (l + 1) t ({ ctx := ctx, lvl := l + 1, va := va / 2 ^ lvlShift l, tbl := t } :: ps) rs
    else
      ⟨checkLeaf s.mem l tbl va e, ps,
        if par e 48 2 = 1 ∧ l = 2 ∧ lvlIndex 2 va % 32 ≠ 0 then rs ++ [tbl + 8 * (lvlIndex 2 va / 32 * 32)] else rs⟩

/-- A walk of a context's tables, from the deepest pointer that the die's walk cache holds (R285, R287). -/
def State.walk (s : State) (die ctx va : Nat) : Walked :=
  let at_ (l : Nat) : Option Nat :=
    ((s.die die).wcache.find? (fun p => decide (p.ctx = ctx ∧ p.lvl = l ∧ p.va = va / 2 ^ lvlShift (l - 1)))).map (·.tbl)
  match at_ 3, at_ 2, at_ 1 with
  | some t, _, _ => s.walkFrom ctx va 1 3 t [] []
  | none, some t, _ => s.walkFrom ctx va 2 2 t [] []
  | none, none, some t => s.walkFrom ctx va 3 1 t [] []
  | none, none, none => s.walkFrom ctx va 4 0 (par (s.cfgWord ctx 0) 0 48) [] []

/-- The reads of a walk (R290, R294, R295): those of granules that are not live are counted, and the first uncorrectable error
met is named. -/
def State.walkRead (s : State) (ctx : Nat) (w : Walked) : State × Option Nat :=
  w.reads.foldl (fun (r : State × Option Nat) a =>
    match r.2 with
    | some _ => r
    | none => (r.1.countRead a 8).readCheck (some ctx) a 8) (s, none)

/-- The number of zero bits of the low `n` bits of a pattern. -/
def zerosBelow (pat : DWord) (n : Nat) : Nat := (List.range n).countP (fun i => !pat.getLsbD i)

/-- Where blend window `n` of a context maps a virtual address (R292). -/
def State.blend (s : State) (ctx n va : Nat) : Option Nat :=
  let w0 := par (s.cfgWord ctx (8 + 4 * n)) 0 52
  let w1 := s.cfgWord ctx (9 + 4 * n)
  let g := (va - w0) / 65536
  if va < w0 ∨ par w1 32 24 ≤ g then none
  else
    let z := zerosBelow w1 32
    let i := g % 32
    let base := par (s.cfgWord ctx (if w1.getLsbD i then 11 + 4 * n else 10 + 4 * n)) 0 48
    let k := if w1.getLsbD i then g / 32 * (32 - z) + (i - zerosBelow w1 i) else g / 32 * z + zerosBelow w1 i
    let pa := base + 65536 * k + va % 65536
    if pa / 2 ^ 40 ≠ base / 2 ^ 40 then none else some pa

/-- What a leaf gives an access (R284, R292, R300): a physical address and its ordering kind, or a fault code. -/
def State.useLeaf (s : State) (ctx va : Nat) (e : DWord) (size : Nat) (rd wr : Bool) : Except (BitVec 2) (Nat × BitVec 2) :=
  if (rd && par e 2 1 == 0) || (wr && par e 3 1 == 0) then .error 1
  else if par e 6 1 = 1 then
    match s.blend ctx (par e 8 2) va with
    | none => .error 2
    | some pa =>
      if s.isOwn pa && !s.inGrants ctx (pa / 65536 * 65536) (pa / 65536 * 65536 + 65536) then .error 1
      else .ok (pa, BitVec.ofNat 2 (par e 4 2))
  else
    let b := par e 8 40 * 256
    if s.isOwn b && !s.inGrants ctx b (b + size) then .error 1
    else .ok (b + va % size, BitVec.ofNat 2 (par e 4 2))

/-! ## TLBs and misses (R285, R286, R399) -/

/-- An entry of a TLB that maps an address. -/
def tlbFind (t : List TlbEntry) (ctx va : Nat) : Option TlbEntry :=
  t.find? (fun e => decide (e.ctx = ctx ∧ e.va ≤ va ∧ va < e.va + e.size))

/-- A bounded list with an entry added, the oldest leaving when it is full (log 13). -/
def pushBounded {α : Type} (n : Nat) (t : List α) (e : α) : List α :=
  if n ≤ t.length then t.drop (t.length + 1 - n) ++ [e] else t ++ [e]

/-- The L1 TLB of an engine. -/
def Die.l1Of (d : Die) (e : Nat) : List TlbEntry := (d.l1.get? e).getD []

/-- A leaf kept in an engine's L1 TLB. -/
def Die.fillL1 (d : Die) (e : Nat) (t : TlbEntry) : Die :=
  if (tlbFind (d.l1Of e) t.ctx t.va).isSome then d else { d with l1 := d.l1.set e (pushBounded 64 (d.l1Of e) t) }

/-- A leaf kept in the last-level TLB. -/
def Die.fillLast (d : Die) (t : TlbEntry) : Die :=
  if (tlbFind d.tlb t.ctx t.va).isSome then d else { d with tlb := pushBounded 8192 d.tlb t }

/-- Pointers kept in the walk cache. -/
def Die.fillPtrs (d : Die) (ps : List WalkPtr) : Die :=
  { d with wcache := ps.foldl (fun c p => if c.contains p then c else pushBounded 512 c p) d.wcache }

/-- A leaf dropped from every TLB of the die. -/
def Die.dropLeaf (d : Die) (t : TlbEntry) : Die :=
  let keep (x : TlbEntry) : Bool := !decide (x.ctx = t.ctx ∧ x.va = t.va ∧ x.size = t.size)
  { d with tlb := d.tlb.filter keep, l1 := d.l1.map (fun (e : Nat × List TlbEntry) => (e.1, e.2.filter keep)) }

/-- A translation fault counted (R399). -/
def State.countFault (s : State) (die : Nat) : State := s.updDie die (fun d => { d with tflt := d.tflt + 1 })

/-- How a translation ends. -/
inductive Trans where
  | ok (pa : Nat) (kind : BitVec 2)
  | wait
  | fault (code : BitVec 2)

/-- A cached leaf used (R285): one that faults is dropped. -/
def State.useCached (s : State) (die va : Nat) (t : TlbEntry) (rd wr : Bool) : State × Trans :=
  match s.useLeaf t.ctx va t.leaf t.size rd wr with
  | .ok (pa, k) => (s, .ok pa k)
  | .error c => ((s.updDie die (fun d => d.dropLeaf t)).countFault die, .fault c)

/-- The place of an engine in the round robin by engine id that follows the one served last (R286). -/
def Die.place (d : Die) (e : Nat) : Nat := (e % 128 + 255 - d.turn) % 128

/-- The engine whose oldest waiting request a free walker takes (R286). -/
def Die.nextEngine (d : Die) : Option Nat :=
  (d.walks.filter (fun w => !w.taken)).foldl (fun (b : Option Nat) w => match b with
    | none => some w.eng
    | some e => if d.place w.eng < d.place e then some w.eng else some e) none

/-- The first walk that waits for an engine's request is taken. -/
def takeFirst (e : Nat) : List Walk → List Walk
  | [] => []
  | w :: ws => if w.eng = e && !w.taken then { w with taken := true } :: ws else w :: takeFirst e ws

/-- Free walkers, of eight, take walks (R286); the number bounds the walks taken. -/
def Die.runWalkers : Nat → Die → Die
  | 0, d => d
  | n + 1, d =>
    if 8 ≤ d.walks.countP (fun w => w.taken && w.out.isNone) then d
    else
      match d.nextEngine with
      | none => d
      | some e => Die.runWalkers n { d with walks := takeFirst e d.walks, turn := e % 128 }

/-- A translation of a virtual address below 2^52 for an access of a move command (R286). -/
def State.translate (s : State) (ctx va : Nat) (r : WalkReq) : State × Trans :=
  let die := engDie r.eng
  let d := s.die die
  if d.walks.any (fun w => w.req.any (fun q => decide (q.eng = r.eng ∧ q.num = r.num ∧ q.box = r.box))) then (s, .wait)
  else
    match tlbFind (d.l1Of r.eng) ctx va with
    | some t => s.useCached die va t r.rd r.wr
    | none =>
      match tlbFind d.tlb ctx va with
      | some t =>
        (s.updDie die (fun d => ({ d with tl1m := d.tl1m + 1 } : Die).fillL1 r.eng t)).useCached die va t r.rd r.wr
      | none =>
        if 8 ≤ (d.walks.map (fun w => w.req.countP (fun q => q.eng = r.eng))).sum then (s, .wait)
        else
          let r := { r with seq := d.asked }
          let same (w : Walk) : Bool := decide (w.ctx = ctx ∧ w.va / 65536 = va / 65536) && w.out.isNone
          if d.walks.any same then
            (s.updDie die (fun d => { d with
              tl1m := d.tl1m + 1, tllm := d.tllm + 1, tmrg := d.tmrg + 1, asked := d.asked + 1
              walks := d.walks.map (fun w => if same w then { w with req := w.req ++ [r] } else w) }), .wait)
          else if 512 ≤ d.walks.length then (s, .wait)
          else
            (s.updDie die (fun d => ({ d with
              tl1m := d.tl1m + 1, tllm := d.tllm + 1, asked := d.asked + 1
              walks := d.walks ++ [{ ctx := ctx, va := va, eng := r.eng, taken := false, out := none, req := [r] }] } : Die).runWalkers 8), .wait)

/-- A translation made for a die's own accesses or for host RDMA: through its last-level TLB, or by a walk at once. One that
fails does so by a translation fault or by an uncorrectable error in a table, whose location it gives. -/
def State.transNow (s : State) (die ctx va : Nat) (rd wr : Bool) : State × Except (Option Nat) (Nat × BitVec 2) :=
  let bad (s : State) : State × Except (Option Nat) (Nat × BitVec 2) := (s.countFault die, .error none)
  if 2 ^ 52 ≤ va then bad s
  else
    match tlbFind (s.die die).tlb ctx va with
    | some t =>
      match s.useCached die va t rd wr with
      | (s, .ok pa k) => (s, .ok (pa, k))
      | (s, _) => (s, .error none)
    | none =>
      let r := s.walk die ctx va
      match (s.updDie die (fun d => { d with tllm := d.tllm + 1, twalk := d.twalk + 1 })).walkRead ctx r with
      | (s, some l) => (s, .error (some l))
      | (s, none) =>
        match r.fin with
        | .fault _ => bad s
        | .leaf e size =>
          match s.useLeaf ctx va e size rd wr with
          | .error _ => bad s
          | .ok x =>
            (s.updDie die (fun d =>
              (d.fillLast { ctx := ctx, va := va / size * size, size := size, leaf := e }).fillPtrs r.ptrs), .ok x)

/-! ## The write log (R262 to R264) -/

/-- The bytes of a write-log entry before its old contents. -/
def logHead (pa lid seq : Nat) : List Byte := leBytes 8 pa ++ leBytes 4 lid ++ leBytes 4 seq ++ List.replicate 16 0

/-- Positions of the write log that a context's kernels hold. -/
def State.logUsed (s : State) (ctx : Nat) : List Nat :=
  (s.kernels.filter (fun k => k.2.ctx = ctx)).flatMap (fun k => k.2.log.map (·.2))

/-- Rollback ability is lost (R263). -/
def State.loseRollback (s : State) (lid : Nat) : State :=
  s.updKernel lid (fun k => if k.rb then { k with rb := false, rbl := true } else k)

/-- One granule of 256 bytes logged, if it is the kernel's first write to it (R262, R263). -/
def State.logGranule (s : State) (lid g : Nat) : State :=
  match s.kernels.get? lid with
  | none => s
  | some k =>
    if !k.rb || k.log.any (fun e => e.1 = g) then s
    else
      let n := par (s.cfgWord k.ctx 5) 0 32 * 4096 / 288
      let used := s.logUsed k.ctx
      let start := ((s.ctxs.get? k.ctx).map (·.wlPos)).getD 0
      match ((List.range (used.length + 1)).map (fun i => (start + i) % n)).find? (fun p => !used.contains p) with
      | none => s.loseRollback lid
      | some p =>
        if n ≤ used.length then s.loseRollback lid
        else
          let at_ := par (s.cfgWord k.ctx 4) 0 48 + 288 * p
          let s := (s.writeHome at_ (logHead g lid k.logSeq)).copyRun k.ctx g (at_ + 32) 256
          (s.updKernel lid (fun k => { k with logSeq := k.logSeq + 1, log := (g, p) :: k.log })).updCtx k.ctx
            (fun c => { c with wlPos := (p + 1) % n })

/-- The granules of a write logged. -/
def State.logWrite (s : State) (lid pa n : Nat) : State :=
  (cutAt 256 (n / 256 + 2) (pa / 256 * 256) (pa % 256 + n)).foldl (fun s p => s.logGranule lid p.1) s

/-! ## The remote-read buffer (R277) -/

/-- A die without the lines that a write of its engines touches. -/
def Die.dropWritten (d : Die) (pa n : Nat) : Die :=
  { d with rrb := d.rrb.filter (fun l => !(decide (l.1 * 256 < pa + n) && decide (pa < l.1 * 256 + 256))) }

/-- A read within one line of another package's memory by an engine of a die: from the buffer, or from the home, which
fills it. A full buffer loses a line of the device's choice, and a line of an SO read leaves it, so that no later read of the
engine returns an older write (R277, log 13). -/
def State.readLine (s : State) (die : Nat) (so : Bool) (pa n : Nat) : State × List Byte :=
  let d := s.die die
  if so then (s.updDie die (fun d => d.dropWritten pa n), s.mem.read pa n)
  else
    match d.rrb.get? (pa / 256) with
    | some l => (s, (l.drop (pa % 256)).take n)
    | none =>
      let i := (Config.freeWord s.tick 0x100).toNat % 16384
      let kept := if d.rrb.length < 16384 then d.rrb else d.rrb.eraseIdx i
      (s.updDie die (fun d => { d with rrb := Tbl.set kept (pa / 256) (s.mem.read (pa / 256 * 256) 256) }), s.mem.read pa n)

/-- A read of another package's memory. -/
def State.readFar (s : State) (die : Nat) (so : Bool) (pa n : Nat) : State × List Byte :=
  (cutAt 256 (n / 256 + 2) pa n).foldl (fun (r : State × List Byte) p =>
    let q := r.1.readLine die so p.1 p.2
    (q.1, r.2 ++ q.2)) (s, [])

/-- Some Cetha link carries traffic (R369, R370). -/
def State.linked (s : State) : Bool :=
  s.dies.any (fun d => d.2.links.any (fun l => match l.2.st with | .active => true | .degraded => true | _ => false))

/-- The reduction window of another package that a physical address lies in (R373). -/
def State.inWindow (s : State) (die pa : Nat) : Bool :=
  !s.isOwn pa && (s.die die).windows.any (fun w => decide (w.base.toNat ≤ pa) && decide (pa < w.base.toNat + w.size.toNat))

end Sys2Proof.Machine
end

