-- ==== Sys2Proof/Machine/VecTile.lean ====
section
/-! DEFINITION. The vector tile engine: `tconv`, `tcopy`, `tfill`, `tclr`, `vt.call` and `tstore` (R175 to R179). -/

namespace Sys2Proof.Machine

/-- Rows and columns of a sub-tile clipped to a region. -/
def rowsOf (i0 i1 : Nat) : List Nat := (List.range (i1 - i0)).map (i0 + ·)

/-! ## `tcopy` and `tstore` (R175) -/

/-- The copy of a rectangle of D: codes, and for a block format the side entries and, with the last sub-tile, the
padding. -/
def copyWrites (s : State) (core : Nat) (a d : Desc) (m : Option (List Byte)) (i0 i1 j0 j1 : Nat) (last : Bool) :
    List (Nat × List Byte) :=
  let ra := descReg a core
  let rd := descReg d core
  if isBlock a.fmt then
    let one (xs ys : List Span) : List (Nat × List Byte) :=
      (xs.zip ys).map (fun q => (q.2.1, s.mem.read q.1.1 (q.1.2 - q.1.1)))
    one (ra.codes i0 i1 j0 j1) (rd.codes i0 i1 j0 j1) ++ one (ra.sides i0 i1 j0 j1) (rd.sides i0 i1 j0 j1) ++
      (if last then one (spanOf (ra.base + ra.codeBytes) ra.side) (spanOf (rd.base + rd.codeBytes) rd.side) else [])
  else
    let g := s.grabBox core a m [] i0 i1 j0 j1
    (rowsOf i0 i1).map (fun i =>
      (rd.at i j0, packE (elemW d.fmt) ((rowsOf j0 j1).map (fun j => (g.pick a m [] i j).1))))

/-- A sub-tile of `tcopy`. -/
def copyTile (i : Instr) (a d : Desc) (e : TileEnv) (s : State) : TileOut :=
  let g := tileGrid i
  let (i0, i1, j0, j1) := g.rect e.u
  .ok (copyWrites s e.core a d e.h.mapA i0 i1 j0 j1 (decide (e.u + 1 = g.ni * g.nj))) 0

/-- TCOPY (R175). -/
def execTcopy (h : TileHdr) (a d : Desc) (s : State) : Host.Outcome State Fault Refusal :=
  tileWord s (.tcopy h a d) 1 (fun _ => []) (copyTile (.tcopy h a d) a d)

/-! ## `tconv` (R176) -/

/-- A sub-tile of `tconv`. -/
def convTile (i : Instr) (a : Desc) (b : DWord) (d : Desc) (e : TileEnv) (s : State) : TileOut :=
  let (i0, i1, j0, j1) := (tileGrid i).rect e.u
  let m := e.h.mapA
  let g := s.grabBox e.core a m [] i0 i1 j0 j1
  let rm := (rmOf (par b 0 3) 0).det
  let r := descReg d e.core
  let rows := (rowsOf i0 i1).map (fun i =>
    let xs := (rowsOf j0 j1).map (fun j => g.pick a m [] i j)
    if isBlock d.fmt then
      let q := encodeRow d.fmt rm (xs.map (fun x => valueOf a.fmt x.2 x.1))
      ([(r.at i j0, packE (elemW d.fmt) q.1), (r.sideAt i (j0 / 32), q.2.1)], q.2.2)
    else
      let q := xs.map (fun x => convElem a.fmt d.fmt rm (par b 3 1 = 1) x.2 x.1)
      ([(r.at i j0, packE (elemW d.fmt) (q.map (·.code)))], orFlags (q.map (·.fl))))
  let ws := rows.flatMap (·.1)
  let ws := if par b 8 8 = 0 then ws
    else (mcastCores e.core b).flatMap (fun c => ws.map (fun w => (w.1 - r.base + dspLoc c d.addr.toNat, w.2)))
  .ok ws (orFlags (rows.map (·.2)))

/-- TCONV (R176, R182). -/
def execTconv (h : TileHdr) (a : Desc) (b : DWord) (d : Desc) (s : State) : Host.Outcome State Fault Refusal :=
  tileWord s (.tconv h a b d) 1 (fun _ => []) (convTile (.tconv h a b d) a b d)

/-! ## `tfill` and `tclr` (R177) -/

/-- A sub-tile of `tfill`. -/
def fillTile (i : Instr) (b : DWord) (d : Desc) (e : TileEnv) (_ : State) : TileOut :=
  let (i0, i1, j0, j1) := (tileGrid i).rect e.u
  let r := descReg d e.core
  let row := packE (elemW d.fmt) (List.replicate (j1 - j0) (par b 0 32 % 2 ^ elemW d.fmt))
  let side := (List.replicate ((j1 - j0) / 32) (sideOf d.fmt (par b 32 8) (par b 40 8))).flatten
  .ok ((rowsOf i0 i1).flatMap (fun i =>
    (r.at i j0, row) :: (if isBlock d.fmt then [(r.sideAt i (j0 / 32), side)] else []))) 0

/-- TFILL (R177). -/
def execTfill (h : TileHdr) (b : DWord) (d : Desc) (s : State) : Host.Outcome State Fault Refusal :=
  tileWord s (.tfill h b d) 1 (fun _ => []) (fillTile (.tfill h b d) b d)

/-- A sub-tile of `tclr`: codes, side entries and padding. -/
def clearTile (i : Instr) (e : TileEnv) (_ : State) : TileOut :=
  .ok ((writeSpans e.core e.h.bank i e.u).map (fun x => (x.1, List.replicate (x.2 - x.1) 0))) 0

/-- TCLR (R177). -/
def execTclr (h : TileHdr) (d : Desc) (s : State) : Host.Outcome State Fault Refusal :=
  tileWord s (.tclr h d) 1 (fun _ => []) (clearTile (.tclr h d))

/-! ## `vt.call` (R178, R179) -/

/-- The state of a microprogram on one row. -/
structure Micro where
  v  : List Row
  p  : Vector (BitVec 512) 8
  fl : Flags

/-- A private row. -/
def Micro.row (m : Micro) (r : VReg) : Row := nthRow m.v r.toNat
/-- A private row written. -/
def Micro.setRow (m : Micro) (r : VReg) (x : Row × Flags) : Micro := { m with v := m.v.set r.toNat x.1, fl := m.fl ||| x.2 }
/-- A private predicate as a source; p0 reads as all ones. -/
def Micro.getP (m : Micro) (r : PReg) : BitVec 512 := if r = 0 then BitVec.allOnes 512 else m.p[r.toNat]'r.isLt
/-- A private predicate written. -/
def Micro.setP (m : Micro) (r : PReg) (x : BitVec 512 × Flags) : Micro :=
  { m with p := if r = 0 then m.p else m.p.set r.toNat x.1 r.isLt, fl := m.fl ||| x.2 }

/-- Every register exists in a microprogram (R179). -/
def microRegs (rs : List VReg) : Bool := rs.all (fun r => decide (r.toNat < 8))

/-- A word from rows to a row. -/
def microMap (c : LaneCtx) (f : LaneFn) (d a b : VReg) (p : PReg) : Option (Micro → Micro) :=
  if microRegs [d, a, b] then
    some (fun m => m.setRow d (rowMap c f (m.getP p) (m.row a) (m.row b) (m.row d)))
  else none

/-- A compare word. -/
def microCmp (c : LaneCtx) (f : LaneCmp) (d : PReg) (a b : VReg) (p : PReg) : Option (Micro → Micro) :=
  if microRegs [a, b] then some (fun m => m.setP d (rowCmp c f (m.getP p) (m.row a) (m.row b))) else none

/-- A `vcvt` in a microprogram: its packed array must not pass v7. -/
def microCvt (c : LaneCtx) (cd : Bool) (d a : VReg) (f : BitVec 4) (sat : Bool) (p : PReg) : Option (Micro → Micro) :=
  let n := packedRows c.fmt f
  let ns := if cd then n else 1
  let nd := if cd then 1 else n
  if microRegs [d, a] && decide (a.toNat + ns ≤ 8) && decide (d.toNat + nd ≤ 8) then
    some (fun m =>
      let get (r : VReg) (k : Nat) : List Byte := ((List.range k).flatMap (fun i => nthRow m.v (r.toNat + i)))
      let r := rowCvt c f sat cd (List.replicate (laneCount c.fmt) .rne) (m.getP p) (get a ns) (get d nd)
      { m with
        v := (List.range nd).foldl (fun v k => v.set (d.toNat + k) ((r.1.drop (1024 * k)).take 1024)) m.v
        fl := m.fl ||| r.2 })
  else none

/-- What a word of a microprogram does, or none if it is illegal there (R179); `x` gives x0 to x2. -/
def microWord (c : LaneCtx) (cd : Bool) (x : XReg → Word) (i : Instr) : Option (Micro → Micro) :=
  let reg (r : XReg) : Bool := decide (r.toNat ≤ 2)
  match i with
  | .vaddF d a b p => microMap c LaneCtx.add d a b p
  | .vsubF d a b p => microMap c LaneCtx.sub d a b p
  | .vmulF d a b p => microMap c LaneCtx.mul d a b p
  | .vfmaF d a b p => microMap c LaneCtx.fma d a b p
  | .vminF d a b p => microMap c LaneCtx.min d a b p
  | .vmaxF d a b p => microMap c LaneCtx.max d a b p
  | .vabsF d a p => microMap c LaneCtx.abs d a a p
  | .vnegF d a p => microMap c LaneCtx.neg d a a p
  | .vrcp d a p => microMap c LaneCtx.rcp d a a p
  | .vsqrt d a p => microMap c LaneCtx.sqrt d a a p
  | .vrsqrt d a p => microMap c LaneCtx.rsqrt d a a p
  | .vexp2 d a p => microMap c LaneCtx.exp2 d a a p
  | .vlog2 d a p => microMap c LaneCtx.log2 d a a p
  | .vaddI d a b p => microMap c LaneCtx.addI d a b p
  | .vsubI d a b p => microMap c LaneCtx.subI d a b p
  | .vmulI d a b p => microMap c LaneCtx.mulI d a b p
  | .vmulhI d a b p => microMap c LaneCtx.mulhI d a b p
  | .vminI d a b p => microMap c LaneCtx.minI d a b p
  | .vmaxI d a b p => microMap c LaneCtx.maxI d a b p
  | .vand d a b p => microMap c LaneCtx.and d a b p
  | .vor d a b p => microMap c LaneCtx.or d a b p
  | .vxor d a b p => microMap c LaneCtx.xor d a b p
  | .vshl d a b p => microMap c LaneCtx.shl d a b p
  | .vshr d a b p => microMap c LaneCtx.shr d a b p
  | .vsra d a b p => microMap c LaneCtx.sra d a b p
  | .vmv d a p => microMap c LaneCtx.move d a a p
  | .vcmpFEq d a b p => microCmp c LaneCtx.feq d a b p
  | .vcmpFNe d a b p => microCmp c LaneCtx.fne d a b p
  | .vcmpFLt d a b p => microCmp c LaneCtx.flt d a b p
  | .vcmpFLe d a b p => microCmp c LaneCtx.fle d a b p
  | .vcmpIEq d a b p => microCmp c LaneCtx.ieq d a b p
  | .vcmpINe d a b p => microCmp c LaneCtx.ine d a b p
  | .vcmpILt d a b p => microCmp c LaneCtx.ilt d a b p
  | .vcmpILe d a b p => microCmp c LaneCtx.ile d a b p
  | .vcmpILtu d a b p => microCmp c LaneCtx.iltu d a b p
  | .vcmpILeu d a b p => microCmp c LaneCtx.ileu d a b p
  | .vsel d a b p =>
    if microRegs [d, a, b] then some (fun m => m.setRow d (rowSel c.fmt (m.getP p) (m.row a) (m.row b), 0)) else none
  | .vbcast d r p =>
    if microRegs [d] && reg r then some (fun m => m.setRow d (rowBcast c.fmt (m.getP p) (x r) (m.row d), 0)) else none
  | .vpand d a b => some (fun m => m.setP d (m.getP a &&& m.getP b, 0))
  | .vpor d a b => some (fun m => m.setP d (m.getP a ||| m.getP b, 0))
  | .vpnot d a => some (fun m => m.setP d (~~~(m.getP a), 0))
  | .vperm d a b p =>
    if microRegs [d, a, b] then some (fun m => m.setRow d (rowPerm c.fmt (m.getP p) (m.row a) (m.row b) (m.row d), 0))
    else none
  | .vslide d a r p =>
    if microRegs [d, a] && reg r then
      some (fun m => m.setRow d (rowSlide c.fmt (m.getP p) (x r).toInt (m.row a) (m.row d), 0))
    else none
  | .vscan d a p =>
    if microRegs [d, a] then some (fun m => m.setRow d (rowScan c (m.getP p) (m.row a) (m.row d))) else none
  | .vcvt d a f sat p => microCvt c cd d a f sat p
  | _ => none

/-- The words of a microprogram, or the index of the first illegal one. -/
def microProgram (c : LaneCtx) (cd : Bool) (x : XReg → Word) : Nat → List Word → (List (Micro → Micro)) ⊕ Nat
  | _, [] => .inl []
  | n, w :: ws =>
    match (decodeStrand w).bind (microWord c cd x) with
    | none => .inr n
    | some f =>
      match microProgram c cd x (n + 1) ws with
      | .inl fs => .inl (f :: fs)
      | .inr k => .inr k

/-- x1 and x2 of a microprogram on row i; x0 reads 0. -/
def microX (i : Nat) (pv : Word) (r : XReg) : Word :=
  match r.toNat with
  | 1 => BitVec.ofNat 32 i
  | 2 => pv
  | _ => 0

/-- A sub-tile of `vt.call`. -/
def callTile (i : Instr) (a : Desc) (b : DWord) (d : Desc) (e : TileEnv) (s : State) : TileOut :=
  let (i0, i1, _, _) := (tileGrid i).rect e.u
  let ent := par b 0 12
  let n := par b 12 8 + 1
  let lf := BitVec.ofNat 4 (par b 20 4)
  let c : LaneCtx := { fmt := lf, rm := .rne, daz := false, ftz := false, ann := e.h.zmul }
  let cd := decide (par b 24 1 = 1)
  let pv := BitVec.ofNat 32 (par b 32 32)
  let words := (leSplit 4 n (s.mem.read (vcsLoc e.core e.h.bank + 4 * ent) (4 * n))).map (BitVec.ofNat 32)
  match microProgram c cd (microX 0 pv) 0 words with
  | .inr k => .fail 0x31 (ent + k)
  | .inl _ =>
    let m := e.h.mapA
    let g := s.grabBox e.core a m [] i0 i1 0 a.ncols
    let r := descReg d e.core
    let zero : Row := List.replicate 1024 0
    let rows := (rowsOf i0 i1).map (fun i =>
      let xs := (List.range a.ncols).map (fun j => (g.pick a m [] i j).1)
      let v0 := laneRow lf (xs ++ List.replicate (laneCount lf - xs.length) 0)
      let start : Micro := { v := v0 :: List.replicate 7 zero, p := Vector.replicate 8 0, fl := 0 }
      let fs := match microProgram c cd (microX i pv) 0 words with | .inl fs => fs | .inr _ => []
      let out := fs.foldl (fun m f => f m) start
      ((r.at i 0, packE (elemW lf) ((rowLanes lf (nthRow out.v 1)).take d.ncols)), out.fl))
    .ok (rows.map (·.1)) (orFlags (rows.map (·.2)))

/-- VT_CALL (R178, R179). -/
def execVtCall (h : TileHdr) (a : Desc) (b : DWord) (d : Desc) (s : State) : Host.Outcome State Fault Refusal :=
  tileWord s (.vtCall h a b d) 1 (fun _ => []) (callTile (.vtCall h a b d) a b d)

/-! ## Engine queues (R161, R162) -/

/-- The head of an engine queue, if `State.cur` names it. -/
def State.queueEnv (s : State) (x : Bool) : Option (Nat × Queued) :=
  match s.cur with
  | .queue c y => if y = x then (if x then (s.core c).xq.head? else (s.core c).tq.head?).map (fun q => (c, q)) else none
  | _ => none

/-- The wait of a word that has reached the head of its queue is queued, after the sheaves that would signal it are
forced (R162, R193). -/
def State.queueHead (s : State) (core : Nat) (q : Queued) (x : Bool) : State :=
  let hd := wordHdr q.word
  let mark (w : SheafWait) (s : State) : State :=
    s.updCore core (fun k =>
      let set (l : List Queued) : List Queued := match l with | h :: t => { h with wait := w } :: t | [] => []
      if x then { k with xq := set k.xq } else { k with tq := set k.tq })
  if hd.waitEn then
    let s := s.stookStep core (fun k => k.forceWhole core waitDemander (fun h => h.signals core q.team hd.waitSem.toNat))
    (mark .queued s).queueWait q.team hd.waitSem.toNat (.queue core x) hd.waitAmt.toNat
  else mark .served s

/-- A word leaves the head of its queue. -/
def State.unqueue (s : State) (core : Nat) (x : Bool) : State :=
  s.updCore core (fun k => if x then { k with xq := k.xq.tail } else { k with tq := k.tq.tail })

/-- A kernel that is still live. -/
def State.liveKernel (s : State) (lid : Nat) : Bool := ((s.kernels.get? lid).map (·.st.live)).getD false

/-- The copy of a `tstore` whose turn has come (R161, R175). -/
def storeRun (s : State) (core : Nat) (q : Queued) (a d : Desc) : State :=
  let i := tileInstr q.word
  let rd := readSpans core 0 i q.mapA [] 0
  let wr := writeSpans core 0 i 0
  let needs := needSpans core 0 i q.mapA [] 0
  if s.busy core q.seq q.seq (granulesOf rd) (granulesOf wr) then s
  else
    -- its order point on a peer core is that of its push (R161, R189)
    let s := q.far.foldl (fun (s : State) f => s.sitAt (.tile core q.seq 0) f.1 f.2 []) s
    match s.peers (.tile core q.seq 0) q.lid core rd wr needs with
    | (s, .wait) => s
    | (s, .bad p) =>
      let st : Word := BitVec.ofNat 32 (0x02 + p % 8 * 256)
      (s.unqueue core false).tileFault core q.lid { kind := 2, pc := q.pc, sid := q.sid, agent := 0, key := none, num := 0 }
        { dpc := q.pc, apc := q.pc, cmd := q.cmdNo, status := st, engine := 1, kind := 2, asid := q.sid
          tag := (tagOf q.word).1, tv := (tagOf q.word).2, dsid := q.sid, agent := 0, subt := 0 }
    | (s, .ok) =>
      match s.checkSpans (s.lidCtx q.lid) needs with
      | (s, some l) => (s.unqueue core false).memError q.lid l
      | (s, none) =>
        let ws := copyWrites s core a d q.mapA 0 d.nrows 0 d.ncols true
        match s.checkSpans (s.lidCtx q.lid) (partWords (runsOf ws)) with
        | (s, some l) => (s.unqueue core false).memError q.lid l
        | (s, none) =>
          let s := (s.storeAll ws).unqueue core false
          let hd := wordHdr q.word
          if hd.sigEn && s.liveKernel q.lid then s.signal core q.team hd.sigSem.toNat hd.sigAmt.toNat (hd.scope == 3) else s

/-- TSTORE (R161, R162, R175). -/
def execTstore (_h : TileHdr) (a d : Desc) (s : State) : Host.Outcome State Fault Refusal :=
  match s.queueEnv false with
  | none => .fault .noAgent
  | some (c, q) =>
    match q.wait with
    | .notQueued => .next (s.queueHead c q false)
    | .queued => .next s
    | .served => .next (storeRun s c q a d)

end Sys2Proof.Machine
end

