-- ==== Sys2Proof/Machine/MoveWords.lean ====
section
/-! DEFINITION. Runs of move programs (R181, R222 to R225), scalar and control words (R227, R228), the issue of data words
(R229 to R231, R233 to R242), signals, waits and the end of a run (R243 to R246), and the move fault record (R247, R261). -/

namespace Sys2Proof.Machine

/-! ## Parameter blocks (R230) -/

/-- A parameter block. -/
structure Blk where
  cols : Nat
  sf   : BitVec 4
  df   : BitVec 4
  rows : Nat
  sat  : Bool
  ac   : Bool
  ns   : Nat
  ix   : Bool
  gs   : Nat
  rsv  : Bool
  sp   : Int
  dp   : Int
  ex   : Nat
  deriving DecidableEq, Repr

/-- The fields of the 32 bytes of a block. -/
def blkOf (bs : List Byte) : Blk :=
  let w (o n : Nat) : Nat := leNat ((bs.drop o).take n)
  let w0 := w 0 4
  let w1 := w 4 4
  { cols := w0 % 2 ^ 24, sf := BitVec.ofNat 4 (w0 / 2 ^ 24), df := BitVec.ofNat 4 (w0 / 2 ^ 28)
    rows := w1 % 2 ^ 24, sat := w1.testBit 24, ac := w1.testBit 25, ns := w1 / 2 ^ 26 % 4, ix := w1.testBit 28
    gs := w1 / 2 ^ 29 % 4, rsv := w1.testBit 31
    sp := intOf 64 true (w 8 8), dp := intOf 64 true (w 16 8), ex := w 24 8 }

/-- The two halves of the extra operand. -/
def Blk.exLo (b : Blk) : Nat := b.ex % 2 ^ 32
def Blk.exHi (b : Blk) : Nat := b.ex / 2 ^ 32

/-- Bytes of a packed row (R31). -/
def rowBytes (f : BitVec 4) (cols : Nat) : Nat := cols * elemW f / 8

/-- The kind of a move address (R226). -/
def maKind (v : DWord) : Nat := v.toNat / 2 ^ 62
/-- The core that a kind-1 address names. -/
def maCore (v : DWord) : Nat := v.toNat / 2 ^ 32 % 512

/-- The element size in bytes that addresses and pitches are multiples of (R231). -/
def alignOf (f : BitVec 4) : Nat := max 1 (elemW f / 8)

/-- An address operand of an allowed kind, a multiple of `n`. -/
def maOk (k0 k1 : Bool) (n : Nat) (v : DWord) : Bool :=
  ((maKind v == 0 && k0) || (maKind v == 1 && k1)) && decide (v.toNat % n = 0)

/-! ## The checks of a data word at issue (R231, R233 to R238, R240) -/

/-- What every block must satisfy, for the sets of formats that an instruction allows. -/
def Blk.formsOk (b : Blk) (src dst : List Nat) : Bool :=
  decide (1 ≤ b.cols) && !b.rsv && src.contains b.sf.toNat && dst.contains b.df.toNat &&
    decide (b.cols * elemW b.sf % 8 = 0) && decide (b.cols * elemW b.df % 8 = 0) &&
    (!(isBlock b.sf || isBlock b.df) || decide (b.cols % 32 = 0))

/-- Pitches are multiples of the element sizes. -/
def Blk.pitchOk (b : Blk) : Bool := decide (b.sp % alignOf b.sf = 0) && decide (b.dp % alignOf b.df = 0)

/-- Source and destination of a linear command, with their side arrays for block formats (R232). -/
def Blk.endsOk (b : Blk) (dst src : DWord) (k0 : Bool) : Bool :=
  maOk k0 true (alignOf b.df) dst && maOk true true (alignOf b.sf) src &&
    (b.sf ≠ fYF4 || decide ((src.toNat + b.exLo) % 2 = 0)) && (b.df ≠ fYF4 || decide ((dst.toNat + b.exHi) % 2 = 0))

/-- The checks of a data word with a parameter block, the row count apart. The source and the pitch of `mv.win`, whose block
names no element size, need no alignment (DESIGN CHOICE, log 25: R231 asks for a multiple of the element size). -/
def dataOk (i : Instr) (a : Vector DWord 16) (b : Blk) : Bool :=
  let r (x : AReg) : DWord := a[x.toNat]'x.isLt
  let all : List Nat := List.range 15
  let plain : List Nat := [0, 1, 2, 3, 4, 5, 10, 11, 12, 13, 14]
  match i with
  | .mvCopy w =>
    b.formsOk all all && b.sf == b.df && b.pitchOk && b.endsOk (r w.dst) (r w.src1) true && (isBlock b.sf || b.ex == 0)
  | .mvCvt w =>
    b.formsOk all all && b.pitchOk && b.endsOk (r w.dst) (r w.src1) true && (isBlock b.sf || b.exLo == 0) &&
      (isBlock b.df || b.exHi == 0)
  | .mvMcast w =>
    b.formsOk plain plain && b.sf == b.df && b.pitchOk && b.ex != 0 && b.endsOk (r w.dst) (r w.src1) false &&
      decide (maCore (r w.dst) % 64 = 0)
  | .mvTpose w =>
    b.formsOk [0, 1, 2, 3, 4, 10, 11, 12, 13] [0, 1, 2, 3, 4, 10, 11, 12, 13] && b.sf == b.df && b.pitchOk && b.ex == 0 &&
      b.endsOk (r w.dst) (r w.src1) true
  | .mvGath w | .mvScat w =>
    b.formsOk plain plain && b.sf == b.df && b.pitchOk && b.exHi == 0 && decide (b.gs ≤ 2) &&
      b.endsOk (r w.dst) (r w.src1) true && maOk true true 1 (r w.src2)
  | .mvRed w =>
    let srcs := (List.range (b.ns + 1)).map (fun k => w.src1.toNat + k)
    (b.formsOk [0, 1, 2, 3, 4] [0, 1, 2] || (b.formsOk [10, 11] [11] && !b.sat)) && b.pitchOk && b.ex == 0 &&
      (decide (b.ns ≠ 0) || b.ac) && maOk true true (alignOf b.df) (r w.dst) &&
      srcs.all (fun k => decide (k ≤ 15) && maOk true true (alignOf b.sf) (a.toList.getD k 0))
  | .mvZip w =>
    b.formsOk [0, 1, 2] [9, 14] && b.pitchOk && b.dp == 0 && b.ex == 0 && maOk true true 1 (r w.dst) &&
      maOk true true (alignOf b.sf) (r w.src1) &&
      (b.df ≠ fYF4 || decide (((r w.dst).toNat + (b.rows * rowBytes b.df b.cols + 15) / 16 * 16) % 2 = 0))
  | .mvUnzip w =>
    b.formsOk [9, 14] [0, 1, 2] && b.pitchOk && b.sp == 0 && b.ex == 0 && maOk true true (alignOf b.df) (r w.dst) &&
      maOk true true 1 (r w.src1) &&
      (b.sf ≠ fYF4 || decide (((r w.src1).toNat + (b.rows * rowBytes b.sf b.cols + 15) / 16 * 16) % 2 = 0))
  | .mvWin w =>
    !b.rsv && b.cols == 0 && b.sf == 0 && b.df == 0 && b.dp == 0 && b.ex == 0 && maOk true false 1 (r w.src1) &&
      decide ((r w.dst).toNat / 2 ^ 19 = 0) && decide ((r w.dst).toNat / 2 ^ 9 % 2 ^ 7 = 0)
  | _ => true

/-- The fields of a data word with a parameter block. -/
def dataFields : Instr → Option DataWord
  | .mvCopy w | .mvGath w | .mvScat w | .mvTpose w | .mvCvt w | .mvRed w | .mvMcast w | .mvWin w | .mvZip w | .mvUnzip w =>
    some w
  | _ => none

/-- The windrow that a `mv.win` serves: its core and number (R240). -/
def winAt (v : DWord) : Nat × Fin 8 := (v.toNat % 512, ⟨v.toNat / 2 ^ 16 % 8, Nat.mod_lt _ (by decide)⟩)

/-- A windrow is already served by a command that has not retired (R240). -/
def State.winTaken (s : State) (w : Windrow) : Bool :=
  match w.served with
  | some (e, n) => (s.eng e).cmds.any (fun c => decide (c.num = n) && !c.st.gone)
  | none => false

/-- An unretired `mv.nvm` of a context uses a storage pair (R381). -/
def State.pairBusy (s : State) (ctx h : Nat) : Bool :=
  s.dies.any (fun d => d.2.engines.any (fun e => e.2.cmds.any (fun c =>
    !c.st.gone && decide (s.lidCtx c.lid = ctx) && (match c.op with | .mvNvm _ _ _ qp _ => decide (qp.toNat = h) | _ => false))))

/-- The state of a storage pair: one that `disc` ends is IDLE once no command uses it (R381). -/
def State.pairSt (s : State) (ctx h : Nat) : BitVec 2 :=
  match (s.ctxs.get? ctx).bind (fun (c : Ctx) => c.pairs.get? h) with
  | none => 0
  | some p => if p.disc && !s.pairBusy ctx h then 0 else p.sst

/-- The checks of a data word without a parameter block, and those of `mv.win` that its windrow decides (R239 to R242). -/
def State.issueOk (s : State) (id : Nat) (lid : Nat) (a : Vector DWord 16) (last : Option Nat) (i : Instr) : Bool :=
  let r (x : AReg) : DWord := a[x.toNat]'x.isLt
  match i with
  | .mvAtom d _ _ op ty _ =>
    decide (op.toNat ≤ 9) && decide (ty.toNat ≤ 2) && (ty.toNat ≠ 2 || [0, 1, 2, 8, 9].contains op.toNat) &&
      maOk true false (if ty = 1 then 8 else 4) (r d)
  | .mvCsum d | .mvCsumSrc d =>
    maOk true true 4 (r d) &&
      (match last.bind (fun n => (s.eng id).cmds.find? (fun (c : Cmd) => c.num = n)) with
      | some c =>
        (match c.op with
        | .mvWin _ => false
        | x => (dataFields x).isSome)
      | none => false)
  | .mvNvm d _ t qp _ =>
    maOk true false 4096 (r d) && decide (1 ≤ (r t).toNat ∧ (r t).toNat ≤ 65536) &&
      decide (s.pairSt (s.lidCtx lid) qp.toNat = 2)
  | .mvWin w =>
    let (c, n) := winAt (r w.dst)
    let win := (s.core c).windrows[n.val]
    win.en && decide (win.base.toNat % 64 = 0) && !s.winTaken win
  | _ => true

/-! ## The end of a run and the move fault record (R71, R222, R247, R261) -/

/-- A move command or run ends with a nonzero status: rollback where the kernel still has the ability and the status is
an uncorrectable error, and the failure of the kernel otherwise (R247, R257, R263, R265, R348). -/
def State.moveFail (s : State) (lid : Nat) (f : MoveFault) : State :=
  match s.kernels.get? lid with
  | none => s
  | some k =>
    if k.rb && k.st.live && f.status.truncate 8 == (0x06#8) then
      (s.setKernel lid { k with st := .rolling, rbt := true }).endWork lid
    else s.fail lid { Faults.none with fk := 3, move := some f }

/-- A run ends at the word at `pc` with a status, having issued no command there. -/
def State.endRun (s : State) (id : Nat) (r : Run) (pc : BitVec 20) (status : Word) (info : DWord) : State :=
  (s.updEng id (fun e => { e with run := some { r with ended := true, status := status } })).moveFail r.lid
    { eng := id, pc := pc, num := 0, status := status, nres := 0, info := info }

/-- A status word with the offset of a word in its detail (R247). -/
def wordStatus (code : Word) (off : Nat) (far : Bool) : Word :=
  code ||| BitVec.ofNat 32 (off / 8 % 2 ^ 17 * 2 ^ 13 + (if far then 2 ^ 30 else 0))

/-! ## Move words -/

/-- What a move word sees: its engine, run and kernel. -/
structure MoveEnv where
  id : Nat
  e  : Engine
  r  : Run

/-- The run that acts, if `State.cur` names one. -/
def State.moveEnv (s : State) : Option MoveEnv :=
  match s.cur with
  | .engine id => (s.eng id).run.bind (fun (r : Run) => if r.ended then none else some { id := id, e := s.eng id, r := r })
  | _ => none

/-- The value of a register of a run. -/
def MoveEnv.get (e : MoveEnv) (x : AReg) : DWord := e.r.a[x.toNat]'x.isLt

/-- A run with a register written. -/
def Run.put (r : Run) (x : AReg) (v : DWord) : Run := { r with a := r.a.set x.toNat v x.isLt }

/-- Control passes to `t`; this word becomes the one that passed it (R247). -/
def Run.goto (r : Run) (t : DWord) : Run := { r with pc := t, from_ := r.pc.truncate 20 }

/-- The next word in order. -/
def Run.next (r : Run) : Run := r.goto (r.pc + 8)

/-- A branch target (R227). -/
def Run.target (r : Run) (imm : BitVec 40) : DWord := r.pc + (imm.signExtend 64 <<< 3)

/-- The run of an engine replaced. -/
def State.setRun (s : State) (id : Nat) (r : Run) : State := s.updEng id (fun e => { e with run := some r })

/-- A move word: an engine that waits for an atomic's old value stalls (R239); otherwise the word acts. -/
def moveStep (s : State) (f : MoveEnv → State) : Host.Outcome State Fault Refusal :=
  match s.moveEnv with
  | none => .fault .noAgent
  | some e => if e.r.atomW.isSome then .next s else .next (f e)

/-- A word that changes only the run's registers (R227). -/
def moveScalar (s : State) (f : MoveEnv → Run → Run) : Host.Outcome State Fault Refusal :=
  moveStep s (fun e => s.setRun e.id (f e e.r))

/-- A word that writes a register and goes on. -/
def moveValue (s : State) (d : AReg) (f : MoveEnv → DWord) : Host.Outcome State Fault Refusal :=
  moveScalar s (fun e r => (r.put d (f e)).next)

/-- The word ends its run with status 0x03 (R231). -/
def MoveEnv.illegal (e : MoveEnv) (s : State) : State :=
  s.endRun e.id e.r (e.r.pc.truncate 20) (wordStatus 3 e.r.pc.toNat false) 0

/-- Eight commands of the engine are unretired, or have been when the word was first tried and the retire counter has not
advanced since (R224). -/
def MoveEnv.full (e : MoveEnv) : Bool :=
  decide (8 ≤ e.e.cmds.countP (fun c => !c.st.gone)) || e.r.stuck == some e.e.retire

/-- A word that must wait before it issues. -/
def MoveEnv.stall (e : MoveEnv) (s : State) : State := s.setRun e.id { e.r with stuck := some (e.r.stuck.getD e.e.retire) }

/-- Every command of the run has retired. -/
def MoveEnv.quiet (e : MoveEnv) : Bool := e.e.cmds.all (fun c => c.st.gone)

/-! ### Scalar and control words (R227, R228) -/

/-- MV_NOP (R227). -/
def execMvNop (s : State) : Host.Outcome State Fault Refusal := moveScalar s (fun _ r => r.next)

/-- MV_LI (R227). -/
def execMvLi (d : AReg) (imm : BitVec 40) (s : State) : Host.Outcome State Fault Refusal :=
  moveValue s d (fun _ => imm.signExtend 64)

/-- MV_ADD (R227). -/
def execMvAdd (d a b : AReg) (s : State) : Host.Outcome State Fault Refusal := moveValue s d (fun e => e.get a + e.get b)

/-- MV_ADDI (R227). -/
def execMvAddi (d a : AReg) (imm : BitVec 40) (s : State) : Host.Outcome State Fault Refusal :=
  moveValue s d (fun e => e.get a + imm.signExtend 64)

/-- MV_SUB (R227). -/
def execMvSub (d a b : AReg) (s : State) : Host.Outcome State Fault Refusal := moveValue s d (fun e => e.get a - e.get b)

/-- MV_AND (R227). -/
def execMvAnd (d a b : AReg) (s : State) : Host.Outcome State Fault Refusal := moveValue s d (fun e => e.get a &&& e.get b)

/-- MV_SHL (R227). -/
def execMvShl (d a b : AReg) (s : State) : Host.Outcome State Fault Refusal :=
  moveValue s d (fun e => e.get a <<< ((e.get b).toNat % 64))

/-- MV_MUL (R227). -/
def execMvMul (d a b : AReg) (s : State) : Host.Outcome State Fault Refusal := moveValue s d (fun e => e.get a * e.get b)

/-- The comparison of `mv.br` (R70, R227). -/
def moveCond (cc : BitVec 4) (x y : DWord) : Bool :=
  match cc.toNat with
  | 0 => x == y
  | 1 => x != y
  | 2 => x.slt y
  | 3 => !x.slt y
  | 4 => x.ult y
  | _ => !x.ult y

/-- MV_BR (R227). -/
def execMvBr (cc : BitVec 4) (a b : AReg) (imm : BitVec 40) (s : State) : Host.Outcome State Fault Refusal :=
  moveScalar s (fun e r => if moveCond cc (e.get a) (e.get b) then r.goto (r.target imm) else r.next)

/-- MV_JAL (R227). -/
def execMvJal (d : AReg) (imm : BitVec 40) (s : State) : Host.Outcome State Fault Refusal :=
  moveScalar s (fun _ r => (r.put d (r.pc + 8)).goto (r.target imm))

/-- MV_JAL, flags 1 (R227): the jump uses the old value of its register. -/
def execMvJalReg (d a : AReg) (s : State) : Host.Outcome State Fault Refusal :=
  moveScalar s (fun e r => (r.put d (r.pc + 8)).goto (e.get a))

/-- MV_NEST (R227). -/
def execMvNest (k : BitVec 4) (a : AReg) (s : State) : Host.Outcome State Fault Refusal :=
  moveScalar s (fun e r => ({ r with n := r.n.setIfInBounds k.toNat (e.get a) } : Run).next)

/-- MV_LP (R227, R228). -/
def execMvLp (k : BitVec 4) (imm : BitVec 40) (s : State) : Host.Outcome State Fault Refusal :=
  moveScalar s (fun _ r =>
    let v := r.n.toList.getD k.toNat 0
    if v = 0 then r.next
    else
      let r := { r with n := r.n.setIfInBounds k.toNat (v - 1) }
      if v = 1 then r.next else r.goto (r.target imm))

/-- MV_RET (R246): the run ends; it retires when its commands have. -/
def execMvRet (s : State) : Host.Outcome State Fault Refusal := moveScalar s (fun _ r => { r with ended := true })

/-- MV_TRAP (R71, R246). -/
def execMvTrap (imm : BitVec 40) (s : State) : Host.Outcome State Fault Refusal :=
  moveStep s (fun e => s.endRun e.id e.r (e.r.pc.truncate 20) 0x02 (imm.zeroExtend 64))

/-- ILLEGAL_MOVE_WORD (R71, R247): an illegal word, or a fetch out of range or off its alignment, which names the word
that passed control there. -/
def execIllegalMoveWord (s : State) : Host.Outcome State Fault Refusal :=
  moveStep s (fun e =>
    let pc := e.r.pc.toNat
    if pc % 8 = 0 ∧ pc + 8 ≤ 2 ^ 20 then s.endRun e.id e.r (e.r.pc.truncate 20) (wordStatus 1 pc false) 0
    else s.endRun e.id e.r e.r.from_ (wordStatus 1 e.r.from_.toNat true) e.r.pc)

/-! ### Waits and signals (R243 to R245) -/

/-- The team of a kernel that a semaphore of a core belongs to: on the core, or swapped out of it (R150). Of several swapped-out
teams that last ran on the core it is the first by number (DESIGN CHOICE, log 27: R150 names the core alone). -/
def State.semTeam (s : State) (lid c : Nat) : Option Nat :=
  match s.teamOn lid c with
  | some tk => some tk
  | none =>
    (s.teams.find? (fun t => t.2.lid = lid && decide (t.2.lastCore = some c) &&
      (match t.2.place with | .saved _ => true | _ => false))).map (·.1)

/-- The team that owns semaphore `n` of a core for a kernel: a number outside the kernel's range is not its own. -/
def State.ownSem (s : State) (lid c n : Nat) : Option Nat :=
  match s.kernels.get? lid with
  | none => none
  | some k => if k.desc.ownsSem n then s.semTeam lid c else none

/-- The status of a semaphore that the kernel does not own (R247). -/
def semStatus (n : Nat) : Word := BitVec.ofNat 32 (0x09 + n * 2 ^ 13)

/-- MV_SIG (R243): once every earlier command of the run has retired, a release. -/
def execMvSig (a : AReg) (n amt : BitVec 8) (scope : BitVec 2) (s : State) : Host.Outcome State Fault Refusal :=
  moveStep s (fun e =>
    let v := e.get a
    if !e.quiet then s
    else if v.toNat / 512 ≠ 0 then e.illegal s
    else
      match s.ownSem e.r.lid v.toNat n.toNat with
      | none => s.endRun e.id e.r (e.r.pc.truncate 20) (semStatus n.toNat) 0
      | some tk => (s.setRun e.id e.r.next).signal v.toNat tk n.toNat amt.toNat (scope == 3))

/-- MV_TW, counter form (R244). -/
def execMvTw (a b : AReg) (s : State) : Host.Outcome State Fault Refusal :=
  moveStep s (fun e =>
    let v := e.get a
    let m := (e.get b).toNat
    if v.toNat / 512 ≠ 0 ∨ (v.toNat = e.id ∧ e.e.issue < m) then e.illegal s
    else if m ≤ (s.eng v.toNat).retire then s.setRun e.id e.r.next
    else s)

/-- MV_TW, semaphore form (R193, R244): the wait is queued once, and the word completes once it is served. -/
def execMvTwSem (n : BitVec 8) (a b : AReg) (s : State) : Host.Outcome State Fault Refusal :=
  moveStep s (fun e =>
    match e.r.semW with
    | .served => s.setRun e.id ({ e.r with semW := .notQueued } : Run).next
    | .queued => s
    | .notQueued =>
      let v := e.get a
      if v.toNat / 512 ≠ 0 ∨ 2 ^ 32 ≤ (e.get b).toNat then e.illegal s
      else
        match s.ownSem e.r.lid v.toNat n.toNat with
        | none => s.endRun e.id e.r (e.r.pc.truncate 20) (semStatus n.toNat) 0
        | some tk =>
          let s := s.stookStep v.toNat (fun k =>
            k.forceWhole v.toNat (outerDemander 6 e.id) (fun h => h.signals v.toNat tk n.toNat))
          (s.setRun e.id { e.r with semW := .queued }).queueWait tk n.toNat (.engine e.id) (e.get b).toNat)

/-- MV_FENCE (R245). -/
def execMvFence (s : State) : Host.Outcome State Fault Refusal :=
  moveStep s (fun e => if e.quiet then s.setRun e.id e.r.next else s)

/-- MV_FENCE, flags 1 (R245): the retire counter to a register. -/
def execMvFenceRd (d : AReg) (s : State) : Host.Outcome State Fault Refusal :=
  moveStep s (fun e => if e.quiet then s.setRun e.id (e.r.put d (BitVec.ofNat 64 e.e.retire)).next else s)

/-! ### The issue of a data word (R222, R224, R230, R231) -/

/-- The command that a word issues. -/
def newCmd (e : MoveEnv) (i : Instr) (blk : List Byte) (rows : Nat) (after : Bool) : Cmd where
  num := e.e.issue + 1
  lid := e.r.lid
  pc := e.r.pc.truncate 20
  op := i
  a := e.r.a
  blk := blk
  rows := rows
  st := if rows = 0 then .retired else .issued
  after := after
  bmp := 0
  slots := []
  flags := 0
  status := 0
  info := 0
  nres := 0
  susp := none
  posted := false
  ue := none
  far := none
  full := []
  wrote := []
  readB := []
  done := 0
  row := none

/-- What the issue of a word does beside making its command: an `mv.atom` with ret = 1 stalls the engine (R239), an
`mv.win` takes its windrow (R240), a storage write ends rollback ability (R263). -/
def State.onIssue (s : State) (e : MoveEnv) (i : Instr) (num : Nat) : State :=
  match i with
  | .mvAtom _ _ t _ _ ret =>
    if ret then s.updEng e.id (fun g => { g with run := g.run.map (fun (r : Run) => { r with atomW := some (num, t) }) }) else s
  | .mvWin w =>
    let (c, n) := winAt (e.get w.dst)
    s.updCore c (fun k => { k with
      windrows := k.windrows.set n.val { k.windrows[n.val] with served := some (e.id, num) } })
  | .mvNvm _ _ _ _ dir => if dir then s.loseRollback e.r.lid else s
  | _ => s

/-- A data word issues its command, unless eight are unretired or a check fails. -/
def MoveEnv.issue (e : MoveEnv) (s : State) (i : Instr) (blk : List Byte) (rows : Nat) (after : Bool) : State :=
  let c := newCmd e i blk rows after
  let r := { e.r.next with last := some c.num, stuck := none }
  let s := s.updEng e.id (fun g => ({ g with issue := c.num, cmds := g.cmds ++ [c], run := some r } : Engine).advance)
  if rows = 0 then s else s.onIssue e i c.num

end Sys2Proof.Machine
end

