-- ==== Sys2Proof/Machine/MoveElems.lean ====
section
/-! DEFINITION. The elements of move commands (R232 to R241, R249): which bytes an element reads and writes, in order, and
what it computes; the rows that a command touches, for its registration (R145) and for the order of R272. -/

namespace Sys2Proof.Machine

/-! ## Commands and their units (R249) -/

/-- The block of a command. -/
def Cmd.bk (c : Cmd) : Blk := { blkOf c.blk with rows := c.rows }
/-- A register of a command as it stood at issue. -/
def Cmd.reg (c : Cmd) (x : AReg) : DWord := c.a[x.toNat]'x.isLt
/-- `mv.win` has no boxes. -/
def Cmd.isWin (c : Cmd) : Bool := match c.op with | .mvWin _ => true | _ => false
/-- Rows per index. -/
def Cmd.group (c : Cmd) : Nat := match c.op with | .mvGath _ | .mvScat _ => 2 ^ c.bk.gs | _ => 1
/-- Columns that one element covers. -/
def Cmd.step (c : Cmd) : Nat :=
  match c.op with
  | .mvCopy _ | .mvCvt _ | .mvZip _ => if isBlock c.bk.df then 32 else 1
  | _ => 1
/-- Units of a command. -/
def Cmd.units (c : Cmd) : Nat := if (dataFields c.op).isSome then (if c.isWin then 0 else c.rows) else 1
/-- Elements of a row, and of a unit. -/
def Cmd.perRow (c : Cmd) : Nat := if (dataFields c.op).isSome then c.bk.cols / c.step else 1
def Cmd.perUnit (c : Cmd) : Nat := c.perRow * c.group
/-- Boxes, the first unit of a box, and the elements of a box. -/
def Cmd.boxes (c : Cmd) : Nat := min 64 c.units
def Cmd.boxLo (c : Cmd) (b : Nat) : Nat := b * c.units / c.boxes
def Cmd.boxLen (c : Cmd) (b : Nat) : Nat := (c.boxLo (b + 1) - c.boxLo b) * c.perUnit

/-- One box at a time, in ascending order (R250). -/
def Cmd.serial (c : Cmd) : Bool :=
  match c.op with
  | .mvRed w => maKind (c.reg w.dst) == 0
  | .mvScat _ => true
  | _ => false

/-! ## Accesses -/

/-- An access of an element: `n` bytes at an offset from a move address, or, for an element narrower than a byte, `w`
bits at `bit` of one byte; the permissions it needs, whether its fault counts as a write, and the run of its row, as
offsets from the same address. -/
structure Acc where
  base : DWord
  off  : Int
  n    : Nat
  bit  : Nat
  w    : Nat
  rd   : Bool
  wr   : Bool
  wbit : Bool
  lo   : Int
  hi   : Int
  deriving DecidableEq, Repr

/-- The move address of an access. -/
def Acc.mva (a : Acc) : DWord := BitVec.ofInt 64 ((a.base.toNat : Int) + a.off)

/-- `k` elements of format `f` from element `c` of a row that starts at an offset from a base and holds `cols`. -/
def rowAcc (base : DWord) (row : Int) (f : BitVec 4) (cols c k : Nat) (wr : Bool) : Acc :=
  let w := elemW f
  { base := base, off := row + (c * w / 8 : Nat), n := max 1 (k * w / 8), bit := if k * w < 8 then c * w % 8 else 0
    w := if k * w < 8 then k * w else 0, rd := !wr, wr := wr, wbit := wr, lo := row, hi := row + (rowBytes f cols : Nat) }

/-- The side entry of block `k` of row `r`, for a side array at an offset from a base (R32, R232). -/
def sideAcc (base : DWord) (side : Int) (f : BitVec 4) (cols r k : Nat) (wr : Bool) : Acc :=
  let row := side + (r * (cols / 32) * sideBytes f : Nat)
  { base := base, off := row + (k * sideBytes f : Nat), n := sideBytes f, bit := 0, w := 0, rd := !wr, wr := wr, wbit := wr
    lo := row, hi := row + (cols / 32 * sideBytes f : Nat) }

/-- `n` whole bytes at an offset. -/
def bytesAcc (base : DWord) (off : Int) (n : Nat) (rd wr wbit : Bool) : Acc :=
  { base := base, off := off, n := n, bit := 0, w := 0, rd := rd, wr := wr, wbit := wbit, lo := off, hi := off + n }

/-- The accesses of an element after its index entry, in the order of R249, and the bytes it writes to each target from
what it read: sources, and the old destination value. An element narrower than a byte is one byte that holds its code. -/
structure Plan where
  srcs : List Acc
  old  : Option Acc
  dsts : List Acc
  out  : List (List Byte) → List Byte → List (List Byte) × Flags

/-- The code of an element in its bytes. -/
def codeOf (bs : List Byte) : Nat := leNat bs
/-- The bytes of an element with a code. -/
def codeBytes (f : BitVec 4) (v : Nat) : List Byte := leBytes (max 1 (elemW f / 8)) v

/-! ## What elements compute -/

/-- The codes of 32 elements, or of one, as read. -/
def codesOf (f : BitVec 4) (k : Nat) (bs : List Byte) : List Nat := if k = 1 then [codeOf bs] else unpackE (elemW f) k bs

/-- The side entry as read. -/
def sideOfBytes (f : BitVec 4) (bs : List Byte) : Nat × Nat := ((sideEntries f 1 bs).head?).getD (0x7F, 0)

/-- A conversion of one element, or of one block (R235, R238): the bytes of its codes, and of its side entry. -/
def convOut (src dst : BitVec 4) (sat : Bool) (k : Nat) (codes sideB : List Byte) : List (List Byte) × Flags :=
  let cs := codesOf src k codes
  let sd := sideOfBytes src sideB
  if isBlock dst then
    let r := encodeBlock dst .rne (cs.map (valueOf src sd))
    ([packE (elemW dst) r.codes, sideOf dst r.scale r.spare], r.fl)
  else
    let rs := cs.map (convElem src dst .rne sat sd)
    ([codeBytes dst ((rs.map (·.code)).headD 0)], orFlags (rs.map (·.fl)))

/-- One addition of R52: rounded to FP32 by RNE. -/
def addFP32 (x y : Num × Flags) : Num × Flags :=
  let z := addN .rne x.1 y.1
  let r := roundTo fFP32 .rne false z.1
  (decodeE fFP32 r.code, x.2 ||| y.2 ||| z.2 ||| r.fl)

/-- The sum of sources in the order of R52. -/
def sumFP (xs : List Num) : Num × Flags :=
  match xs.map (fun x => (x, (0 : Flags))) with
  | [a, b, c, d] => addFP32 (addFP32 a b) (addFP32 c d)
  | [a, b, c] => addFP32 (addFP32 a b) c
  | [a, b] => addFP32 a b
  | [a] => a
  | _ => (.fin false 0 0, 0)

/-- An element of `mv.red` (R52, R237): its code and flags, from source codes and the old code, if it accumulates. -/
def redOut (sf df : BitVec 4) (sat : Bool) (srcs : List Nat) (old : Option Nat) : Rnd :=
  match ifmt sf with
  | some (w, sg) =>
    let t := (srcs.map (intOf w sg)).sum + ((old.map (intOf 32 true)).getD 0)
    ⟨intCode 32 t, 0⟩
  | none =>
    let s := sumFP (srcs.map (decodeE sf))
    let y := match old with
      | some v => addFP32 s (decodeE df v, 0)
      | none => s
    let r := roundTo df .rne sat y.1
    ⟨r.code, y.2 ||| r.fl⟩

/-- The read-modify-write of `mv.atom` (R239): the new value, from the type, the old value, the operand and comparand. -/
def atomOut (ty op : Nat) (old x cmp : Nat) : Nat × Flags :=
  let w := if ty = 1 then 64 else 32
  let si (v : Nat) : Int := intOf w true v
  let x := x % 2 ^ w
  if op = 8 then (x, 0)
  else if op = 9 then (if old = cmp % 2 ^ w then x else old, 0)
  else if ty = 2 then
    let a := decodeE fFP32 old
    let b := decodeE fFP32 x
    if op = 0 then
      let z := addN .rne a b
      let r := roundTo fFP32 .rne false z.1
      (r.code, z.2 ||| r.fl)
    else ((roundTo fFP32 .rne false (if op = 1 then minNum a b else maxNum a b)).code, a.sigF ||| b.sigF)
  else
    ((match op with
      | 0 => (old + x) % 2 ^ w
      | 1 => if si old ≤ si x then old else x
      | 2 => if si old ≤ si x then x else old
      | 3 => min old x
      | 4 => max old x
      | 5 => old &&& x
      | 6 => old ||| x
      | _ => old ^^^ x), 0)

/-! ## The elements of each command -/

/-- Copies of what was read. -/
def sameOut (srcs : List (List Byte)) (_ : List Byte) : List (List Byte) × Flags := (srcs, 0)

/-- Row offsets of the packed side of `mv.zip` and `mv.unzip`, and of its side array (R238). -/
def packedRow (f : BitVec 4) (cols r : Nat) : Int := (r * rowBytes f cols : Nat)
def packedSide (f : BitVec 4) (cols rows : Nat) : Int := ((rows * rowBytes f cols + 15) / 16 * 16 : Nat)

/-- Element `j` of unit `u` of a command; `g` is its index, for `mv.gath` and `mv.scat`. -/
def Cmd.plan (c : Cmd) (u j g : Nat) : Plan :=
  let b := c.bk
  let cols := b.cols
  match c.op with
  | .mvCopy w | .mvCvt w =>
    let k := c.step
    let e := j * k
    let rs : Int := u * b.sp
    let rd : Int := u * b.dp
    let srcs := rowAcc (c.reg w.src1) rs b.sf cols e k false ::
      (if isBlock b.sf then [sideAcc (c.reg w.src1) b.exLo b.sf cols u (e / 32) false] else [])
    let dsts := rowAcc (c.reg w.dst) rd b.df cols e k true ::
      (if isBlock b.df then [sideAcc (c.reg w.dst) b.exHi b.df cols u (e / 32) true] else [])
    { srcs := srcs, old := none, dsts := dsts
      out := match c.op with
        | .mvCvt _ => fun xs _ => convOut b.sf b.df b.sat k (xs.headD []) ((xs.tail).headD [])
        | _ => sameOut }
  | .mvZip w =>
    let k := c.step
    let e := j * k
    { srcs := [rowAcc (c.reg w.src1) (u * b.sp) b.sf cols e k false], old := none
      dsts := rowAcc (c.reg w.dst) (packedRow b.df cols u) b.df cols e k true ::
        (if isBlock b.df then [sideAcc (c.reg w.dst) (packedSide b.df cols b.rows) b.df cols u (e / 32) true] else [])
      out := fun xs _ => convOut b.sf b.df b.sat k (xs.headD []) [] }
  | .mvUnzip w =>
    { srcs := rowAcc (c.reg w.src1) (packedRow b.sf cols u) b.sf cols j 1 false ::
        (if isBlock b.sf then [sideAcc (c.reg w.src1) (packedSide b.sf cols b.rows) b.sf cols u (j / 32) false] else [])
      old := none, dsts := [rowAcc (c.reg w.dst) (u * b.dp) b.df cols j 1 true]
      out := fun xs _ => convOut b.sf b.df false 1 (xs.headD []) ((xs.tail).headD []) }
  | .mvTpose w =>
    { srcs := [rowAcc (c.reg w.src1) (u * b.sp) b.sf cols j 1 false], old := none
      dsts := [rowAcc (c.reg w.dst) (j * b.dp) b.df b.rows u 1 true], out := sameOut }
  | .mvMcast w =>
    let cores := (List.range 64).filter (fun i => b.ex.testBit i)
    { srcs := [rowAcc (c.reg w.src1) (u * b.sp) b.sf cols j 1 false], old := none
      dsts := cores.map (fun i => rowAcc (c.reg w.dst + BitVec.ofNat 64 (i * 2 ^ 32)) (u * b.dp) b.df cols j 1 true)
      out := fun xs _ => (cores.map (fun _ => xs.headD []), 0) }
  | .mvGath w =>
    let q := j / cols
    let k := g * c.group + q
    let e := j % cols
    { srcs := if k < b.exLo then [rowAcc (c.reg w.src1) (k * b.sp) b.sf cols e 1 false] else [], old := none
      dsts := [rowAcc (c.reg w.dst) ((u * c.group + q : Nat) * b.dp) b.df cols e 1 true]
      out := fun xs _ => ([xs.headD (codeBytes b.df 0)], 0) }
  | .mvScat w =>
    let q := j / cols
    let k := g * c.group + q
    let e := j % cols
    if k < b.exLo then
      { srcs := [rowAcc (c.reg w.src1) ((u * c.group + q : Nat) * b.sp) b.sf cols e 1 false], old := none
        dsts := [rowAcc (c.reg w.dst) (k * b.dp) b.df cols e 1 true], out := sameOut }
    else { srcs := [], old := none, dsts := [], out := sameOut }
  | .mvRed w =>
    let dst := rowAcc (c.reg w.dst) (u * b.dp) b.df cols j 1 true
    { srcs := (List.range (b.ns + 1)).map (fun i =>
        rowAcc (c.a.toList.getD (w.src1.toNat + i) 0) (u * b.sp) b.sf cols j 1 false)
      old := if b.ac then some { dst with rd := true, wbit := false } else none
      dsts := [dst]
      out := fun xs old =>
        let r := redOut b.sf b.df b.sat (xs.map codeOf) (if b.ac then some (codeOf old) else none)
        ([codeBytes b.df r.code], r.fl) }
  | .mvAtom d x y op ty _ =>
    let n := if ty = 1 then 8 else 4
    let acc := bytesAcc (c.reg d) 0 n true true true
    { srcs := [], old := some acc, dsts := [acc]
      out := fun _ old =>
        let r := atomOut ty.toNat op.toNat (leNat old) (c.reg x).toNat (c.reg y).toNat
        ([leBytes n r.1], r.2) }
  | _ => { srcs := [], old := none, dsts := [], out := sameOut }

/-- The index entry of unit `u` (R236). -/
def Cmd.index (c : Cmd) (u : Nat) : Option Acc :=
  let n := if c.bk.ix then 4 else 2
  match c.op with
  | .mvGath w | .mvScat w => some (bytesAcc (c.reg w.src2) (u * n : Nat) n true false false)
  | _ => none

/-! ## The rows a command touches (R145, R272) -/

/-- Rows of `len` bytes at a pitch from a move address. -/
structure Rows where
  base  : DWord
  off   : Int
  pitch : Int
  count : Nat
  len   : Nat
  wr    : Bool
  deriving DecidableEq, Repr

/-- The rows of a packed operand, and its side array for a block format. -/
def operandRows (base : DWord) (f : BitVec 4) (cols rows : Nat) (pitch side : Int) (wr : Bool) : List Rows :=
  { base := base, off := 0, pitch := pitch, count := rows, len := rowBytes f cols, wr := wr } ::
    (if isBlock f then
      [{ base := base, off := side, pitch := 0, count := 1, len := rows * (cols / 32) * sideBytes f, wr := wr }]
    else [])

/-- Every row that a command may read or write. Those of a `mv.scat` depend on indices that it has not read when it registers:
all L rows from a[d] on, clipped to the scratchpad (DESIGN CHOICE, log 41). -/
def Cmd.touches (s : State) (c : Cmd) : List Rows :=
  let b := c.bk
  match c.op with
  | .mvCopy w | .mvCvt w =>
    operandRows (c.reg w.src1) b.sf b.cols b.rows b.sp b.exLo false ++
      operandRows (c.reg w.dst) b.df b.cols b.rows b.dp b.exHi true
  | .mvZip w =>
    operandRows (c.reg w.src1) b.sf b.cols b.rows b.sp 0 false ++
      operandRows (c.reg w.dst) b.df b.cols b.rows (rowBytes b.df b.cols) (packedSide b.df b.cols b.rows) true
  | .mvUnzip w =>
    operandRows (c.reg w.src1) b.sf b.cols b.rows (rowBytes b.sf b.cols) (packedSide b.sf b.cols b.rows) false ++
      operandRows (c.reg w.dst) b.df b.cols b.rows b.dp 0 true
  | .mvTpose w =>
    operandRows (c.reg w.src1) b.sf b.cols b.rows b.sp 0 false ++
      operandRows (c.reg w.dst) b.df b.rows b.cols b.dp 0 true
  | .mvMcast w =>
    operandRows (c.reg w.src1) b.sf b.cols b.rows b.sp 0 false ++
      ((List.range 64).filter (fun i => b.ex.testBit i)).flatMap (fun i =>
        operandRows (c.reg w.dst + BitVec.ofNat 64 (i * 2 ^ 32)) b.df b.cols b.rows b.dp 0 true)
  | .mvGath w =>
    { base := c.reg w.src2, off := 0, pitch := 0, count := 1, len := b.rows * (if b.ix then 4 else 2), wr := false } ::
      operandRows (c.reg w.src1) b.sf b.cols b.exLo b.sp 0 false ++
      operandRows (c.reg w.dst) b.df b.cols (b.rows * c.group) b.dp 0 true
  | .mvScat w =>
    { base := c.reg w.src2, off := 0, pitch := 0, count := 1, len := b.rows * (if b.ix then 4 else 2), wr := false } ::
      operandRows (c.reg w.src1) b.sf b.cols (b.rows * c.group) b.sp 0 false ++
      operandRows (c.reg w.dst) b.df b.cols b.exLo b.dp 0 true
  | .mvRed w =>
    (List.range (b.ns + 1)).flatMap (fun i =>
      operandRows (c.a.toList.getD (w.src1.toNat + i) 0) b.sf b.cols b.rows b.sp 0 false) ++
      operandRows (c.reg w.dst) b.df b.cols b.rows b.dp 0 true
  | .mvAtom d _ _ _ ty _ =>
    [{ base := c.reg d, off := 0, pitch := 0, count := 1, len := if ty = 1 then 8 else 4, wr := true }]
  | .mvCsum d | .mvCsumSrc d => [{ base := c.reg d, off := 0, pitch := 0, count := 1, len := 4, wr := true }]
  | .mvNvm d _ t qp dir =>
    let lbs := (((s.ctxs.get? (s.lidCtx c.lid)).bind (fun (x : Ctx) => x.pairs.get? qp.toNat)).map (·.lbs.toNat)).getD 0
    [{ base := c.reg d, off := 0, pitch := 0, count := 1, len := (c.reg t).toNat * (512 * 2 ^ lbs), wr := !dir }]
  | .mvWin w =>
    let (core, n) := winAt (c.reg w.dst)
    let win := (s.core core).windrows[n.val]
    [{ base := c.reg w.src1, off := 0, pitch := b.sp, count := b.rows, len := win.pitch.toNat, wr := false },
      { base := BitVec.ofNat 64 (2 ^ 62 + core * 2 ^ 32 + win.base.toNat), off := 0, pitch := win.pitch.toNat
        count := win.rows.toNat, len := win.pitch.toNat, wr := true }]
  | _ => []

/-- Some row meets [x, y), as offsets from address 0. -/
def Rows.meets (r : Rows) (x y : Int) : Bool :=
  let a : Int := r.base.toNat + r.off
  if r.count = 0 ∨ r.len = 0 ∨ y ≤ x then false
  else if r.pitch = 0 then decide (a < y ∧ x < a + r.len)
  else
    -- rows t with a + t·p < y and x < a + t·p + len
    let p := r.pitch
    let (lo, hi) : Int × Int :=
      if 0 < p then ((x - r.len - a) / p + 1, (y - 1 - a) / p) else ((a + 1 - y + (-p) - 1) / (-p), (a + r.len - x - 1) / (-p))
    decide (max 0 lo ≤ min ((r.count : Int) - 1) hi)

/-- The least and greatest offsets, within a core's scratchpad, that rows of kind 1 cover. -/
def Rows.bounds (r : Rows) : Nat × Nat :=
  let a : Int := ((r.base.toNat % 2 ^ 23 : Nat) : Int) + r.off
  let z : Int := a + r.pitch * ((r.count : Int) - 1)
  let lo := min a z
  let hi := max a z + r.len
  if r.count = 0 ∨ r.len = 0 then (0, 0) else (lo.toNat, min (2 ^ 23) hi.toNat)

/-- The scratchpad ranges that a command registers, as cores with bounding granules (R145); `mv.win` registers row by
row. -/
def Cmd.ranges (s : State) (c : Cmd) : List (Nat × Span) :=
  if c.isWin then []
  else
    let ws := (c.touches s).filter (fun r => r.wr && maKind r.base == 1)
    (ws.map (fun r => maCore r.base)).eraseDups.filterMap (fun core =>
      let bs := ((ws.filter (fun r => maCore r.base == core)).map Rows.bounds).filter (fun b => decide (b.1 < b.2))
      match bs with
      | [] => none
      | b :: bs =>
        let x := bs.foldl (fun (x y : Nat × Nat) => (min x.1 y.1, max x.2 y.2)) b
        some (core, Span.granules (dspLoc core x.1, dspLoc core x.2)))

/-- The rows from a place of an access in one unit to its place in later units, `n` of them, `pitch` apart. -/
def Acc.rows (a : Acc) (pitch : Int) (n : Nat) : Rows :=
  { base := a.base, off := a.lo, pitch := pitch, count := n, len := (a.hi - a.lo).toNat, wr := a.wr }

/-- Rows `lo` to `hi` (exclusive) of an operand, the first from column `e` on. -/
def rowsFrom (base : DWord) (f : BitVec 4) (cols e lo hi : Nat) (pitch : Int) (wr : Bool) : List Rows :=
  let skip := e * elemW f / 8
  if hi ≤ lo then []
  else
    [{ base := base, off := lo * pitch + skip, pitch := 0, count := 1, len := rowBytes f cols - skip, wr := wr },
      { base := base, off := (lo + 1) * pitch, pitch := pitch, count := hi - (lo + 1), len := rowBytes f cols, wr := wr }]

/-- The 64 KiB granules of virtual memory that rows of device memory touch. -/
def Rows.pages (r : Rows) : List Nat :=
  if maKind r.base ≠ 0 ∨ r.len = 0 then []
  else (List.range r.count).flatMap (fun (t : Nat) =>
    let a := ((r.base.toNat : Int) + r.off + t * r.pitch).toNat
    (List.range ((a % 65536 + r.len + 65535) / 65536)).map (fun i => a / 65536 * 65536 + i * 65536))

/-- Where a page of a context lies, with its kind, as the context's tables stand. -/
def State.pageOf (s : State) (die ctx va : Nat) : Option (Nat × BitVec 2) :=
  match (s.walk die ctx va).fin with
  | .leaf e size => (match s.useLeaf ctx va e size false false with | .ok x => some x | .error _ => none)
  | .fault _ => none

/-- The index of a unit as its entry stands, if it lies in one page and that page is mapped. -/
def State.peekIndex (s : State) (die : Nat) (c : Cmd) (u : Nat) : Option Nat :=
  (c.index u).bind (fun a =>
    let at_ := ((a.base.toNat : Int) + a.off).toNat
    if maKind a.base = 1 then some (s.mem.num (dspLoc (maCore a.base) (at_ % 2 ^ 23)) a.n)
    else if 65536 < at_ % 65536 + a.n then none
    else (s.pageOf die (s.lidCtx c.lid) (at_ / 65536 * 65536)).map (fun p => s.mem.num (p.1 + at_ % 65536) a.n))

/-- The rows of an indexed operand that units `lo` to `hi` (exclusive) name, the first unit from its element `e` on: those of
its index as it stands, or all where that is not known. -/
def State.indexedRows (s : State) (die : Nat) (c : Cmd) (base : DWord) (f : BitVec 4) (pitch : Int) (wr : Bool) (e lo hi : Nat) :
    List Rows :=
  let b := c.bk
  (List.range (hi - lo)).flatMap (fun i =>
    let e := if i = 0 then e else 0
    match s.peekIndex die c (lo + i) with
    | some g => rowsFrom base f b.cols (e % b.cols) (g * c.group + e / b.cols) (min b.exLo (g * c.group + c.group)) pitch wr
    | none => operandRows base f b.cols b.exLo pitch 0 wr)

/-- What the elements of a box from its cursor on may still touch (R249, R272). -/
def Cmd.boxLeft (s : State) (die : Nat) (c : Cmd) (x : BoxSlot) : List Rows :=
  let b := c.bk
  let u := c.boxLo x.box + x.cur / c.perUnit
  let j := x.cur % c.perUnit
  let stop := c.boxLo (x.box + 1)
  let n := stop - (u + 1)
  let entries (w : DataWord) : Rows :=
    let z := if b.ix then 4 else 2
    { base := c.reg w.src2, off := (u * z : Nat), pitch := 0, count := 1, len := (stop - u) * z, wr := false }
  match c.op with
  | .mvTpose w =>
    let z := elemW b.df
    rowsFrom (c.reg w.src1) b.sf b.cols j u stop b.sp false ++
      [{ base := c.reg w.dst, off := j * b.dp + (u * z / 8 : Nat), pitch := b.dp, count := b.cols - j, len := max 1 (z / 8), wr := true },
        { base := c.reg w.dst, off := ((u + 1) * z / 8 : Nat), pitch := b.dp, count := b.cols
          len := (stop * z + 7) / 8 - (u + 1) * z / 8, wr := true }]
  | .mvGath w =>
    entries w :: s.indexedRows die c (c.reg w.src1) b.sf b.sp false j u stop ++
      rowsFrom (c.reg w.dst) b.df b.cols (j % b.cols) (u * c.group + j / b.cols) (stop * c.group) b.dp true
  | .mvScat w =>
    let saved := ((List.range x.saved.length).zip x.saved).drop (if x.ph then x.cur else 0)
    saved.flatMap (fun q =>
      (c.plan 0 (q.2.1 % c.group * b.cols + q.1 % b.cols) (q.2.1 / c.group)).dsts.map (fun a => a.rows 0 1)) ++
      (if x.ph then []
      else
        entries w :: rowsFrom (c.reg w.src1) b.sf b.cols (j % b.cols) (u * c.group + j / b.cols) (stop * c.group) b.sp false ++
          s.indexedRows die c (c.reg w.dst) b.df b.dp true j u stop)
  | _ =>
    let accs (u j : Nat) : List Acc := let p := c.plan u j 0; p.srcs ++ p.old.toList ++ p.dsts
    (accs u j).map (fun a => { a.rows 0 1 with off := a.off, len := (a.hi - a.off).toNat }) ++
      (if n = 0 then [] else ((accs (u + 1) 0).zip (accs (u + 2) 0)).map (fun p => p.1.rows (p.2.lo - p.1.lo) n))

/-- What a command may still read or write (R240, R249, R272): what the elements that its boxes have not passed may touch; of
a `mv.win` the rest of its row, and while its windrow is enabled the rows after it; of a `mv.nvm` that has sent the data of a
write nothing. -/
def Cmd.left (s : State) (die : Nat) (c : Cmd) : List Rows :=
  match c.op with
  | .mvWin w =>
    let (core, n) := winAt (c.reg w.dst)
    let now := (s.core core).windrows[n.val]
    let win := c.row.getD now
    let t := win.arrived.toNat
    let p := win.pitch.toNat
    let slot : DWord := BitVec.ofNat 64 (2 ^ 62 + core * 2 ^ 32 + win.base.toNat)
    (if c.row.isSome || now.en then
      [{ base := c.reg w.src1, off := t * c.bk.sp + c.done, pitch := 0, count := if t < c.rows then 1 else 0
         len := p - c.done, wr := false },
        { base := slot, off := (t % win.rows.toNat * p + c.done : Nat), pitch := 0, count := 1, len := p - c.done, wr := true }]
    else []) ++
    (if now.en then
      [{ base := c.reg w.src1, off := (t + 1) * c.bk.sp, pitch := c.bk.sp, count := c.rows - (t + 1), len := p, wr := false },
        { base := slot, off := 0, pitch := p, count := win.rows.toNat, len := p, wr := true }]
    else [])
  | .mvAtom .. | .mvCsum _ | .mvCsumSrc _ => if c.bmp.getLsbD 0 then [] else c.touches s
  | .mvNvm _ _ _ _ dir => if c.bmp.getLsbD 0 || (dir && c.slots.any (·.ph)) then [] else c.touches s
  | _ =>
    ((List.range c.boxes).filter (fun b => !c.bmp.getLsbD b)).flatMap (fun b =>
      c.boxLeft s die ((c.slots.find? (fun x => x.box = b)).getD { box := b, ph := false, cur := 0, saved := [] }))

/-- A command may still touch a page of kind SO (R272): some granule of its rows of device memory translates so, or has no
translation yet, so that it may be given one. -/
def Cmd.touchesSO (s : State) (die : Nat) (c : Cmd) : Bool :=
  (c.left s die).any (fun r => r.pages.any (fun va =>
    match (s.walk die (s.lidCtx c.lid) va).fin with
    | .leaf e _ => par e 4 2 == 0
    | .fault _ => true))

end Sys2Proof.Machine
end

