-- ==== Sys2Proof/Machine/KernelWords.lean ====
section
/-! DEFINITION. Kernel words of strands: `yield` (R344), early start (R346), work ranges (R347) and pipes (R341). -/

namespace Sys2Proof.Machine

/-- YIELD (R344): with a switch or a park pending, the strand stops at the boundary after it; for a park it stays there. -/
def execYield (s : State) : Host.Outcome State Fault Refusal :=
  strandWord s [] [] (fun e =>
    if (s.core e.core).switch || e.tm.park.isSome then
      let t := (WordEnd.done e.st s).apply e
      .ended ((t.updStrand e.key (fun st =>
        { st with st := .stopped, wait := none, yielded := e.tm.park.isSome })).settlePark e.tk e.core)
    else .done e.st s)

/-- DEP_WAIT (R346). -/
def execDepWait (s : State) : Host.Outcome State Fault Refusal :=
  strandWord s [] [] (fun e =>
    if s.producersFired e.kn then .done e.st s
    else .ended ((s.setStrand e.key { s.park e.core e.st (.poll e.mark) with held := some .depWait }).settleWaiting e.tm.lid))

/-- DEP_TRIG (R345, R346): a release. -/
def execDepTrig (s : State) : Host.Outcome State Fault Refusal :=
  strandWord s [] [] (fun e =>
    fenceEnd e s (.ended ((WordEnd.done { e.st with trig := true } s).apply e).settleKernels))

/-! ## Work ranges -/

/-- RNG_INIT (R347). -/
def execRngInit (x y : XReg) (s : State) : Host.Outcome State Fault Refusal :=
  strandWord s [x, y] [] (fun e =>
    let lo := e.st.getX x
    let hi := e.st.getX y
    .done e.st (s.updTeam e.tk (fun t => if lo < hi then { t with lo := lo, hi := hi } else { t with lo := 0, hi := 0 })))

/-- The teams that a steal of team `t` asks, in order (R347). -/
def victims (t n : Nat) : List Nat := (List.range (n - 1)).map (fun i => (t + 1 + i) % n)

/-- RNG_NEXT (R347): an index of the team's own range, or a steal. -/
def execRngNext (d : XReg) (s : State) : Host.Outcome State Fault Refusal :=
  strandWord s [] [d] (fun e =>
    if e.tm.lo < e.tm.hi then
      .done (e.st.setX d e.tm.lo) (s.updTeam e.tk (fun t => { t with lo := t.lo + 1 }))
    else
      match victims e.tm.num e.kn.desc.teams with
      | [] => .done (e.st.setX d 0xFFFFFFFF) s
      | vs => .block (.steal d vs) s)

/-- RANGE_STEAL (R347): the steal reaches its next victim; a range that the thief's team has meanwhile is used first
(log 24). -/
def execRangeSteal (key : Nat) (s : State) : Host.Outcome State Fault Refusal :=
  .next (match s.strands.get? key with
    | none => s
    | some st =>
      match st.wait with
      | some (.steal d vs) =>
        let tk := strandTeam key
        let own := (s.teams.get? tk).map (fun t => (t.lo, t.hi))
        match own with
        | none => s
        | some (lo, hi) =>
          if lo < hi then (s.updTeam tk (fun t => { t with lo := lo + 1 })).complete key (fun st => st.setX d lo)
          else
            match vs with
            | [] => s.complete key (fun st => st.setX d 0xFFFFFFFF)
            | u :: us =>
              let uk := teamKey (strandLid key) u
              match s.teams.get? uk with
              | none => s.setStrand key { st with wait := some (.steal d us) }
              | some v =>
                if v.started ∧ v.lo < v.hi ∧ 2 ≤ (v.hi - v.lo).toNat then
                  let m := v.lo + BitVec.ofNat 32 (((v.hi - v.lo).toNat + 1) / 2)
                  let s := s.updTeam uk (fun t => { t with hi := m })
                  let s := s.updTeam tk (fun t => { t with lo := m + 1, hi := v.hi })
                  s.complete key (fun st => st.setX d m)
                else if us = [] then s.complete key (fun st => st.setX d 0xFFFFFFFF)
                else s.setStrand key { st with wait := some (.steal d us) }
      | _ => s)

/-! ## Pipes (R341) -/

/-- A pipe that strands of a kernel may use. -/
def State.pipe (s : State) (k : Kernel) (n : Nat) : Option Pipe := (s.recs.get? k.recId).bind (fun r => r.pipes.get? n)

/-- A pipe is closed when every started team of its producer stage has ended; it is open while that stage has still to
start (R337, log 24). -/
def State.pipeClosed (s : State) (k : Kernel) (p : Pipe) : Bool :=
  match s.recs.get? k.recId with
  | none => true
  | some r =>
    match r.lids[p.prd]? with
    | none => true
    | some lid =>
      let ts := s.teams.filter (fun t => t.2.lid = lid && t.2.started)
      !(ts.isEmpty && ((s.kernels.get? lid).map (fun k => k.st.live)).getD false) &&
        ts.all (fun t => (List.range 4).all (fun i =>
          match s.strandOf lid (t.2.num * 4 + i) with
          | some st => decide (st.st = .ended)
          | none => true))

/-- A misuse of a pipe. -/
def pipeTrap (e : Env) (s : State) (n : BitVec 5) : WordEnd := .trap 12 false (0xFFFFFF00 + n.zeroExtend 32) e.st s

/-- A pipe of a record changed. -/
def State.setPipe (s : State) (k : Kernel) (n : Nat) (p : Pipe) : State :=
  s.updRec k.recId (fun r => { r with pipes := r.pipes.set n p })

/-- The element that `pp.pop` writes, and its flags: an integer result of any format is sign-extended (R341). -/
def pipeValue (p : Pipe) (v : Word) : Word × Flags :=
  let r := convE p.pf p.cf .rne p.sat false false v.toNat
  (match ifmt p.cf with
    | some (w, _) => BitVec.ofInt 32 (intOf w true r.code)
    | none => BitVec.ofNat 32 r.code, r.fl)

/-- PP_PUSH (R341): a release. -/
def execPpPush (n : BitVec 5) (x : XReg) (s : State) : Host.Outcome State Fault Refusal :=
  strandWord s [x] [] (fun e =>
    match s.pipe e.kn n.toNat with
    | none => pipeTrap e s n
    | some p =>
      if p.prd ≠ e.kn.member then pipeTrap e s n
      else if p.depth ≤ p.q.length then .block (.poll e.mark) s
      else
        fenceEnd e s (.done e.st (s.setPipe e.kn n.toNat
          { p with q := p.q ++ [BitVec.ofNat 32 ((e.st.getX x).toNat % 2 ^ elemW p.pf)] })))

/-- PP_POP (R341). -/
def execPpPop (d : XReg) (n : BitVec 5) (s : State) : Host.Outcome State Fault Refusal :=
  strandWord s [] [d] (fun e =>
    match s.pipe e.kn n.toNat with
    | none => pipeTrap e s n
    | some p =>
      if p.con ≠ e.kn.member then pipeTrap e s n
      else
        match p.q with
        | [] => if s.pipeClosed e.kn p then .done (e.st.setX d 0) s else .block (.poll e.mark) s
        | v :: q =>
          let r := pipeValue p v
          .done ((e.st.raise r.2).setX d r.1) (s.setPipe e.kn n.toNat { p with q := q }))

/-- PP_PEEK (R341). -/
def execPpPeek (d : XReg) (n : BitVec 5) (s : State) : Host.Outcome State Fault Refusal :=
  strandWord s [] [d] (fun e =>
    match s.pipe e.kn n.toNat with
    | none => pipeTrap e s n
    | some p =>
      .done (e.st.setX d (BitVec.ofNat 32 (p.q.length % 512 + (if s.pipeClosed e.kn p then 2 ^ 31 else 0)))) s)

end Sys2Proof.Machine
end

