-- ==== Sys2Proof/Machine/Teams.lean ====
section
/-! DEFINITION. Reads and writes of device memory by the device itself, save slots, the loft bank, the placing, switching,
eviction and resumption of teams (R315 to R320), the quantum of an oversubscribed kernel (R343) and the cores of a
pipeline (R342). -/

namespace Sys2Proof.Machine

/-! ## Events of a context (R331, R332) -/

/-- The bytes of an event of 64 bytes as a number. -/
def eventBytes (n : Nat) : List Byte := leBytes 64 n

/-- An event arises for a context (R332): with the ring not in use it is discarded, and with 256 waiting it is lost. -/
def State.postEvent (s : State) (ctx : Nat) (e : List Byte) : State :=
  s.updCtx ctx (fun c =>
    if c.est = 0 then c
    else if 256 ≤ c.waiting.length then { c with elost := c.elost + 1 }
    else { c with waiting := c.waiting ++ [e] })

/-- A service or link event for every context in RUN (R382, R392). -/
def State.postRun (s : State) (n : Nat) : State :=
  (s.ctxs.filter (fun c => decide (c.2.st = .run))).foldl (fun s c => s.postEvent c.1 (eventBytes n)) s

/-! ## Accesses of a die to virtual memory (R326, R335, R399) -/

/-- How a read of virtual memory ends: its bytes, the address of a translation fault, or the location of an
uncorrectable error. -/
inductive ReadEnd where
  | ok (bs : List Byte)
  | fault (va : Nat)
  | ue (loc : Nat)
  deriving DecidableEq, Repr

/-- A read of `n` bytes of a context's virtual memory through the last-level TLB of a die. -/
def State.readVirt (s : State) (die ctx va n : Nat) : State × ReadEnd :=
  (byGranule va n).foldl (fun (r : State × ReadEnd) p =>
    match r.2 with
    | .ok bs =>
      match r.1.transNow die ctx p.1 true false with
      | (s, .error none) => (s, .fault p.1)
      | (s, .error (some l)) => (s, .ue l)
      | (s, .ok (pa, _)) =>
        if s.isOwn pa then
          match s.readHome (some ctx) pa p.2 with
          | (s, new, none) => (s, .ok (bs ++ new))
          | (s, _, some l) => (s, .ue l)
        else
          -- another package's memory is read at its home (R370)
          match s.poison.find? (wordMeets pa p.2) with
          | some l => (s, .ue l)
          | none => (s, .ok (bs ++ s.mem.read pa p.2))
    | e => (r.1, e)) (s, .ok [])

/-- The physical pieces of a run of virtual memory, or the address at which its translation faults. -/
def State.transAll (s : State) (die ctx va n : Nat) (rd wr : Bool) : State × Except Nat (List (Nat × Nat)) :=
  (byGranule va n).foldl (fun (r : State × Except Nat (List (Nat × Nat))) p =>
    match r.2 with
    | .ok ps =>
      match r.1.transNow die ctx p.1 rd wr with
      | (s, .error _) => (s, .error p.1)
      | (s, .ok (pa, _)) => (s, .ok (ps ++ [(pa, p.2)]))
    | e => (r.1, e)) (s, .ok [])

/-- An access of a die to virtual memory reaches another package while no link carries traffic, so it waits (R370). -/
def State.farAway (s : State) (die ctx va n : Nat) (wr : Bool) : Bool :=
  !s.linked && (match (s.transAll die ctx va n (!wr) wr).2 with
    | .ok ps => ps.any (fun p => !s.isOwn p.1)
    | .error _ => false)

/-- Bytes written to a run of physical pieces. -/
def State.putPieces (s : State) (ps : List (Nat × Nat)) (bs : List Byte) : State :=
  (ps.foldl (fun (r : State × List Byte) p =>
    let w := r.2.take p.2
    ((if r.1.isOwn p.1 then r.1.writeHome p.1 w else r.1.setMem (r.1.mem.write p.1 w)), r.2.drop p.2)) (s, bs)).1

/-- A write of virtual memory: nothing is written if its translation faults. -/
def State.writeVirt (s : State) (die ctx va : Nat) (bs : List Byte) : State × Option Nat :=
  match s.transAll die ctx va bs.length false true with
  | (s, .error a) => (s, some a)
  | (s, .ok ps) => (s.putPieces ps bs, none)

/-- The die whose Reeve slice holds the queue of a kernel (R335). -/
def State.sliceOf (s : State) (k : Kernel) : Nat := ((s.recs.get? k.recId).map (fun r => r.qid / 1024)).getD 0

/-- Some image of a kernel lies where no link reaches. -/
def State.imagesAway (s : State) (k : Kernel) : Bool :=
  !s.linked && [(k.desc.tva, k.desc.tsz), (k.desc.dva, k.desc.dsz), (k.desc.mva, k.desc.msz)].any (fun x =>
    s.farAway (s.sliceOf k) k.ctx x.1 x.2 false)

/-- The failure of a kernel whose image read did not end well (R335, R349). -/
def imageFault (die : Nat) : ReadEnd → Faults
  | .ok _ => Faults.none
  | .fault va =>
    { Faults.none with fk := 4, unit := 8 * 4096 + die, info := BitVec.ofNat 32 va
                       hi := BitVec.ofNat 32 (va / 2 ^ 32 % 2 ^ 20 + 2 ^ 31) }
  | .ue l =>
    { Faults.none with fk := 4, unit := locUnit l, info := BitVec.ofNat 32 (locAddr l)
                       hi := BitVec.ofNat 32 (locAddr l / 2 ^ 32 % 2 ^ 20) }

/-! ## Save slots (R319) -/

/-- Save slots of a context (R303). -/
def State.slotCount (s : State) (ctx : Nat) : Nat := par (s.cfgWord ctx 3) 0 12
/-- Slots that nobody holds. -/
def State.freeSlots (s : State) (ctx : Nat) : List Nat :=
  (List.range (s.slotCount ctx)).filter (fun i => ((s.ctxs.get? ctx).bind (fun c => c.slots.get? i)).isNone)
/-- A slot for a team: its own, one its kernel has reserved, or a free one. -/
def State.slotFor (s : State) (tk : Nat) : Option Nat :=
  let lid := tk / 512
  let ctx := s.lidCtx lid
  let own := (((s.ctxs.get? ctx).map (·.slots)).getD []).filter (fun e =>
    e.2 = lid && !s.teams.any (fun t => t.2.lid = lid && t.2.slot == some e.1))
  match (s.teams.get? tk).bind (·.slot), own with
  | some n, _ => some n
  | none, e :: _ => some e.1
  | none, [] => (s.freeSlots ctx).head?
/-- A slot held by a kernel. -/
def State.takeSlot (s : State) (ctx slot lid : Nat) : State :=
  s.updCtx ctx (fun c => { c with slots := c.slots.set slot lid })
/-- Every slot of a kernel zeroed and free. -/
def State.freeSlotsOf (s : State) (lid : Nat) : State :=
  let ctx := s.lidCtx lid
  let held := (((s.ctxs.get? ctx).map (·.slots)).getD []).filter (fun e => e.2 = lid)
  (held.foldl (fun (s : State) e => s.zeroHome (s.slotAt ctx e.1) slotSize) s).updCtx ctx (fun c =>
    { c with slots := c.slots.filter (fun e => e.2 ≠ lid) })

/-- Bytes whose format the manual does not give (log 14). -/
def freeBytes (tick a n : Nat) : List Byte := (List.range n).map (fun i => Config.freeByte tick (a + i))

/-- The runs of a team's core storage that eviction moves, with their offsets in the slot (R319, R320). -/
def Team.coreParts (t : Team) (d : KDesc) (c : Nat) : List (Nat × Nat × Nat) :=
  (accLoc c (1024 * d.accRows.1), 0x100000 + 1024 * d.accRows.1, 1024 * (d.accRows.2 - d.accRows.1)) ::
    t.owned.map (fun r => (dspLoc c r.1, 0x200000 + r.1, r.2 - r.1)) ++
    (if d.tw then [(ispLoc c 0, 0xA00000, 0x40000)] else [])

/-- Every live strand of a team has stopped or ended. -/
def State.allStopped (s : State) (tk : Nat) : Bool :=
  (teamStrands tk).all (fun k =>
    match s.strands.get? k with
    | some st => decide (st.st = .stopped) || decide (st.st = .ended)
    | none => true)

/-! ## Where a team may be (R188, R316, R320, R335) -/

/-- A core in service (R390, R391). -/
def State.coreOn (s : State) (c : Nat) : Bool :=
  (match s.cores.get? c with | some k => !k.retired | none => false) && !s.fencedDies.contains (c / 64)

/-- A core on which a team may become active. -/
def State.coreFree (s : State) (c : Nat) : Bool := s.coreOn c && (s.core c).active.isNone && !(s.core c).switch

/-- The region table of a descriptor as owned runs. -/
def KDesc.owned (d : KDesc) : List Span := (Team.start 0 0 d.regions).owned

/-- A kernel's team and another team share no byte of a region, no accumulator row and no semaphore (R316). -/
def disjointTeams (d : KDesc) (t : Team) (e : KDesc) : Bool :=
  !spansMeet d.owned t.owned && !Span.meets d.accRows e.accRows &&
    !(d.sv && e.sv && decide (d.slo ≤ e.shi) && decide (e.slo ≤ d.shi))

/-- The text that a kernel's teams fetch: loaded on core `c`, or the image itself before loading. -/
def State.textOf (s : State) (c : Nat) (k : Kernel) : List Byte :=
  if k.st = .admitted then
    match (s.readVirt (s.sliceOf k) k.ctx k.desc.tva k.desc.tsz).2 with
    | .ok bs => bs
    | _ => []
  else s.mem.read (ispLoc c 0) k.desc.tsz

/-- A core can hold a team of a kernel with descriptor `d` and text `text`, which brings `kept` stook entries, beside the teams
it holds, but for the entries that those have in its stook (R188, R316, R320, R335). -/
def State.mayTake (s : State) (c : Nat) (d : KDesc) (text : List Byte) (kept : Nat) : Bool :=
  decide ((s.core c).residents.length ≤ 1) && ((s.core c).residents.isEmpty || decide (kept ≤ 512)) && (s.core c).residents.all (fun tk =>
    match s.teams.get? tk, s.kernels.get? (tk / 512) with
    | some t, some k =>
      !d.tw && !k.desc.tw && disjointTeams d t k.desc && decide (k.desc.tsz = d.tsz) && s.textOf c k == text
    | _, _ => false)

/-- The teams of a core leave half of its stook to a second one: two teams hold 512 entries each at most (R188). -/
def Core.halves (k : Core) : Bool :=
  k.residents.all (fun tk => decide ((k.stook.filter (fun h => h.team = tk)).length ≤ 512))

/-- A core takes a team of a kernel with descriptor `d` and text `text` that brings `kept` stook entries (R188, R316, R320,
R335). -/
def State.takes (s : State) (c : Nat) (d : KDesc) (text : List Byte) (kept : Nat) : Bool :=
  s.mayTake c d text kept && (s.core c).halves

/-- The oldest unforced sheaves of a core's teams beyond 512 each are forced whole, before a second team is placed (R188). The
spec lists no kind for this force; a fault in its work is recorded as of a forced wait, kind 7, with no strand (DESIGN CHOICE,
log 42). -/
def State.makeRoom (s : State) (c : Nat) : State :=
  (s.core c).residents.foldl (fun s tk =>
    let mine := (s.core c).stook.filter (fun h => decide (h.team = tk) && h.subs.any SubSt.isOpen)
    let old := (mine.take (mine.length - 512)).map (·.seq)
    s.stookStep c (fun k => k.forceWhole c waitDemander (fun h => old.contains h.seq))) s

/-- A core given to a kernel: one that no team of another kernel is on is no longer given to that one. -/
def State.giveCore (s : State) (lid c : Nat) : State :=
  { s with kernels := s.kernels.map (fun (e : Nat × Kernel) =>
      if e.1 = lid then (e.1, { e.2 with cores := insertNat c e.2.cores, used := insertNat c e.2.used })
      else if (s.teamOn e.1 c).isSome then e
      else (e.1, { e.2 with cores := e.2.cores.filter (· ≠ c) })) }

/-! ## Loading and first placement (R82, R168, R335) -/

/-- The text image copied into a core's instruction scratchpad, zero beyond it. -/
def State.loadText (s : State) (k : Kernel) (c : Nat) : State × Faults :=
  match s.readVirt (s.sliceOf k) k.ctx k.desc.tva k.desc.tsz with
  | (s, .ok bs) => (((s.zero (ispLoc c 0) 0x40000).store (ispLoc c 0) bs).updCore c (fun k => { k with stale := [] }), Faults.none)
  | (s, e) => (s, imageFault (s.sliceOf k) e)

/-- The data image copied into a core's scratchpad. -/
def State.loadData (s : State) (k : Kernel) (c : Nat) : State × Faults :=
  match s.readVirt (s.sliceOf k) k.ctx k.desc.dva k.desc.dsz with
  | (s, .ok bs) => (s.store (dspLoc c 0) bs, Faults.none)
  | (s, e) => (s, imageFault (s.sliceOf k) e)

/-- The images of a team loaded on a core (R335). -/
def State.loadTeam (s : State) (k : Kernel) (c : Nat) : State × Faults :=
  let r := s.loadText k c
  if r.2.fk = 0 then r.1.loadData k c else r

/-- A bank of a core that no team of it uses. -/
def State.freeBank (s : State) (c : Nat) : Nat :=
  if (s.core c).residents.any (fun tk => ((s.teams.get? tk).map (·.bank)) = some 0) then 1 else 0

/-- The semaphores of a kernel's range OWNED with count 0 for a team (R151). -/
def State.ownSems (s : State) (tk : Nat) (d : KDesc) : State :=
  if d.sv then
    { s with sems := (List.range (d.shi + 1 - d.slo)).foldl (fun (m : Tbl Sem) i =>
        m.set (semKey tk (d.slo + i)) { count := 0, ovf := false, sys := false, q := [] }) s.sems }
  else s

/-- A team placed for the first time: its regions, accumulator rows, weight halves and control store are as at first
placement, its semaphores are owned (R138, R116, R151, R168). -/
def State.placeFresh (s : State) (tk c : Nat) (k : Kernel) : State :=
  let b := s.freeBank c
  let t := { Team.start k.lid (tk % 512) k.desc.regions with place := .active c, bank := b, lastCore := some c }
  let s := (s.clearBank c b).zero (accLoc c (1024 * k.desc.accRows.1)) (1024 * (k.desc.accRows.2 - k.desc.accRows.1))
  let s := k.desc.owned.foldl (fun s r => s.zero (dspLoc c r.1) (r.2 - r.1)) s
  ((s.setTeam tk t).ownSems tk k.desc).updCore c (fun k => { k with active := some tk }) |>.giveCore k.lid c

/-- The strands of a placed team start (R82). -/
def State.startTeam (s : State) (tk : Nat) (k : Kernel) : State :=
  let nums := ((List.range 4).map (fun i => tk % 512 * 4 + i)).filter (fun n => decide (n ≤ k.desc.nsm))
  { (s.updTeam tk (fun t => { t with started := true })) with
    strands := nums.foldl (fun (m : Tbl Strand) n =>
      m.set (strandKey k.lid n) (Strand.start k.lid n (BitVec.ofNat 32 (0x800000 + k.desc.eoff)) k.arg)) s.strands }

/-! ## Spilling, eviction, resumption (R213, R318, R319) -/

/-- The open blocks of a team converted to run without capture (R213). -/
def State.convertBlocks (s : State) (tk c : Nat) : State :=
  match s.teams.get? tk with
  | none => s
  | some t =>
    let ctx := s.lidCtx t.lid
    let s := t.blocks.foldl (fun (s : State) b =>
      let key := strandKey t.lid (t.num * 4 + b.1)
      match b.2.1 with
      | .capture => s.updCore c (fun k => { k with gran := k.gran.filter (fun g => !(g.pinnedBy ctx b.2.2 key && decide (g.st = .filling))) })
      | .replay => s.updCore c (fun k => { k with
          gran := unpin k.gran ctx b.2.2 key id
          cnt := { k.cnt with gmiss := k.cnt.gmiss + 1 } })
      | .run => s) s
    s.updTeam tk (fun t => { t with blocks := t.blocks.map (fun (b : Nat × BlockSt × Word) => (b.1, .run, b.2.2)) })

/-- The spill engine begins (R318): the team has a slot and its blocks are converted; with no slot the bank stays
HELD. -/
def State.beginSpill (s : State) (tk c : Nat) : State :=
  match s.slotFor tk with
  | none => s.updCore c (fun k => { k with loft := .held })
  | some n =>
    (((s.convertBlocks tk c).takeSlot (s.lidCtx (tk / 512)) n (tk / 512)).updTeam tk (fun t => { t with slot := some n })).updCore c
      (fun k => { k with loft := .spilling })

/-- SPILL_COMPLETE (R318): slot and bank hold the same state; the bytes whose format is not given are free (log 14). -/
def execSpillComplete (c : Nat) (s : State) : Host.Outcome State Fault Refusal :=
  .next (match (s.core c).loft, (s.core c).held.bind (fun tk => (s.teams.get? tk).map (fun t => (tk, t))) with
  | .spilling, some (tk, t) =>
    match t.slot with
    | none => s
    | some n =>
      let a := s.slotAt (s.lidCtx t.lid) n
      let s := s.writeHome a (freeBytes s.tick a 0x1000)
      let s := (teamStrands tk).foldl (fun (s : State) k =>
        if (s.strands.get? k).isSome then
          s.writeHome (a + 0x1000 + 0x2000 * (k % 4)) (freeBytes s.tick (a + 0x1000 + 0x2000 * (k % 4)) 0x2000)
        else s) s
      let s := (bankParts c t.bank).foldl (fun (s : State) p => s.copyRun (s.lidCtx t.lid) p.1 (a + p.2.1) p.2.2) s
      s.updCore c (fun k => { k with loft := .clean })
  | _, _ => s)

/-- Nothing of a team holds its core: its dispatched work is complete and no scoreboard entry covers its regions (R187,
R319). -/
def State.settled (s : State) (tk c : Nat) (t : Team) : Bool :=
  let k := s.core c
  k.stook.all (fun h => h.team ≠ tk || (!h.subs.any SubSt.isDisp && !h.settled)) &&
    k.tq.all (fun q => decide (q.team ≠ tk)) &&
    k.sb.all (fun e => !spansMeet [(e.2.lo, e.2.hi)] (t.owned.map (fun r => (dspLoc c r.1, dspLoc c r.2))))

/-- The team leaves its core for its slot (R319). -/
def State.evict (s : State) (tk c n : Nat) (t : Team) (k : Kernel) : State :=
  let a := s.slotAt k.ctx n
  let mine := (s.core c).stook.filter (fun h => h.team = tk)
  let s := s.convertBlocks tk c
  let parts := t.coreParts k.desc c
  let s := parts.foldl (fun (s : State) p => s.copyRun k.ctx p.1 (a + p.2.1) p.2.2) s
  let s := s.writeHome (a + 0x9000) (freeBytes s.tick (a + 0x9000) 0x800)
  let s := s.writeHome (a + 0x80000) (freeBytes s.tick (a + 0x80000) (512 * mine.length))
  let s := (parts.foldl (fun (s : State) p => s.zero p.1 p.2.2) s).clearBank c t.bank
  let s := s.updTeam tk (fun t => { t with
    place := .saved n, slot := some n, lastCore := some c, home := if (s.core c).retired then some c else none, waited := s.tick, kept := mine
    parked := t.park.isSome && t.parked })
  let s := { s with
    sems := s.sems.map (fun (e : Nat × Sem) =>
      if e.1 / 256 = tk then
        (e.1, { e.2 with q := e.2.q.map (fun (w : Waiter × Word) => match w.1 with | .sheaf _ q => (.kept tk q, w.2) | _ => w) })
      else e)
    strands := s.strands.map (fun (e : Nat × Strand) =>
      if strandTeam e.1 = tk then
        (e.1, { e.2 with wait := match e.2.wait with | some (.pushed _ _ n w t) => some (.pushed 0 0 n w t) | w => w })
      else e) }
  let s := s.updCore c (fun k => { k with
    held := none, loft := .empty, stook := k.stook.filter (fun h => h.team ≠ tk)
    stale := if (s.kernels.get? (tk / 512)).any (·.desc.tw) then [] else k.stale })
  -- a park that has not taken effect gives no core away (R342, R344)
  match if t.parked then t.park else none with
  | some dst => { s with kernels := s.kernels.modify k.lid (fun k => { k with cores := k.cores.filter (· ≠ c) }) }.giveCore dst c
  | none => s

/-! ## Switch points (R317) -/

/-- A strand stops at the boundary before its word; a queued wait leaves its queue (R108, R317). -/
def State.stopStrand (s : State) (key : Nat) : State :=
  { (s.updStrand key (fun st => { st with
      st := .stopped
      wait := match st.wait with
        | some .synced => some .synced
        | some (.pushed lo hi n w t) => some (.pushed lo hi n w t)
        | _ => none })) with
    sems := s.sems.map (fun (e : Nat × Sem) => (e.1, { e.2 with q := e.2.q.filter (fun w => w.1 ≠ .strand key) })) }

/-- The strands of a team that are at their switch point stop: those that are BLOCKED, and those at a word boundary with
no live level; with `due`, every one (R317). A wait that this frees from one queued before it is served (R154). -/
def State.stopAtPoint (s : State) (tk : Nat) (due : Bool) : State :=
  let stops := (teamStrands tk).filter (fun k =>
    match s.strands.get? k with
    | some st => decide (st.st = .blocked ∨ (st.st = .running ∧ (due ∨ st.loops = [])))
    | none => false)
  let keys := (s.sems.filter (fun (e : Nat × Sem) =>
    e.2.q.any (fun w => stops.any (fun k => decide (w.1 = .strand k))))).map (·.1)
  keys.foldl State.serveSem (stops.foldl State.stopStrand s)

/-- An ended team that is to leave a core with an empty loft bank is the outgoing team of the switch (R317: an ENDED strand
needs no switch point). -/
def State.outgoing (s : State) (c : Nat) : State :=
  match (s.core c).active, (s.core c).held, (s.core c).spent with
  | none, none, tk :: more =>
    (s.updTeam tk (fun t => { t with place := .active c })).updCore c (fun k => { k with active := some tk, spent := more })
  | _, _, _ => s

/-- A team switch of a core is requested. -/
def State.askSwitch (s : State) (c : Nat) : State :=
  if (s.core c).switch then s
  else
    let s := (s.outgoing c).updCore c (fun k => { k with switch := true, due := false })
    match (s.core c).active with
    | some tk => s.stopAtPoint tk false
    | none => s

/-! ## Cores taken out of service (R390, R391) -/

/-- The spare that may stand in for a core (R13): spare 64 + s of the die, for clusters 2s and 2s + 1. -/
def spareOf (c : Nat) : Nat := c / 64 * 4 + c % 64 / 16

/-- Retired cores that hold no team any more: the spare takes the core id, and event 0x42 is posted (R391, R392). The spec says no
more than that the spare is loaded; here it holds all that the core held beside its teams: granary entries, counters, windrows
(DESIGN CHOICE, log 42). -/
def State.settleOut (s : State) : State :=
  (s.cores.filter (fun c => c.2.retired && c.2.residents.isEmpty)).foldl (fun (s : State) c =>
    ({ s.updCore c.1 (fun k => { k with retired := false }) with spareCores := s.spareCores.set (spareOf c.1) c.1 }).postRun
      (0x42 + c.1 * 2 ^ 32 + (if s.choice 0x42 then 2 ^ 48 else 0))) s

/-- The next step out of a core that is out of service: a switch of the team that is active or has filled the bank, or the
spill of one that is held. -/
def State.leaveCore (s : State) (c : Nat) : State :=
  let k := s.core c
  if s.coreOn c || k.switch then s
  else
    match k.loft, k.held with
    | .spilling, _ | .clean, _ => s
    | .held, some tk => s.beginSpill tk c
    | _, _ => if k.residents.isEmpty then s.settleOut else s.askSwitch c

/-- EVICT_TEAM (R319): the CLEAN team of a core's loft bank is swapped out. -/
def execEvictTeam (c : Nat) (s : State) : Host.Outcome State Fault Refusal :=
  .next (match (s.core c).loft, (s.core c).held with
  | .clean, some tk =>
    match s.teams.get? tk, s.kernels.get? (tk / 512) with
    | some t, some k =>
      match t.slot with
      | some n => if s.settled tk c t && !(s.core c).switch then (s.evict tk c n t k).leaveCore c else s
      | none => s
    | _, _ => s
  | _, _ => s)

/-- A strand of a team that comes back runs, or is BLOCKED still in a word that it must not repeat; one that has stopped at a
`yield` for a park that is still pending stays there (R344). -/
def Strand.back (parking : Bool) (st : Strand) : Strand :=
  if st.st ≠ .stopped ∨ (parking && st.yielded) then st
  else { st with st := if st.wait.isSome then .blocked else .running, yielded := false }

/-- The strands of a team resume (R83, R317). -/
def State.resumeTeam (s : State) (tk : Nat) : State :=
  let parking := (s.teams.get? tk).any (fun t => t.park.isSome && !t.parked)
  ((teamStrands tk).foldl (fun (s : State) k => s.updStrand k (Strand.back parking)) s).updTeam tk (fun t =>
    if t.parked then { t with park := none, parked := false } else t)

/-- The first uncorrectable error of a team's slot (R319). -/
def State.slotError (s : State) (ctx a : Nat) (parts : List (Nat × Nat × Nat)) : State × Option Nat :=
  parts.foldl (fun (r : State × Option Nat) p =>
    match r.2 with
    | some _ => r
    | none => r.1.readCheck (some ctx) (a + p.2.1) p.2.2) (s, none)

/-- A swapped-out team restored on a core in bank `b` (R318, R319, R320): its bytes, its stook entries and the waits of
those. A slot that cannot be read fails its kernel. -/
def State.restore (s : State) (tk c b n : Nat) (t : Team) (k : Kernel) : State :=
  let a := s.slotAt k.ctx n
  let parts := bankParts c b ++ t.coreParts k.desc c
  match s.slotError k.ctx a ((0, 0, 0x9800) :: (0, 0x80000, 512 * t.kept.length) :: parts) with
  | (s, some l) => s.fail k.lid (imageFault 0 (.ue l))
  | (s, none) =>
    let r := if k.desc.tw || (s.core c).residents ≠ [] then (s, Faults.none) else s.loadText k c
    if r.2.fk ≠ 0 then r.1.fail k.lid r.2
    else
      let s := parts.foldl (fun (s : State) p => s.copyRun k.ctx (a + p.2.1) p.1 p.2.2) r.1
      let s := s.zeroHome a slotSize
      let base := (s.core c).nextSeq
      let move (q : Nat) : Nat := base + ((t.kept.map (·.seq)).idxOf q)
      let s := s.updCore c (fun x => { x with
        nextSeq := base + t.kept.length
        stook := x.stook ++ t.kept.map (fun h => { h with seq := move h.seq, bank := b })
        stale := if k.desc.tw then [] else x.stale })
      let s := { s with sems := s.sems.map (fun (e : Nat × Sem) =>
        if e.1 / 256 = tk then
          (e.1, { e.2 with q := e.2.q.map (fun (w : Waiter × Word) => match w.1 with | .kept _ q => (.sheaf c (move q), w.2) | _ => w) })
        else e) }
      (s.updTeam tk (fun t => { t with bank := b, slot := none, kept := [], lastCore := some c, home := none })).giveCore k.lid c

/-- The text of a kernel as a core beside another team would have to hold it. -/
def State.textImage (s : State) (k : Kernel) : List Byte :=
  match (s.readVirt (s.sliceOf k) k.ctx k.desc.tva k.desc.tsz).2 with
  | .ok bs => bs
  | _ => []

/-- A record of a gang or a pipeline. -/
def State.isGang (s : State) (recId : Nat) : Bool := (s.recs.get? recId).any (fun r => r.form = 2 || r.form = 3)

/-- The record of the kernel of a team, if it is a gang or a pipeline. -/
def State.gangOf (s : State) (tk : Nat) : Option Nat :=
  (s.kernels.get? (tk / 512)).bind (fun k => if s.isGang k.recId then some k.recId else none)

/-- The cores that hold teams of a record, resident or in their loft banks. -/
def State.gangOn (s : State) (recId : Nat) : List Nat :=
  (s.cores.filter (fun c => c.2.residents.any (fun tk => (s.kernels.get? (tk / 512)).any (fun k => k.recId = recId)))).map (·.1)

/-- A team of a gang may come to core `c` only if the gang's other teams are on its die (R337, R394); a team evicted from a
retired core comes to the spare that took the core's id, if its die is in service (R391). -/
def State.goesTo (s : State) (tk c : Nat) (t : Team) : Bool :=
  (match s.gangOf tk with
    | some r => (s.gangOn r).all (fun d => decide (d / 64 = c / 64))
    | none => true) &&
  (match t.home with
    | some h => decide (h = c) || s.fencedDies.contains (h / 64)
    | none => true)

/-- LOFT_FILL (R318, R188): a swapped-out team fills the EMPTY loft bank of a core that takes it. -/
def execLoftFill (c tk : Nat) (s : State) : Host.Outcome State Fault Refusal :=
  .next (match s.teams.get? tk, s.kernels.get? (tk / 512) with
  | some t, some k =>
    match t.place, (s.core c).loft with
    | .saved n, .empty =>
      if !k.st.live || !s.coreOn c || (s.core c).switch || !s.goesTo tk c t || s.imagesAway k then s
      else
        let s := if s.mayTake c k.desc (s.textImage k) t.kept.length then s.makeRoom c else s
        if s.takes c k.desc (s.textImage k) t.kept.length then
          let s := s.restore tk c (s.freeBank c) n t k
          if ((s.kernels.get? k.lid).map (·.st.live)) = some true then
            (s.updTeam tk (fun t => { t with place := .held c })).updCore c (fun x => { x with held := some tk, loft := .filled })
          else s
        else s
    | _, _ => s
  | _, _ => s)

/-! ## Switches (R317) -/

/-- The cores on which teams of a record are resident. -/
def State.coresOf (s : State) (recId : Nat) : List Nat :=
  (s.cores.filter (fun c => (c.2.active.toList ++ c.2.spent).any (fun tk =>
    (s.kernels.get? (tk / 512)).any (fun k => k.recId = recId)))).map (·.1)

/-- A team that Reeve may pre-empt: its kernel has lp = 0, and so has every member of its gang (R337, R343). -/
def State.mayLeave (s : State) (k : Kernel) : Bool :=
  s.kernels.all (fun e => e.2.recId ≠ k.recId || !e.2.desc.lp)

/-- A team is parked (R344). -/
def State.isParked (s : State) (tk : Nat) : Bool := ((s.teams.get? tk).map (·.parked)).getD false

/-- The cores that must switch together with some cores: those of every gang that has a team there, not parked (R337); `fuel`
bounds the rounds. -/
def State.switchSet (s : State) : Nat → List Nat → List Nat
  | 0, cs => cs
  | n + 1, cs =>
    let more := cs.flatMap (fun c => ((s.core c).residents.filter (fun tk => !s.isParked tk)).flatMap (fun tk =>
      ((s.gangOf tk).map s.gangOn).getD []))
    if more.all cs.contains then cs else State.switchSet s n (cs ++ more).eraseDups

/-- A core may make a switch: it is in service and makes none, the teams that would leave it may, and the team that would
come in is of no gang that has a team swapped out. -/
def State.maySwitch (s : State) (out : Nat → Bool) (c : Nat) : Bool :=
  s.coreOn c && !(s.core c).switch &&
    ((s.core c).active.toList ++ (s.core c).spent).all (fun tk =>
      s.isParked tk || ((s.kernels.get? (tk / 512)).map s.mayLeave).getD false) &&
    (match (s.core c).held.bind s.gangOf with
      | some r => !out r
      | none => true)

/-- Some team of a gang is swapped out and not parked. -/
def State.gangAway (s : State) (r : Nat) : Bool :=
  s.teams.any (fun t => s.gangOf t.1 == some r && (match t.2.place with | .saved _ => !t.2.parked && !(t.2.started && s.teamEnded t.1) | _ => false))

/-- A switch of one core, whose team leaves alone; with a team of a gang in the bank, of every core of that gang at once, so that
the gang comes back together (R337). -/
def State.askTogether (s : State) (c : Nat) : State :=
  match s.switchSet s.cores.length [c] with
  | [_] => s.askSwitch c
  | cs => if cs.all (s.maySwitch s.gangAway) then cs.foldl State.askSwitch s else s

/-- TEAM_SWITCH_REQUEST (R317, R337, R343): of one core, or of every core of a gang at once, whose teams leave and come back
together. A parked team leaves by the same switch. -/
def execTeamSwitchRequest (c : Nat) (s : State) : Host.Outcome State Fault Refusal :=
  .next (
    let k := s.core c
    if !s.coreOn c then s.leaveCore c
    else if k.active.any s.isParked then s.askTogether c
    else if k.residents.isEmpty then s
    else
      let cs := s.switchSet s.cores.length [c]
      if cs.all (s.maySwitch s.gangAway) then cs.foldl State.askSwitch s else s)

/-- SWITCH_POINT_TIMEOUT (R317): the strands that have not stopped do so at their next word boundary. -/
def execSwitchPointTimeout (c : Nat) (s : State) : Host.Outcome State Fault Refusal :=
  .next (if (s.core c).switch then
    let s := s.updCore c (fun k => { k with due := true })
    match (s.core c).active with
    | some tk => s.stopAtPoint tk true
    | none => s
  else s)

/-- Dispatched walker work of a team is not complete (R219). -/
def State.walking (s : State) (tk c : Nat) : Bool :=
  (s.core c).stook.any (fun h => decide (h.team = tk) && h.subs.any SubSt.isDisp &&
    (match tileInstr h.word with | .twalk .. => true | _ => false))

/-- A team whose bytes are on a core becomes the active one: it resumes, or, if it left before its kernel was loaded, starts
once that is (R317, R335). -/
def State.enterTeam (s : State) (tk c : Nat) : State :=
  match s.teams.get? tk, s.kernels.get? (tk / 512) with
  | some t, some k =>
    let s := (s.updTeam tk (fun t => { t with place := .active c })).updCore c (fun x => { x with active := some tk })
    if t.started then s.resumeTeam tk
    else if k.st = .admitted then s
    else
      let r := s.loadTeam k c
      if r.2.fk = 0 then r.1.startTeam tk k else r.1.fail k.lid r.2
  | _, _ => s

/-- A team in a loft bank would start there, and its images cannot be reached (R370). -/
def State.startsAway (s : State) (tk : Nat) : Bool :=
  match s.teams.get? tk, s.kernels.get? (tk / 512) with
  | some t, some k => !t.started && decide (k.st ≠ .admitted) && s.imagesAway k
  | _, _ => false

/-- TEAM_SWITCH_COMPLETE (R317, R318): the teams are exchanged, pending results have arrived, and the spill of the
outgoing team begins. A switch with no outgoing team leaves the bank EMPTY. -/
def execTeamSwitchComplete (c : Nat) (s : State) : Host.Outcome State Fault Refusal :=
  .next (
    let k := s.core c
    if !k.switch || k.held.any s.startsAway then s
    else
      match k.active with
      | some out =>
        if !s.allStopped out || s.walking out c then s
        else
          let s := (teamStrands out).foldl (fun (s : State) k => s.updStrand k Strand.deliverAll) s
          let s := s.updTeam out (fun t => { t with place := .held c })
          let s := s.updCore c (fun k => { k with active := none, held := some out, loft := .held, switch := false, due := false })
          let s := match k.held with
            | some tk => s.enterTeam tk c
            | none => s
          (s.beginSpill out c).leaveCore c
      | none =>
        let s := s.updCore c (fun k => { k with held := none, loft := .empty, switch := false, due := false })
        (match k.held with
          | some tk => s.enterTeam tk c
          | none => s).leaveCore c)

/-! ## Placing (R316, R337, R343) -/

/-- A team waits to be placed or resumed: it is live, on no core and not ended. -/
def State.waits (s : State) (tk : Nat) (t : Team) : Bool :=
  match t.place with
  | .waiting => true
  | .saved _ => !(t.started && s.teamEnded tk) && !t.parked
  | _ => false

/-- The team of a kernel that is next for a core: of a pipeline stage the lowest parked, then the lowest unstarted; else
the one that has waited longest, in team order on a tie (R342, R343). -/
def State.nextTeam (s : State) (k : Kernel) : Option Nat :=
  let mine := s.teams.filter (fun t => t.2.lid = k.lid)
  let parked := (mine.filter (fun t => t.2.parked && (match t.2.place with | .saved _ => true | _ => false))).map (·.1)
  let fresh := (mine.filter (fun t => decide (t.2.place = .waiting))).map (·.1)
  let waiting := mine.filter (fun t => s.waits t.1 t.2)
  if s.isGang k.recId then (parked ++ fresh).head?
  else
    (waiting.foldl (fun (b : Option (Nat × Team)) t => match b with
      | none => some t
      | some u => if t.2.waited < u.2.waited then some t else some u) none).map (·.1)

/-- A team placed on a free core: a fresh start, or a resumed context. -/
def State.placeTeam (s : State) (tk c : Nat) (t : Team) (k : Kernel) : State :=
  match t.place with
  | .waiting =>
    let r := (s.placeFresh tk c k).loadTeam k c
    if r.2.fk = 0 then r.1.startTeam tk k else r.1.fail k.lid r.2
  | .saved n =>
    let s := s.restore tk c (s.freeBank c) n t k
    if ((s.kernels.get? k.lid).map (·.st.live)) = some true then s.enterTeam tk c else s
  | _ => s

/-- The swapped-out teams of a gang that must come back together (R337, R391). -/
def State.gangOut (s : State) (recId : Nat) : List (Nat × Team) :=
  s.teams.filter (fun t => (s.kernels.get? t.2.lid).any (fun k => k.recId = recId) &&
    (match t.2.place with | .saved _ => !t.2.parked && !(t.2.started && s.teamEnded t.1) | _ => false))

/-- Free cores for the swapped-out teams of a gang, all or none; `cs` are the cores of one die that are left. `room` asks for the
stook entries of R188, too. -/
def State.gangSeats (s : State) (room : Bool) : List (Nat × Team) → List Nat → Option (List (Nat × Nat))
  | [], _ => some []
  | (tk, t) :: ts, cs =>
    (s.kernels.get? t.lid).bind fun k =>
    (cs.find? (fun c => s.goesTo tk c t && s.coreFree c && s.mayTake c k.desc (s.textImage k) t.kept.length &&
      (!room || (s.core c).halves))).bind fun c =>
    (State.gangSeats s room ts (cs.filter (· ≠ c))).map ((tk, c) :: ·)

/-- The swapped-out teams of a gang placed on cores of one die at once, or, where only stook entries lack, those entries given up
(R188, R337). -/
def State.placeGang (s : State) (out : List (Nat × Team)) (cs : List Nat) : State :=
  match s.gangSeats true out cs with
  | some ps => ps.foldl (fun (s : State) p =>
      match s.teams.get? p.1, s.kernels.get? (p.1 / 512) with
      | some t, some k => s.placeTeam p.1 p.2 t k
      | _, _ => s) s
  | none => ((s.gangSeats false out cs).getD []).foldl (fun (s : State) p => s.makeRoom p.2) s

/-- TEAM_PLACE (R316, R337, R343, R394): Reeve places a waiting or swapped-out team on a core. -/
def execTeamPlace (tk c : Nat) (s : State) : Host.Outcome State Fault Refusal :=
  .next (match s.teams.get? tk, s.kernels.get? (tk / 512) with
  | some t, some k =>
    if !k.st.live || decide (k.st = .admitted ∧ t.place = .waiting) || s.imagesAway k then s
    else if s.isGang k.recId && !t.parked && decide (t.place ≠ .waiting) then
      let out := s.gangOut k.recId
      if !out.any (fun e => e.1 = tk) then s
      else
        -- no team of it is in a loft bank or on a core that is to give it up
        let here := (s.cores.map (·.1)).filter (fun d => decide (d / 64 = c / 64))
        if (s.gangOn k.recId).any (fun d => decide (d / 64 ≠ c / 64) || !s.coreOn d || !(s.coresOf k.recId).contains d) then s
        else s.placeGang out here
    else if s.nextTeam k ≠ some tk || !s.goesTo tk c t then s
    else if s.isGang k.recId && !(k.cores.contains c && (s.gangOut k.recId).isEmpty) then s
    else
      let s := if s.coreFree c && s.mayTake c k.desc (s.textImage k) t.kept.length then s.makeRoom c else s
      if s.coreFree c && s.takes c k.desc (s.textImage k) t.kept.length then s.placeTeam tk c t k else s
  | _, _ => s)

/-! ## Quanta, samples and windows (R342, R343) -/

/-- RESIDENCY_QUANTUM_EXPIRY (R343): while teams of its kernel wait, a resident team goes at its next switch point. -/
def execResidencyQuantumExpiry (c : Nat) (s : State) : Host.Outcome State Fault Refusal :=
  .next (match ((s.core c).active.toList ++ (s.core c).spent).head?.bind (fun tk => s.kernels.get? (tk / 512)) with
  | none => s
  | some k =>
    if k.st.live && !k.desc.lp && !s.isGang k.recId && s.teams.any (fun t => t.2.lid = k.lid && s.waits t.1 t.2) then
      s.askTogether c
    else s)

/-- PIPE_OCCUPANCY_SAMPLE (R342). -/
def execPipeOccupancySample (r : Nat) (s : State) : Host.Outcome State Fault Refusal :=
  .next (s.updRec r (fun r => { r with pipes := r.pipes.map (fun (p : Nat × Pipe) =>
    (p.1, { p.2 with samples := p.2.samples ++ [p.2.q.length] })) }))

/-- Teams of a stage that hold cores: one for each core of it but those on which its team has ended. -/
def State.stageTeams (s : State) (lid : Nat) : Nat :=
  ((s.kernels.get? lid).map (fun k => k.cores.countP (fun c => !(s.teamOn lid c).any s.teamEnded))).getD 0

/-- A core moved from one stage to another (R342): a park of the highest-numbered running team beyond the least number of
teams. -/
def State.moveCore (s : State) (src dst : Nat) : State :=
  let running := s.teams.filter (fun t => t.2.lid = src &&
    (match t.2.place with | .active _ => !s.teamEnded t.1 | _ => false))
  match running.getLast? with
  | some t => if t.2.park.isSome then s else s.updTeam t.1 (fun t => { t with park := some dst })
  | none => s

/-- One pipe of a rebalancing window: the state, and the stages that have moved. -/
def State.rebalance (s : State) (r : Rec) (moved : List Nat) (p : Pipe) : State × List Nat :=
  match r.lids[p.prd]?, r.lids[p.con]?, r.stages[p.prd]?, r.stages[p.con]? with
  | some a, some c, some (amin, amax), some (cmin, cmax) =>
    if moved.contains p.prd || moved.contains p.con || p.samples.isEmpty then (s, moved)
    else if p.samples.all (fun n => decide (3 * p.depth ≤ 4 * n)) && decide (s.stageTeams c < cmax) &&
        decide (amin < s.stageTeams a) then (s.moveCore a c, p.prd :: p.con :: moved)
    else if p.samples.all (fun n => decide (4 * n ≤ p.depth)) && decide (s.stageTeams a < amax) &&
        decide (cmin < s.stageTeams c) then (s.moveCore c a, p.prd :: p.con :: moved)
    else (s, moved)
  | _, _, _, _ => (s, moved)

/-- PIPE_REBALANCE_WINDOW (R342). -/
def execPipeRebalanceWindow (r : Nat) (s : State) : Host.Outcome State Fault Refusal :=
  .next (match s.recs.get? r with
  | none => s
  | some rc =>
    let s := (rc.pipes.foldl (fun (x : State × List Nat) p => x.1.rebalance rc x.2 p.2) (s, [])).1
    s.updRec r (fun r => { r with pipes := r.pipes.map (fun (p : Nat × Pipe) => (p.1, { p.2 with samples := [] })) }))

end Sys2Proof.Machine
end

