-- ==== Sys2Proof/Machine/Queue.lean ====
section
/-! DEFINITION. Queues (R321 to R332) and launches (R333 to R339, R345, R350): the fetch of a record, its admission, the
loading of its kernels, their rollback, the completion record, and the events of a context's ring. -/

namespace Sys2Proof.Machine

/-! ## Halts -/

/-- A queue halts with a cause (R322, R331). -/
def State.haltQueue (s : State) (qid : Nat) (cause : BitVec 2) (va : Nat) : State :=
  match s.queues.get? qid with
  | none => s
  | some q =>
    (s.updQueue qid (fun q => { q with st := .halted, hc := cause })).postEvent q.ctx
      (eventBytes (0x20 + q.ctx * 2 ^ 8 + qid * 2 ^ 16 + cause.toNat * 2 ^ 32 + va * 2 ^ 64))

/-! ## Descriptors and records (R325, R326, R334 to R336, R338) -/

/-- A number has no bit set outside the fields named by position and width. -/
def onlyFields (n : Nat) (fs : List (Nat × Nat)) : Bool :=
  decide ((fs.map (fun f => n / 2 ^ f.1 % 2 ^ f.2 * 2 ^ f.1)).sum = n)

/-- The field at a bit position. -/
def bitsAt (n p w : Nat) : Nat := n / 2 ^ p % 2 ^ w

/-- The regions of a descriptor: base, size and mode of each of the 16 entries. -/
def descRegions (n : Nat) : List (Nat × Nat × Nat) :=
  (List.range 16).map (fun i => (bitsAt n (512 + 64 * i) 23, bitsAt n (544 + 64 * i) 24, bitsAt n (568 + 64 * i) 2))

/-- Where the fields of a descriptor stand. -/
def descFields : List (Nat × Nat) :=
  [(0, 24), (32, 13), (64, 17), (96, 18), (128, 52), (192, 19), (224, 24), (256, 52), (320, 52), (384, 20), (416, 21),
    (448, 9), (464, 10)] ++ (List.range 16).flatMap (fun i => [(512 + 64 * i, 23), (544 + 64 * i, 26)])

/-- A region that R79, R140 and R334 allow. -/
def regionOk (r : Nat × Nat × Nat) : Bool :=
  decide (r.1 % 64 = 0) && decide (r.2.1 % 64 = 0) && (decide (r.2.2 ≠ 0) || decide (r.2.1 = 0)) &&
    decide (r.1 + r.2.1 ≤ 0x800000) && (decide (r.2.2 < 2) || decide (r.1 % 4096 = 0))

/-- Two enabled regions of a list overlap. -/
def regionsOverlap : List Span → Bool
  | [] => false
  | r :: rs => rs.any (fun x => r.meets x) || regionsOverlap rs

/-- A kernel descriptor, if it meets R334 and R335. -/
def parseDesc (bs : List Byte) : Option KDesc :=
  let n := leNat bs
  let d : KDesc :=
    { nsm := bitsAt n 32 11, lp := bitsAt n 43 1 == 1, tw := bitsAt n 44 1 == 1
      slo := bitsAt n 64 8, shi := bitsAt n 72 8, sv := bitsAt n 80 1 == 1, eoff := bitsAt n 96 18
      tva := bitsAt n 128 52, tsz := bitsAt n 192 19, dsz := bitsAt n 224 24, dva := bitsAt n 256 52
      mva := bitsAt n 320 52, moff := bitsAt n 384 20, msz := bitsAt n 416 21
      abase := bitsAt n 448 9, acnt := bitsAt n 464 10, regions := descRegions n }
  let rows := if d.acnt = 0 then 512 else d.acnt
  if onlyFields n descFields && decide (bitsAt n 0 16 = 0xA7D1) && decide (bitsAt n 16 8 = 1) && decide (d.slo ≤ d.shi) &&
      decide (d.eoff % 4 = 0) && decide (d.eoff < d.tsz) && decide (d.tsz % 4 = 0) && decide (d.tsz ≤ 0x40000) &&
      decide (d.dsz ≤ 0x800000) && decide (d.moff % 8 = 0) && decide (d.moff + d.msz ≤ 0x100000) &&
      decide (d.abase + rows ≤ 512) && d.regions.all regionOk && !regionsOverlap d.owned &&
      (firstOutside d.owned 17 0 d.dsz).isNone then some d
  else none

/-- What a record's body asks for, before its descriptors are read: the addresses of its descriptors and its arguments,
its join, and the shape of its pipeline. -/
structure Body where
  kdvas : List Nat
  args  : List Word
  child : Option Nat
  join  : Nat
  stages : List (Nat × Nat)
  budget : Nat
  pipes : Tbl Pipe
  deriving DecidableEq, Repr

/-- A body with no kernel. -/
def Body.empty : Body where
  kdvas := []
  args := []
  child := none
  join := 0
  stages := []
  budget := 0
  pipes := []

/-- The element formats that a pipe may carry (R338). -/
def pipeFmt (f : Nat) : Bool := [0, 1, 2, 10, 11, 12, 13].contains f

/-- Pipe `p` of a pipeline record of `S` stages, at a bit position. -/
def parsePipe (n S p : Nat) : Option Pipe :=
  let o := 128 + 128 * S + 64 * p
  let f (a w : Nat) : Nat := bitsAt n (o + a) w
  if f 0 3 < S ∧ f 3 3 < S ∧ f 0 3 ≠ f 3 3 ∧ pipeFmt (f 16 4) ∧ pipeFmt (f 20 4) then
    some { prd := f 0 3, con := f 3 3, depth := f 8 8 + 1, pf := BitVec.ofNat 4 (f 16 4), cf := BitVec.ofNat 4 (f 20 4)
           sat := f 24 1 == 1, q := [], samples := [] }
  else none

/-- The body of a pipeline record (R338). -/
def parsePipeline (n ns : Nat) : Option Body :=
  let S := bitsAt n 64 3 + 1
  let P := bitsAt n 72 5
  let B := bitsAt n 80 8
  let stages := (List.range S).map (fun i => (bitsAt n (224 + 128 * i) 10, bitsAt n (240 + 128 * i) 10))
  let kdvas := (List.range S).map (fun i => bitsAt n (128 + 128 * i) 52)
  let pipes := (List.range P).filterMap (fun p => (parsePipe n S p).map (fun x => (p, x)))
  let fields := [(0, 64), (64, 3), (72, 5), (80, 8)] ++
    (List.range S).flatMap (fun i => [(128 + 128 * i, 52), (192 + 128 * i, 32), (224 + 128 * i, 10), (240 + 128 * i, 10)]) ++
    (List.range P).flatMap (fun p => [(128 + 128 * S + 64 * p, 6), (136 + 128 * S + 64 * p, 17)])
  let mins := (stages.map (·.1)).sum
  let maxs := (stages.map (·.2)).sum
  if P ≤ 16 ∧ 1 ≤ B ∧ B ≤ 64 ∧ onlyFields n fields ∧ pipes.length = P ∧ mins ≤ B ∧ B ≤ maxs ∧
      stages.all (fun x => decide (1 ≤ x.1) && decide (x.1 ≤ x.2) && decide (x.2 ≤ 512)) ∧
      kdvas.all (fun a => decide (a % 64 = 0)) ∧ ns = (16 + 16 * S + 8 * P + 63) / 64 - 1 then
    some { Body.empty with
      kdvas := kdvas, args := (List.range S).map (fun i => BitVec.ofNat 32 (bitsAt n (192 + 128 * i) 32))
      stages := stages, budget := B, pipes := pipes }
  else none

/-- The body of a record of a form, from the whole record as a number (R336, R339). -/
def parseBody (form n ns : Nat) : Option Body :=
  match form with
  | 1 =>
    if ns = 0 ∧ onlyFields n [(0, 64), (64, 52), (128, 64), (192, 1)] ∧ bitsAt n 64 52 % 64 = 0 then
      some { Body.empty with
        kdvas := [bitsAt n 64 52], args := [BitVec.ofNat 32 (bitsAt n 128 32)]
        child := if bitsAt n 192 1 = 1 then some (bitsAt n 160 32) else none }
    else none
  | 2 =>
    let m := bitsAt n 64 3 + 1
    let fields := (0, 67) :: (List.range m).flatMap (fun i => [(128 + 128 * i, 52), (192 + 128 * i, 32)])
    let kdvas := (List.range m).map (fun i => bitsAt n (128 + 128 * i) 52)
    if 2 ≤ m ∧ ns = (32 + 16 * m + 63) / 64 - 1 ∧ onlyFields n fields ∧ kdvas.all (fun a => decide (a % 64 = 0)) then
      some { Body.empty with
        kdvas := kdvas, args := (List.range m).map (fun i => BitVec.ofNat 32 (bitsAt n (192 + 128 * i) 32)) }
    else none
  | 3 => parsePipeline n ns
  | 4 =>
    if ns = 0 ∧ onlyFields n [(0, 64), (64, 16), (128, 52), (192, 32)] ∧ bitsAt n 64 16 ≠ 0 ∧ bitsAt n 128 52 % 64 = 0 then
      some { Body.empty with
        kdvas := [bitsAt n 128 52], args := [BitVec.ofNat 32 (bitsAt n 192 32)], join := bitsAt n 64 16 }
    else none
  | 5 => if ns = 0 ∧ onlyFields n [(0, 64)] then some Body.empty else none
  | _ => none

/-- The checks of a gang's or a pipeline's descriptors (R337, R338). -/
def descsOk (form : Nat) (b : Body) (ds : List KDesc) : Bool :=
  (decide (form ≠ 2 ∧ form ≠ 3) || decide ((ds.map KDesc.teams).sum ≤ 64)) &&
    (decide (form ≠ 3) || (b.stages.zip ds).all (fun x => decide (x.1.2 ≤ x.2.teams)))

/-- The descriptors of a record read by a die: `none` if one cannot be read, else what each of them holds. -/
def State.readDescs (s : State) (die ctx : Nat) (as : List Nat) : State × Option (List (Option KDesc)) :=
  as.foldl (fun (r : State × Option (List (Option KDesc))) a =>
    match r.2 with
    | none => r
    | some ds =>
      match r.1.readVirt die ctx a 192 with
      | (s, .ok bs) => (s, some (ds ++ [parseDesc bs]))
      | (s, _) => (s, none)) (s, some [])

/-- The open join of a queue that a child names and that has not had all its children (R339). -/
def State.openJoin (s : State) (q : Queue) (seq : Nat) : Option Nat :=
  q.open_.find? (fun r => (s.recs.get? r).any (fun x =>
    decide (x.form = 4) && decide (x.st = .admitted) && decide (x.seq.toNat = seq) && decide (0 < x.joinLeft)))

/-- The slots of a launch ring from count `at_`, as runs of virtual memory (R325). -/
def ringRuns (b : Binding) (at_ n : Nat) : List Nat :=
  (List.range n).map (fun i => b.lva.toNat + 64 * ((at_ + i) % 2 ^ b.lsz.toNat))

/-- Slots of a launch ring read one after another. -/
def State.readSlots (s : State) (die ctx : Nat) (as : List Nat) : State × ReadEnd :=
  as.foldl (fun (r : State × ReadEnd) a =>
    match r.2 with
    | .ok bs =>
      match r.1.readVirt die ctx a 64 with
      | (s, .ok new) => (s, .ok (bs ++ new))
      | x => x
    | _ => r) (s, .ok [])

/-- A record with nothing known but its place. -/
def Rec.blank (ctx qid : Nat) (seq : Word) : Rec where
  ctx := ctx
  qid := qid
  seq := seq
  form := 0
  rb := false
  es := false
  utag := 0
  bad := none
  st := .ready
  aged := false
  lids := []
  descs := []
  args := []
  stages := []
  budget := 0
  pipes := []
  joinLeft := 0
  joinSeen := 0
  joinBad := false
  joinReady := false
  parent := none
  fl := none
  start := 0

/-- A fetched record as the queue takes it (R326): its number is `n`, it occupies `ns` + 1 slots. -/
def State.takeRecord (s : State) (qid : Nat) (q : Queue) (n ns : Nat) : State :=
  let s0 := s
  let die := qid / 1024
  let form := bitsAt n 0 4
  -- the open join whose child the record is, malformed or not (R339)
  let join := if form = 1 ∧ bitsAt n 192 1 = 1 then s.openJoin q (bitsAt n 160 32) else none
  let full := join.any (fun j => (s.recs.get? j).any (fun x => decide (x.joinLeft ≤ 0) || decide (x.joinSeen = 0)))
  let join := if full then none else join
  let s := match join with
    | some j => s.updRec j (fun x => { x with joinSeen := x.joinSeen - 1 })
    | none => s
  let r0 : Rec := { Rec.blank q.ctx qid (BitVec.ofNat 32 (bitsAt n 32 32)) with
    parent := join, form := BitVec.ofNat 4 form, rb := bitsAt n 12 1 == 1, es := bitsAt n 13 1 == 1, utag := BitVec.ofNat 16 (bitsAt n 16 16) }
  let headOk := decide (bitsAt n 4 4 = 0) && decide (bitsAt n 14 2 = 0) && decide (bitsAt n 32 32 = q.head.toNat) &&
    !(r0.rb && decide (par (s.cfgWord q.ctx 5) 0 32 = 0))
  let add (s : State) (r : Rec) : State :=
    { s with
      recs := s.recs.set s.nextRec r
      nextRec := s.nextRec + 1
      queues := s.queues.modify qid (fun q => { q with
        head := q.head + BitVec.ofNat 32 (ns + 1), fetched := some s.nextRec, open_ := q.open_ ++ [s.nextRec] }) }
  match (if headOk then parseBody form n ns else none) with
  | none => add s { r0 with bad := some 2 }
  | some b =>
    if b.child.isSome && join.isNone then add s { r0 with bad := some 2 }
    else
      let r1 : Rec := { r0 with
        args := b.args, stages := b.stages, budget := b.budget, pipes := b.pipes, joinLeft := b.join, joinSeen := b.join }
      -- with a descriptor out of reach the record is not taken yet (R370)
      if b.kdvas.any (fun a => s.farAway die q.ctx a 192 false) then s0
      else match s.readDescs die q.ctx b.kdvas with
      | (s, none) => add s { r1 with bad := some 4 }
      | (s, some ds) =>
        let known := ds.filterMap id
        if known.length = ds.length ∧ descsOk form b known then add s { r1 with descs := known }
        else add s { r1 with bad := some 2 }

/-- A record that cannot be read (R326): what its header would hold is free. -/
def State.takeUnreadable (s : State) (qid : Nat) (q : Queue) : State :=
  let r : Rec := { Rec.blank q.ctx qid (Config.freeWord s.tick 0x328) with
    form := (Config.freeWord s.tick 0x326).truncate 4, utag := (Config.freeWord s.tick 0x327).truncate 16, bad := some 4 }
  { s with
    recs := s.recs.set s.nextRec r
    nextRec := s.nextRec + 1
    queues := s.queues.modify qid (fun q => { q with
      head := q.head + 1, fetched := some s.nextRec, open_ := q.open_ ++ [s.nextRec] }) }

/-- LAUNCH_RECORD_FETCH (R322, R326): the record at head, once tail covers it; the launch is an acquire of the tail write
(R268), so remote lines are dropped (R277). -/
def execLaunchRecordFetch (qid : BitVec 12) (s : State) : Host.Outcome State Fault Refusal :=
  .next (match s.queues.get? qid.toNat with
  | none => s
  | some q =>
    let die := qid.toNat / 1024
    let have_ := (q.tail - q.head).toNat
    if q.st ≠ .active ∨ q.fetched.isSome ∨ have_ = 0 ∨
        (ringRuns q.b q.head.toNat 1).any (fun a => s.farAway die q.ctx a 64 false) then s
    else
      let s := s.dropLines
      match s.readSlots die q.ctx (ringRuns q.b q.head.toNat 1) with
      | (s, .fault va) => s.haltQueue qid.toNat 2 va
      | (s, .ue _) => s.takeUnreadable qid.toNat q
      | (s, .ok h) =>
        let ns := bitsAt (leNat h) 8 4
        if have_ < ns + 1 ∨ (ringRuns q.b q.head.toNat (ns + 1)).any (fun a => s.farAway die q.ctx a 64 false) then s
        else
          match s.readSlots die q.ctx (ringRuns q.b q.head.toNat (ns + 1)) with
          | (s, .fault va) => s.haltQueue qid.toNat 2 va
          | (s, .ue _) => s.takeUnreadable qid.toNat q
          | (s, .ok bs) => s.takeRecord qid.toNat q (leNat bs) ns)

/-! ## Readiness and arbitration (R327, R328, R339) -/

/-- A record counts as complete for the records after it: a continuation record from its admission on (R327, R339). -/
def State.recDone (s : State) (r : Nat) : Bool :=
  match s.recs.get? r with
  | none => true
  | some x => decide (x.form = 4) && x.bad.isNone && decide (x.st ≠ .ready)

/-- Every earlier record of a queue has completed. -/
def State.earlierDone (s : State) (q : Queue) (r : Nat) : Bool := (q.open_.takeWhile (· ≠ r)).all s.recDone

/-- The record of a queue that is ready for admission: the parent of a join whose children have retired, or the fetched
record. -/
def State.candidate (s : State) (q : Queue) : Option (Nat × Rec) :=
  let ofId (r : Nat) : Option (Nat × Rec) := (s.recs.get? r).map (fun x => (r, x))
  let parents := (q.open_.filterMap ofId).filter (fun x =>
    x.2.joinReady && x.2.lids.isEmpty && decide (x.2.st = .admitted) && s.earlierDone q x.1)
  match parents with
  | p :: _ => some p
  | [] =>
    match q.fetched.bind ofId with
    | some (r, x) =>
      if x.es || s.earlierDone q r then some (r, x) else none
    | none => none

/-- A completion slot can be reserved (R329). -/
def Queue.hasSlot (q : Queue) : Bool :=
  decide ((q.ctail - q.chead).toNat + q.resv < 2 ^ q.b.csz.toNat)

/-- Numbers picked one after another from a list, each a free choice (R394): of the record `r` whose kernels are placed, so that
it chooses alike while stook entries are given up for it (R188). -/
def pickFrom (r : Nat) : Nat → List Nat → List Nat
  | 0, _ => []
  | n + 1, xs =>
    match xs[(Config.freeWord r (0x394 + n)).toNat % xs.length]? with
    | none => []
    | some c => c :: pickFrom r n (xs.erase c)

/-- What stands for a record in its free choices: its queue and its number. -/
def Rec.seed (x : Rec) : Nat := x.qid * 2 ^ 32 + x.seq.toNat

/-- Cores of a pipeline's budget given to its stages: the least of each first, then one at a time in ascending order (R338);
`fuel` bounds the rounds. -/
def spread (B : Nat) : Nat → List (Nat × Nat) → List Nat → List Nat
  | 0, _, got => got
  | n + 1, ss, got =>
    let round := (ss.zip got).foldl (fun (r : Nat × List Nat) x =>
      if x.2 < x.1.2 ∧ 0 < r.1 then (r.1 - 1, r.2 ++ [x.2 + 1]) else (r.1, r.2 ++ [x.2])) (B - got.sum, [])
    spread B n ss round.2

/-- What a kernel of a record needs of a core. -/
structure Want where
  desc : KDesc
  text : List Byte
  /-- Teams to place at once. -/
  teams : Nat

/-- Cores for the kernels of a gang on the free cores `cs` of one die, if they fit. -/
def State.gangCores (s : State) (room : Bool) (r : Nat) : List Want → List Nat → Option (List (List Nat))
  | [], _ => some []
  | w :: ws, cs =>
    let mine := pickFrom r w.teams (cs.filter (fun c => s.mayTake c w.desc w.text 0 && (!room || (s.core c).halves)))
    if mine.length < w.teams then none
    else (State.gangCores s room r ws (cs.filter (fun c => !mine.contains c))).map (mine :: ·)

/-- The text image of a descriptor. -/
def State.textAt (s : State) (die ctx : Nat) (d : KDesc) : List Byte :=
  match (s.readVirt die ctx d.tva d.tsz).2 with
  | .ok bs => bs
  | _ => []

/-- The bytes [lo, hi) of the move-program memory as a kernel has them: loaded, or those of its image (R335). -/
def State.moveBytes (s : State) (k : Kernel) (lo hi : Nat) : Option (List Byte) :=
  if k.st = .admitted then
    match (s.readVirt (s.sliceOf k) k.ctx (k.desc.mva + (lo - k.desc.moff)) (hi - lo)).2 with
    | .ok bs => some bs
    | _ => none
  else some (s.mem.read (moveLoc 0 + lo) (hi - lo))

/-- The move range of a descriptor overlaps that of a live kernel with different bytes (R335). -/
def State.moveConflict (s : State) (die ctx : Nat) (d : KDesc) : Bool :=
  s.kernels.any (fun e =>
    let k := e.2
    let lo := max d.moff k.desc.moff
    let hi := min (d.moff + d.msz) (k.desc.moff + k.desc.msz)
    k.holds && decide (lo < hi) &&
      (match (s.readVirt die ctx (d.mva + (lo - d.moff)) (hi - lo)).2, s.moveBytes k lo hi with
        | .ok a, some b => a != b
        | _, _ => false))

/-- Cores for the kernels of a record, if its resources are free (R328, R335, R337, R338, R343); for each kernel the
cores of its first teams. `room` asks for the stook entries of R188, too. -/
def State.planIn (s : State) (room : Bool) (x : Rec) : Option (List (List Nat)) :=
  let die := x.qid / 1024
  let free := (s.cores.map (·.1)).filter s.coreFree
  if x.descs.any (s.moveConflict die x.ctx) then none
  else if x.form = 2 ∨ x.form = 3 then
    let ns := if x.form = 2 then x.descs.map KDesc.teams else spread x.budget 513 x.stages (x.stages.map (·.1))
    let ws := (x.descs.zip ns).map (fun p => ({ desc := p.1, text := s.textAt die x.ctx p.1, teams := p.2 } : Want))
    let fits := (List.range 8).filterMap (fun d => s.gangCores room x.seed ws (free.filter (fun c => decide (c / 64 = d))))
    fits[(Config.freeWord x.seed 0x337).toNat % fits.length]?
  else
    match x.descs with
    | [d] =>
      let text := s.textAt die x.ctx d
      let ok := free.filter (fun c => s.mayTake c d text 0 && (!room || (s.core c).halves))
      let T := d.teams
      let hi := min T ok.length
      let lo := if d.lp then T else max 1 (T - (s.freeSlots x.ctx).length)
      if hi < lo ∨ hi = 0 then none
      else
        let n := lo + (Config.freeWord x.seed 0x343).toNat % (hi - lo + 1)
        some [pickFrom x.seed n ok]
    | _ => none

/-- Cores for the kernels of a record, every resource free. -/
def State.plan (s : State) (x : Rec) : Option (List (List Nat)) := s.planIn true x

/-- A record that takes no core: a malformed or unreadable one, a mark, a join that opens. -/
def Rec.noCores (x : Rec) : Bool := x.bad.isSome || decide (x.form = 5) || (decide (x.form = 4) && !x.joinReady)

/-- A queue may have a join opened (R339). -/
def State.joinRoom (s : State) (q : Queue) : Bool :=
  decide ((q.open_.filter (fun r => (s.recs.get? r).any (fun x =>
    decide (x.form = 4) && decide (x.st = .admitted) && decide (0 < x.joinLeft)))).length < 16)

/-- The candidate of a queue fits the free resources. -/
def State.fits (s : State) (q : Queue) (x : Rec) : Bool :=
  if x.joinReady then (s.plan x).isSome
  else q.hasSlot && (if x.noCores then x.bad.isSome || decide (x.form ≠ 4) || s.joinRoom q else (s.plan x).isSome)

/-- The queues of a slice that compete: their priority and weight (R328). -/
def State.offers (s : State) (slice : Nat) : List (Nat × Nat × Nat) :=
  s.queues.filterMap (fun e =>
    if e.1 / 1024 ≠ slice ∨ e.2.st ≠ .active then none
    else
      (s.candidate e.2).bind (fun c =>
        if s.fits e.2 c.2 then some (e.1, (if c.2.aged then 3 else e.2.b.pri.toNat), e.2.b.wgt.toNat + 1) else none))

/-- The queue that a slice admits from, and its priority (R328). -/
def State.winner (s : State) (slice : Nat) : Option (Nat × Nat) :=
  let os := s.offers slice
  let p := os.foldl (fun m o => max m o.2.1) 0
  let level := os.filter (fun o => o.2.1 = p)
  match (s.die slice).wrr.get? p with
  | none => level.head?.map (fun o => (o.1, p))
  | some (last, n) =>
    match level.find? (fun o => decide (o.1 = last) && decide (n < o.2.2)) with
    | some o => some (o.1, p)
    | none => ((level.find? (fun o => decide (last < o.1))) <|> level.head?).map (fun o => (o.1, p))

/-- The slice that offers an admission next: in turn, X0 to X3, those with none to offer passed over (R328). -/
def State.nextSlice (s : State) : Option Nat :=
  ((List.range 4).map (fun i => (s.turn + 1 + i) % 4)).find? (fun n => (s.winner n).isSome)

/-- The cores for the record of a queue that lacks nothing but stook entries there (R188). -/
def State.lacksRoom (s : State) (q : Queue) : List Nat :=
  match s.candidate q with
  | some (_, x) =>
    if q.st = .active ∧ (x.joinReady || (q.hasSlot && !x.noCores)) ∧ (s.planIn true x).isNone then
      ((s.planIn false x).getD []).flatten
    else []
  | none => []

/-! ## Admission (R333, R337, R345, R351) -/

/-- The next launch id (R333). -/
def State.takeLid (s : State) : State × Nat :=
  let l := s.nextLid
  ({ s with nextLid := if l + 1 = 2 ^ 32 then 1 else l + 1 }, l)

/-- The producers of a record (R345): the earlier records of its queue that have not completed. -/
def State.producersOf (s : State) (q : Queue) (r : Nat) (x : Rec) : List Nat :=
  if x.es && !x.joinReady then (q.open_.takeWhile (· ≠ r)).filter (fun p => !s.recDone p) else []

/-- One kernel admitted: its launch id, its teams, and those placed on the cores it is given. -/
def State.admitKernel (s : State) (r : Nat) (x : Rec) (producers : List Nat) (member : Nat) (d : KDesc) (arg : Word)
    (cs : List Nat) : State :=
  let (s, lid) := s.takeLid
  let k : Kernel :=
    { lid := lid, recId := r, ctx := x.ctx, member := member, desc := d, arg := arg, st := .admitted, fl := Faults.none
      rbOn := x.rb, rb := x.rb, rbt := false, rbl := false, logSeq := 0, log := [], groups := [], bars := [], fired := false
      producers := producers, cores := [], used := [] }
  let s := s.setKernel lid k.formGroup0
  let s := { s with teams := (List.range d.teams).foldl (fun (m : Tbl Team) t =>
    m.set (teamKey lid t) { Team.start lid t d.regions with waited := s.tick }) s.teams }
  let slots := if x.form = 2 ∨ x.form = 3 then 0 else d.teams - cs.length
  let s := ((s.freeSlots x.ctx).take slots).foldl (fun (s : State) n => s.takeSlot x.ctx n lid) s
  let s := (cs.zip (List.range cs.length)).foldl (fun (s : State) p => s.placeFresh (teamKey lid p.2) p.1 k) s
  s.updRec r (fun x => { x with lids := x.lids ++ [lid] })

/-- A kernel admitted after a producer has failed or stopped before its trigger fails at once (R346). -/
def State.orphan (s : State) (lid : Nat) : State :=
  match s.kernels.get? lid with
  | none => s
  | some k =>
    match s.kernels.find? (fun e => k.producers.contains e.2.recId && !e.2.fired &&
        (match e.2.st with | .failed => true | .stopped => true | .serviced => true | _ => false)) with
    | some e => s.fail lid { Faults.none with fk := 6, plid := e.1 }
    | none => s

/-- The kernels of a record admitted on their cores. -/
def State.admitAll (s : State) (r : Nat) (x : Rec) (producers : List Nat) (cores : List (List Nat)) : State :=
  let one := ((x.descs.zip x.args).zip cores).zip (List.range x.descs.length)
  let s := one.foldl (fun (s : State) p => s.admitKernel r x producers p.2 p.1.1.1 p.1.1.2 p.1.2) s
  let lids := ((s.recs.get? r).map (·.lids)).getD []
  lids.foldl State.orphan (s.updRec r (fun x => { x with st := .admitted, start := s.tick }))

/-- A candidate admitted (R327, R328, R333, R339). -/
def State.letIn (s : State) (qid : Nat) (q : Queue) (r : Nat) (x : Rec) : State :=
  let took (s : State) : State :=
    if x.joinReady then s
    else s.updQueue qid (fun q => { q with fetched := none, resv := q.resv + 1 })
  if x.joinReady then
    match s.plan x with
    | some cs => s.admitAll r x [] cs
    | none => s
  else
    match x.bad with
    | some st => took (s.updRec r (fun x => { x with st := .complete st, start := s.tick }))
    | none =>
      if x.form = 5 ∨ x.form = 4 then took (s.updRec r (fun x => { x with st := .admitted, start := s.tick }))
      else
        match s.plan x with
        | some cs => took (s.admitAll r x (s.producersOf q r x) cs)
        | none => s

/-- RECORD_ADMISSION (R328): the queue that its slice chooses, when the slice's turn has come. A record that lacks only stook
entries makes the teams of the cores chosen for it give up those beyond 512 first (R188). -/
def execRecordAdmission (qid : BitVec 12) (s : State) : Host.Outcome State Fault Refusal :=
  .next (
    let slice := qid.toNat / 1024
    let full := ((s.queues.get? qid.toNat).map s.lacksRoom).getD []
    if !full.isEmpty then full.foldl State.makeRoom s
    else match s.queues.get? qid.toNat, s.winner slice with
    | some q, some (w, p) =>
      if w ≠ qid.toNat ∨ s.nextSlice ≠ some slice then s
      else
        match s.candidate q with
        | none => s
        | some (r, x) =>
          let n := match (s.die slice).wrr.get? p with
            | some (last, n) => if last = w then n + 1 else 1
            | none => 1
          { (s.letIn qid.toNat q r x).updDie slice (fun d => { d with wrr := d.wrr.set p (w, n) }) with turn := slice }
    | _, _ => s)

/-- RECORD_AGING (R328): a record that has waited as ready competes at priority 3. -/
def execRecordAging (qid : BitVec 12) (s : State) : Host.Outcome State Fault Refusal :=
  .next (match (s.queues.get? qid.toNat).bind s.candidate with
  | some (r, _) => s.updRec r (fun x => { x with aged := true })
  | none => s)

/-! ## Loading and rollback (R335, R345, R350, R265) -/

/-- The move image copied into the move-program memory of every transfer die. -/
def State.loadMoves (s : State) (k : Kernel) : State × Faults :=
  if k.desc.msz = 0 then (s, Faults.none)
  else
    match s.readVirt (s.sliceOf k) k.ctx k.desc.mva k.desc.msz with
    | (s, .ok bs) =>
      ((List.range 4).foldl (fun (s : State) d => s.store (moveLoc d + k.desc.moff) bs) s, Faults.none)
    | (s, e) => (s, imageFault (s.sliceOf k) e)

/-- The teams of a kernel that are resident, with their cores. -/
def State.placed (s : State) (lid : Nat) : List (Nat × Nat) :=
  s.teams.filterMap (fun t =>
    if t.2.lid = lid then (match t.2.place with | .active c => some (t.1, c) | .spent c => some (t.1, c) | _ => none) else none)

/-- KERNEL_LOAD_COMPLETE (R333, R335): the images are in place and the strands of placed teams start. -/
def execKernelLoadComplete (lid : Nat) (s : State) : Host.Outcome State Fault Refusal :=
  .next (match s.kernels.get? lid with
  | none => s
  | some k =>
    if k.st ≠ .admitted ∨ s.imagesAway k then s
    else
      let r := (s.placed lid).foldl (fun (r : State × Faults) p =>
        if r.2.fk = 0 then r.1.loadTeam k p.2 else r) (s, Faults.none)
      let r := if r.2.fk = 0 then r.1.loadMoves k else r
      if r.2.fk ≠ 0 then r.1.fail lid r.2
      else
        let s := (s.placed lid).foldl (fun (s : State) p => s.startTeam p.1 k) r.1
        (s.updKernel lid (fun k => { k with st := if s.producersFired k then .running else .prologue })).settleKernels)

/-- No work of a kernel is left on a core (R186, R333). -/
def State.workGone (s : State) (lid : Nat) : Bool :=
  s.cores.all (fun c => c.2.stook.all (fun h => decide (h.lid ≠ lid)) && c.2.tq.all (fun q => decide (q.lid ≠ lid)))

/-- The logged granules of a kernel restored, newest first (R265). -/
def State.restoreLog (s : State) (k : Kernel) : State :=
  k.log.foldl (fun (s : State) e =>
    s.moveRun k.ctx (par (s.cfgWord k.ctx 4) 0 48 + 288 * e.2 + 0x20) e.1 256) s

/-- The teams and strands of a kernel leave the device, with their semaphores; `zero` also clears their storage (R313). -/
def State.dropTeams (s : State) (k : Kernel) (zero : Bool) : State :=
  let here := s.teams.filter (fun t => t.2.lid = k.lid)
  let s := here.foldl (fun (s : State) t =>
    match t.2.place with
    | .active c | .spent c =>
      let s := s.clearBank c t.2.bank
      let s := if zero then
          t.2.owned.foldl (fun (s : State) r => s.zero (dspLoc c r.1) (r.2 - r.1))
            (s.zero (accLoc c (1024 * k.desc.accRows.1)) (1024 * (k.desc.accRows.2 - k.desc.accRows.1)))
        else s
      s.updCore c (fun x => { x with
        active := if x.active = some t.1 then none else x.active, spent := x.spent.filter (· ≠ t.1) })
    | .held c =>
      -- bytes that another team has been given since were zeroed when it was placed
      if zero && (s.core c).residents.all (fun o => decide (o = t.1) || (match s.teams.get? o, s.kernels.get? (o / 512) with
          | some u, some j => disjointTeams k.desc u j.desc
          | _, _ => true)) then
        t.2.owned.foldl (fun (s : State) r => s.zero (dspLoc c r.1) (r.2 - r.1))
          (s.zero (accLoc c (1024 * k.desc.accRows.1)) (1024 * (k.desc.accRows.2 - k.desc.accRows.1)))
      else s
    | _ => s) (s.dropHeld k.lid)
  { s.freeSlotsOf k.lid with
    teams := s.teams.filter (fun t => t.2.lid ≠ k.lid)
    strands := s.strands.filter (fun t => t.2.lid ≠ k.lid)
    sems := s.sems.filter (fun e => e.1 / 256 / 512 ≠ k.lid) }

/-- The cores of a relaunch, by the placement rules of admission, once the kernel's teams are gone (R350): a gang's stay on one
die, with the other members (R337); a kernel with lp = 1 takes all its teams at once (R343). `room` asks for the stook entries of
R188, too. -/
def State.relaunchCores (s : State) (room : Bool) (k : Kernel) : Option (List Nat) :=
  let ok := (s.cores.map (·.1)).filter (fun c =>
    s.coreFree c && s.mayTake c k.desc (s.textImage k) 0 && (!room || (s.core c).halves))
  let T := k.desc.teams
  let slots := (s.freeSlots k.ctx).length
  if s.isGang k.recId then
    let n := if (s.recs.get? k.recId).any (fun r => r.form = 3) then max 1 k.cores.length else T
    let others := s.gangOn k.recId
    let dies := (List.range 8).filter (fun d => others.all (fun c => decide (c / 64 = d)) &&
      decide (n ≤ (ok.filter (fun c => decide (c / 64 = d))).length))
    dies.head?.map (fun d => (ok.filter (fun c => decide (c / 64 = d))).take n)
  else
    let hi := min T ok.length
    let lo := if k.desc.lp then T else max 1 (T - slots)
    if hi < lo ∨ hi = 0 then none
    else some (pickFrom k.lid (lo + (Config.freeWord k.lid 0x343).toNat % (hi - lo + 1)) ok)

/-- ROLLBACK_COMPLETE (R265, R350): once the kernel's work has stopped, its granules are restored, its storage is zeroed and
it is admitted again. -/
def execRollbackComplete (lid : Nat) (s : State) : Host.Outcome State Fault Refusal :=
  .next (match s.kernels.get? lid with
  | none => s
  | some k =>
    if k.st ≠ .rolling ∨ !s.workGone lid then s
    else
      let u := (k.used.foldl (fun (s : State) c => s.emptyGranary c k.ctx) (s.restoreLog k)).dropTeams k true
      match u.relaunchCores true k with
      | none => ((u.relaunchCores false k).getD []).foldl State.makeRoom s
      | some cs =>
        let s := u
        let k' : Kernel := { k with
          st := .admitted, rb := false, rbt := true, log := [], fl := Faults.none, cores := [] }
        let s := s.setKernel lid k'.formGroup0
        let s := { s with teams := (List.range k.desc.teams).foldl (fun (m : Tbl Team) t =>
          m.set (teamKey lid t) { Team.start lid t k.desc.regions with waited := s.tick }) s.teams }
        let s := ((s.freeSlots k.ctx).take (if s.isGang k.recId then 0 else k.desc.teams - cs.length)).foldl
          (fun (s : State) n => s.takeSlot k.ctx n lid) s
        (cs.zip (List.range k.desc.teams)).foldl (fun (s : State) p => s.placeFresh (teamKey lid p.2) p.1 k') s)

/-! ## Stopping a kernel (R313, R391) -/

/-- A kernel is stopped: its work ends, what had started included, and the kernels that wait for it fail. -/
def State.stopKernel (s : State) (lid : Nat) (st : KSt) : State :=
  match s.kernels.get? lid with
  | none => s
  | some k =>
    if !k.holds then s
    else
      let fs := (s.followers lid).filter (fun p => p.2 = 6)
      let s := (s.setKernel lid { k with st := st }).endWork lid
      let s := { s with cores := s.cores.map (fun (c : Nat × Core) => (c.1, { c.2 with
        stook := c.2.stook.filter (fun h => h.lid ≠ lid), tq := c.2.tq.filter (fun q => q.lid ≠ lid) }))
                        walkers := s.walkers.filter (fun w => ((s.core w.2.core).sheaf w.2.seq).all (fun h => decide (h.lid ≠ lid))) }
      fs.foldl (fun (s : State) p => s.fail p.1 { Faults.none with fk := 6, plid := lid }) s

/-! ## Completion (R329, R330, R333, R349) -/

/-- A kernel that has reached the end of R333 and left nothing behind. -/
def State.kernelOver (s : State) (lid : Nat) : Bool :=
  match s.kernels.get? lid with
  | none => true
  | some k =>
    (match k.st with | .retired => true | .failed => true | .stopped => true | .serviced => true | _ => false) &&
      s.workGone lid && s.contribs.all (fun x => decide (x.lid ≠ lid))

/-- The status with which a record completes, once it can (R330). -/
def State.recStatus (s : State) (r : Nat) (x : Rec) : Option (BitVec 8) :=
  match x.st with
  | .ready => none
  | .complete st => some st
  | .admitted =>
    -- a mark completes when every earlier record of its queue has (R327)
    if x.form = 5 then (if (s.queues.get? x.qid).any (fun q => s.earlierDone q r) then some 0 else none)
    else if x.lids.isEmpty || !x.lids.all s.kernelOver then none
    else
      let st (p : KSt) : Bool := x.lids.any (fun l => (s.kernels.get? l).any (fun k => decide (k.st = p)))
      some (if st .failed then 1 else if st .stopped then 3 else if st .serviced then 5 else 0)

/-- The fault sections of a record: those of the member that failed of itself (R337, R348). -/
def State.recFaults (s : State) (x : Rec) : Faults :=
  let fs := x.lids.filterMap (fun l => (s.kernels.get? l).bind (fun k => if k.st = .failed then some k.fl else none))
  ((fs.find? (fun f => f.fk ≠ 8)) <|> fs.head? <|> x.fl).getD Faults.none

/-- The tile fault record (R196). -/
def TileFault.bits (f : TileFault) : Nat :=
  f.dpc.toNat + f.apc.toNat * 2 ^ 32 + f.cmd.toNat * 2 ^ 64 + f.status.toNat * 2 ^ 96 + f.engine * 2 ^ 128 +
    f.kind * 2 ^ 136 + f.asid * 2 ^ 160 + f.tag.toNat * 2 ^ 176 + (if f.tv then 2 ^ 191 else 0) + f.dsid * 2 ^ 192 +
    f.agent * 2 ^ 208 + f.subt * 2 ^ 224

/-- The move fault record (R261). -/
def MoveFault.bits (f : MoveFault) : Nat :=
  f.eng + f.pc.toNat * 2 ^ 32 + f.num * 2 ^ 64 + f.status.toNat * 2 ^ 128 + f.nres * 2 ^ 160 + f.info.toNat * 2 ^ 192

/-- The fault sections (R349), from offset 0x20. -/
def Faults.bits (f : Faults) : Nat :=
  f.fk + f.fm * 2 ^ 8 + f.plid * 2 ^ 32 + f.cause * 2 ^ 64 + f.sid * 2 ^ 69 + f.unit * 2 ^ 80 + f.info.toNat * 2 ^ 96 +
    f.pc.toNat * 2 ^ 128 + f.hi.toNat * 2 ^ 160 + ((f.tile.map TileFault.bits).getD 0) * 2 ^ 256 +
    ((f.move.map MoveFault.bits).getD 0) * 2 ^ 512

/-- The completion record (R329). -/
def State.completionBytes (s : State) (q : Queue) (x : Rec) (status : BitVec 8) : List Byte :=
  let ks := x.lids.filterMap (fun l => s.kernels.get? l)
  let n := status.toNat + x.form.toNat * 2 ^ 8 + (if ks.any (·.rbt) then 2 ^ 12 else 0) +
    (if ks.any (·.rbl) then 2 ^ 13 else 0) + (if q.ctail.toNat / 2 ^ q.b.csz.toNat % 2 = 0 then 2 ^ 31 else 0) +
    x.utag.toNat * 2 ^ 32 + x.qid * 2 ^ 48 + x.seq.toNat * 2 ^ 64 + (x.lids.headD 0) * 2 ^ 96 +
    (Config.cycles x.start s.tick).toNat * 2 ^ 128 + (if status = 0 then 0 else (s.recFaults x).bits * 2 ^ 256)
  leBytes 128 n

/-- A completed kernel leaves the device. -/
def State.releaseKernel (s : State) (lid : Nat) : State :=
  match s.kernels.get? lid with
  | none => s
  | some k =>
    let s := s.dropTeams k (match k.st with | .stopped => true | .serviced => true | _ => false)
    { s with kernels := s.kernels.erase lid }

/-- A child of a join has completed (R339). -/
def State.joinChild (s : State) (j : Nat) (ok : Bool) : State :=
  s.updRec j (fun x =>
    let left := x.joinLeft - 1
    let bad := x.joinBad || !ok
    if left ≠ 0 then { x with joinLeft := left, joinBad := bad }
    else if bad then
      { x with joinLeft := 0, joinBad := true, st := .complete 1, fl := some { Faults.none with fk := 7 } }
    else { x with joinLeft := 0, joinReady := true })

/-- The records of a queue that have completed, in order of completion: those known, and those that now have, in ring order
(R329). -/
def State.doneNow (s : State) (q : Queue) : List Nat :=
  q.done ++ q.open_.filter (fun r => !q.done.contains r && (s.recs.get? r).any (fun x => (s.recStatus r x).isSome))

/-- The records that have completed take their places in the order of completion (R329). -/
def State.noteDone (s : State) : State :=
  { s with queues := s.queues.map (fun (e : Nat × Queue) => (e.1, { e.2 with done := s.doneNow e.2 })) }

/-- The completion record of a record written, if it is the next of its queue in order of completion and the ring can be written
(R322, R329). -/
def State.complete_ (s : State) (r : Nat) : State :=
  match s.recs.get? r with
  | none => s
  | some x =>
    match s.queues.get? x.qid, s.recStatus r x with
    | some q, some status =>
      let va := q.b.cva.toNat + 128 * (q.ctail.toNat % 2 ^ q.b.csz.toNat)
      if (s.doneNow q).head? ≠ some r ∨ (q.st = .halted ∧ q.hc = 3) ∨ 2 ^ q.b.csz.toNat ≤ (q.ctail - q.chead).toNat ∨
          s.farAway (x.qid / 1024) x.ctx va 128 true then s
      else
        match s.writeVirt (x.qid / 1024) x.ctx va (s.completionBytes q x status) with
        | (s, some a) => if q.st = .active then s.haltQueue x.qid 3 a else s
        | (s, none) =>
          let s := x.lids.foldl State.releaseKernel s
          let s := { s with
            recs := s.recs.erase r
            queues := s.queues.modify x.qid (fun q => { q with
              ctail := q.ctail + 1, resv := q.resv - 1, open_ := q.open_.filter (· ≠ r), done := q.done.filter (· ≠ r) }) }
          let s := match x.parent with
            | some j => s.joinChild j (status = 0)
            | none => s
          (if status ≠ 0 ∧ q.b.hof ∧ q.st = .active then s.haltQueue x.qid 1 0 else s).settleOut
    | _, _ => s

/-- The completion records of a queue written one after another; the number bounds them. -/
def State.drainQueue (qid : Nat) : Nat → State → State
  | 0, s => s
  | n + 1, s =>
    match (s.queues.get? qid).bind (fun q => (s.doneNow q).head?) with
    | none => s
    | some r => State.drainQueue qid n (s.noteDone.complete_ r)

/-- COMPLETION_RECORD_WRITE (R329). -/
def execCompletionRecordWrite (r : Nat) (s : State) : Host.Outcome State Fault Refusal := .next (s.complete_ r)

/-! ## The event ring (R288, R332) -/

/-- The bytes of a translation-fault event (R288). -/
def FaultEvent.bytes (f : FaultEvent) : List Byte :=
  eventBytes (0x10 + f.ctx * 2 ^ 8 + f.code.toNat * 2 ^ 14 + (if f.wr then 2 ^ 16 else 0) + f.nmrg.toNat * 2 ^ 32 +
    f.fva.toNat * 2 ^ 64 + f.eng * 2 ^ 128 + f.lid * 2 ^ 160 + f.num * 2 ^ 192)

/-- Slots of an event ring. -/
def Ctx.ringSize (c : Ctx) : Nat := 2 ^ (par (c.word 1) 56 4 + 6)

/-- The oldest fault event of a context in a die's queue, by its place. -/
def Die.firstFault (d : Die) (ctx : Nat) : Option (Nat × FaultEvent) :=
  ((List.range d.faults.length).filterMap (fun i => (d.faults[i]?).map (fun f => (i, f)))).find? (fun p => decide (p.2.ctx = ctx))

/-- The events that may be posted next: of X0, whichever came first of the backlog's oldest and its oldest fault, and of every
other die its oldest fault (R288); the event whose write halted the ring is written again first. -/
def State.nextEvents (s : State) (ctx : Nat) (c : Ctx) : List (List Byte × Option (Nat × Nat)) :=
  let log := c.waiting.head?.toList.map (fun w => (w, none))
  let faults := s.dies.filterMap (fun d => (d.2.firstFault ctx).map (fun f => (f.2.bytes, some (d.1, f.1))))
  let first : Bool := c.waiting.isEmpty || ((s.die 0).firstFault ctx).any (fun f => f.2.behind = 0)
  match c.retry with
  | none => (if first then [] else log) ++ faults.filter (fun e => first || e.2.all (fun p => p.1 ≠ 0))
  | some 0 => log
  | some (d + 1) => faults.filter (fun e => e.2.any (fun p => p.1 = d))

/-- An event leaves where it waits. -/
def State.takeEvent (s : State) (ctx : Nat) : Option (Nat × Nat) → State
  | none =>
    (s.updDie 0 (fun d => { d with faults := d.faults.map (fun f =>
      if f.ctx = ctx then { f with behind := f.behind - 1 } else f) })).updCtx ctx (fun c => { c with waiting := c.waiting.drop 1 })
  | some (d, i) => s.updDie d (fun d => { d with faults := d.faults.eraseIdx i })

/-- An event written to the ring at count `etail`, with its phase bit. -/
def phased (c : Ctx) (e : List Byte) : List Byte :=
  if c.etail.toNat / c.ringSize % 2 = 0 then leBytes 64 (leNat e + 2 ^ 511) else e

/-- One event posted, or the ring found full or halted (R332). -/
def State.postRing (s : State) (ctx : Nat) : State :=
  match s.ctxs.get? ctx with
  | none => s
  | some c =>
    if c.est ≠ 1 ∧ c.est ≠ 2 then s
    else if c.ringSize ≤ (c.etail - c.ehead).toNat then s.updCtx ctx (fun c => { c with est := 2 })
    else
      let es := s.nextEvents ctx c
      match es[(Config.freeWord s.tick 0x332).toNat % es.length]? with
      | none => s
      | some (e, src) =>
        if s.farAway 0 ctx (par (c.word 1) 0 52 + 64 * (c.etail.toNat % c.ringSize)) 64 true then s
        else match s.writeVirt 0 ctx (par (c.word 1) 0 52 + 64 * (c.etail.toNat % c.ringSize)) (phased c e) with
        | (s, some _) => s.updCtx ctx (fun c => { c with est := 3, retry := some ((src.map (·.1 + 1)).getD 0) })
        | (s, none) =>
          (s.takeEvent ctx src).updCtx ctx (fun c => { c with
            etail := c.etail + 1, retry := none
            est := if c.ringSize ≤ (c.etail + 1 - c.ehead).toNat then 2 else 1 })

/-- EVENT_RING_POST (R332). -/
def execEventRingPost (ctx : BitVec 6) (s : State) : Host.Outcome State Fault Refusal := .next (s.postRing ctx.toNat)

end Sys2Proof.Machine
end

