-- ==== Sys2Proof/Machine/Walker.lean ====
section
/-! DEFINITION. The format walker: `twalk` and the walker words (R214 to R220). -/

namespace Sys2Proof.Machine

/-- The command that a walker runs: the walker and its state, the sheaf, and the fields of its `twalk`. -/
structure WalkEnv where
  id : Nat
  r  : WalkRun
  e  : TileEnv
  a  : Desc
  b  : DWord
  d  : Desc

/-- The walker that acts, if `State.cur` names one at work. -/
def State.walkEnv (s : State) : Option WalkEnv :=
  match s.cur with
  | .walker id =>
    (s.walkers.get? id).bind fun r =>
    ((s.core r.core).sheaf r.seq).bind fun (h : Sheaf) =>
      match tileInstr h.word, h.subs.head? with
      | .twalk _ a b d, some (.disp by_) => some { id := id, r := r, e := { core := r.core, h := h, u := 0, by_ := by_ }, a := a, b := b, d := d }
      | _, _ => none
  | _ => none

/-- A walker register; k0 reads 0 (R216). -/
def WalkRun.get (r : WalkRun) (k : KReg) : Word := if k = 0 then 0 else r.k[k.toNat]'k.isLt
/-- A walker register written; writes to k0 are ignored. -/
def WalkRun.set (r : WalkRun) (k : KReg) (v : Word) : WalkRun := if k = 0 then r else { r with k := r.k.set k.toNat v k.isLt }

/-- How a walker word ends. -/
inductive WalkStep where
  /-- It goes on at the word after it. -/
  | next (r : WalkRun) (s : State)
  /-- It goes on at a word offset. -/
  | jump (r : WalkRun) (s : State) (wpc : Int)
  /-- It waits for a peer core. -/
  | wait (s : State)
  /-- The work ends with a status (R220). -/
  | fail (code detail : Nat) (s : State)
  /-- An input byte meets an uncorrectable error. -/
  | error (loc : Nat) (s : State)
  /-- The command completes. -/
  | ended (s : State)

/-- The state after a walker word. -/
def WalkStep.apply (w : WalkEnv) : WalkStep → State
  | .next r s => { s with walkers := s.walkers.set w.id { r with wpc := w.r.wpc + 1, steps := w.r.steps + 1 } }
  | .jump r s p => { s with walkers := s.walkers.set w.id { r with wpc := p, steps := w.r.steps + 1 } }
  | .wait s => s
  | .fail c d s =>
    ({ s with walkers := s.walkers.erase w.id } : State).subFault w.e 2 (BitVec.ofNat 32 (c + d % 2 ^ 24 * 256))
  | .error l s => ({ s with walkers := s.walkers.erase w.id } : State).subError w.e l
  | .ended s => ({ s with walkers := s.walkers.erase w.id } : State).subDone w.e

/-- A walker word: its fetch may meet an uncorrectable error (R296). -/
def walkerWord (s : State) (f : WalkEnv → State → WalkStep) : Host.Outcome State Fault Refusal :=
  match s.walkEnv with
  | none => .fault .noAgent
  | some w =>
    let l := dspLoc w.r.core (par w.b 0 23 + 4 * w.r.wpc.toNat)
    match s.checkSpans (s.lidCtx w.e.h.lid) [(l, l + 4)] with
    | (s, some p) => .next ((WalkStep.error p s).apply w)
    | (s, none) => .next ((f w s).apply w)

/-- A walker word that only computes. -/
def walkerPure (s : State) (f : WalkRun → WalkRun) : Host.Outcome State Fault Refusal :=
  walkerWord s (fun w s => .next (f w.r) s)

/-- The number of `n` bytes at offset `o` of the input stream (R217, R218). -/
def walkLoad (w : WalkEnv) (s : State) (o : Word) (n : Nat) (k : State → Word → WalkStep) : WalkStep :=
  if o.toNat % n ≠ 0 then .fail 0x46 o.toNat s
  else if w.a.nrows * w.a.ncols < o.toNat + n then .fail 0x42 o.toNat s
  else
    let l := (descReg w.a w.r.core).base + o.toNat
    match s.peers (.tile w.r.core w.r.seq 0) w.e.h.lid w.r.core [(l, l + n)] [] [(l, l + n)] with
    | (s, .wait) => .wait s
    | (s, .bad p) => .fail 0x02 (p % 8) s
    | (s, .ok) =>
      match s.checkSpans (s.lidCtx w.e.h.lid) [(l, l + n)] with
      | (s, some p) => .error p s
      | (s, none) => k s (BitVec.ofNat 32 (s.mem.num l n))

/-- `n` rows of D from row `er` written (R218); the bytes of all of them. -/
def walkRows (w : WalkEnv) (s : State) (n : Nat) (bs : List Byte) (k : State → WalkStep) : WalkStep :=
  let r := descReg w.d w.r.core
  let l := r.base + w.r.er * r.pitch
  if n = 0 then k s
  else
    match s.peers (.tile w.r.core w.r.seq 0) w.e.h.lid w.r.core [] [(l, l + n * r.pitch)] [] with
    | (s, .wait) => .wait s
    | (s, .bad p) => .fail 0x02 (p % 8) s
    | (s, .ok) =>
      match s.checkSpans (s.lidCtx w.e.h.lid) (partWords [(l, l + n * r.pitch)]) with
      | (s, some p) => .error p s
      | (s, none) => k (if bs.isEmpty then s.zero l (n * r.pitch) else s.store l bs)

/-- The codes of the row buffer. -/
def WalkEnv.row (w : WalkEnv) : List Nat := (List.range w.d.ncols).map (fun c => (Tbl.get? w.r.buf c).getD 0)

/-- A walker begins a dispatched `twalk` (R216, R219). -/
def walkStart (s : State) (e : TileEnv) (b : DWord) (d : Desc) : State :=
  let k : Vector Word 16 := (((Vector.replicate 16 (0 : Word)).set 1 (BitVec.ofNat 32 (par b 32 32))).set 2
    (BitVec.ofNat 32 d.nrows)).set 3 (BitVec.ofNat 32 d.ncols)
  let run : WalkRun := { core := e.core, seq := e.h.seq, k := k, wpc := 0, er := 0, buf := [], steps := 0 }
  ({ s with walkers := s.walkers.set (coreCluster e.core) run } : State).updCore e.core (fun k =>
    k.updSheaf e.h.seq (fun h => { h with begun := true }))

/-- The place of dispatched walker work in its cluster's queue: by the step of its dispatch, then by core, then in the order of
R190. -/
def Sheaf.walkPlace (h : Sheaf) (core : Nat) : Nat × Nat × Nat := (h.since.getD 0, core, h.due.getD 0)

/-- One place comes before another. -/
def placeBefore (a b : Nat × Nat × Nat) : Bool :=
  decide (a.1 < b.1) || (a.1 == b.1 && (decide (a.2.1 < b.2.1) || (a.2.1 == b.2.1 && decide (a.2.2 < b.2.2))))

/-- Walker work of a sheaf that is in its walker's queue: dispatched, with its wait served (R186), and not begun. -/
def Sheaf.walkQueued (h : Sheaf) : Bool :=
  match tileInstr h.word with
  | .twalk .. => h.dispAt 0 && !h.begun && decide (h.wait = .served)
  | _ => false

/-- No other work stands before a sheaf in its walker's queue (R219). -/
def State.walkFirst (s : State) (core : Nat) (h : Sheaf) : Bool :=
  (List.range 8).all (fun p =>
    let c := peerCore core p
    (s.core c).stook.all (fun g => !(placeBefore (g.walkPlace c) (h.walkPlace core) && g.walkQueued)))

/-- TWALK (R214, R219): its work begins when it is the first of its walker's queue and the cluster's walker is free. -/
def execTwalk (h : TileHdr) (a : Desc) (b : DWord) (d : Desc) (s : State) : Host.Outcome State Fault Refusal :=
  match s.tileEnv with
  | none => .fault .noAgent
  | some (e, false) => .next (s.settleSheaf e.core e.h.seq)
  | some (e, true) =>
    if e.h.begun || (s.walkers.get? (coreCluster e.core)).isSome || !s.tileReady e (.twalk h a b d) ||
        !s.walkFirst e.core e.h then .next s
    else .next (walkStart s e b d)

/-! ## Walker words (R217) -/

/-- wk.nop. -/
def execWkNop (s : State) : Host.Outcome State Fault Refusal := walkerPure s id

/-- wk.ld. -/
def execWkLd (d a : KReg) (imm : BitVec 14) (s : State) : Host.Outcome State Fault Refusal :=
  walkerWord s (fun w s => walkLoad w s (w.r.get a + imm.signExtend 32) 4 (fun s v => .next (w.r.set d v) s))

/-- wk.ldx. -/
def execWkLdx (d a b : KReg) (sz : BitVec 2) (s : State) : Host.Outcome State Fault Refusal :=
  walkerWord s (fun w s =>
    let n := 2 ^ sz.toNat
    walkLoad w s (w.r.get a + w.r.get b * BitVec.ofNat 32 n) n (fun s v => .next (w.r.set d v) s))

/-- wk.mov. -/
def execWkMov (d a : KReg) (s : State) : Host.Outcome State Fault Refusal := walkerPure s (fun r => r.set d (r.get a))

/-- wk.add. -/
def execWkAdd (d a b : KReg) (s : State) : Host.Outcome State Fault Refusal :=
  walkerPure s (fun r => r.set d (r.get a + r.get b))

/-- wk.addi. -/
def execWkAddi (d a : KReg) (imm : BitVec 14) (s : State) : Host.Outcome State Fault Refusal :=
  walkerPure s (fun r => r.set d (r.get a + imm.signExtend 32))

/-- The conditions of `wk.cmp`. -/
def walkCond (cc : BitVec 2) (a b : Word) : Bool :=
  match cc.toNat with
  | 0 => a == b
  | 1 => a != b
  | 2 => decide (a < b)
  | _ => a.slt b

/-- wk.cmp. -/
def execWkCmp (d a b : KReg) (cc : BitVec 2) (s : State) : Host.Outcome State Fault Refusal :=
  walkerPure s (fun r => r.set d (if walkCond cc (r.get a) (r.get b) then 1 else 0))

/-- wk.br. -/
def execWkBr (a : KReg) (imm : BitVec 14) (s : State) : Host.Outcome State Fault Refusal :=
  walkerWord s (fun w s => if w.r.get a ≠ 0 then .jump w.r s (w.r.wpc + imm.toInt) else .next w.r s)

/-- wk.loop. -/
def execWkLoop (a : KReg) (imm : BitVec 14) (s : State) : Host.Outcome State Fault Refusal :=
  walkerWord s (fun w s =>
    let r := w.r.set a (w.r.get a - 1)
    if r.get a ≠ 0 then .jump r s (w.r.wpc + imm.toInt) else .next r s)

/-- wk.emit. -/
def execWkEmit (a b : KReg) (s : State) : Host.Outcome State Fault Refusal :=
  walkerWord s (fun w s =>
    let c := (w.r.get b).toNat
    if w.d.ncols ≤ c then .fail 0x43 c s
    else .next { w.r with buf := Tbl.set w.r.buf c ((w.r.get a).toNat % 2 ^ elemW w.d.fmt) } s)

/-- wk.zero. -/
def execWkZero (s : State) : Host.Outcome State Fault Refusal := walkerPure s (fun r => { r with buf := [] })

/-- wk.flush. -/
def execWkFlush (s : State) : Host.Outcome State Fault Refusal :=
  walkerWord s (fun w s =>
    if w.d.nrows ≤ w.r.er then .fail 0x44 w.r.er s
    else walkRows w s 1 (packE (elemW w.d.fmt) w.row) (fun s => .next { w.r with er := w.r.er + 1, buf := [] } s))

/-- wk.skip. -/
def execWkSkip (a : KReg) (s : State) : Host.Outcome State Fault Refusal :=
  walkerWord s (fun w s =>
    let n := (w.r.get a).toNat
    if w.d.nrows < w.r.er + n then .fail 0x44 w.r.er s
    else walkRows w s n [] (fun s => .next { w.r with er := w.r.er + n } s))

/-- wk.end. -/
def execWkEnd (s : State) : Host.Outcome State Fault Refusal :=
  walkerWord s (fun w s => walkRows w s (w.d.nrows - w.r.er) [] (fun s => .ended s))

/-- The next word is illegal, which its fetch shows unless it meets an uncorrectable error (R296), or lies outside the
program, where nothing is fetched (R218, R220). -/
def execWalkerIllegalWord (s : State) : Host.Outcome State Fault Refusal :=
  let stop (w : WalkEnv) (s : State) : WalkStep := .fail 0x41 (w.r.wpc % 512).toNat s
  match s.walkEnv with
  | none => .fault .noAgent
  | some w => if w.r.wpc < 0 ∨ (par w.b 23 9 : Int) < w.r.wpc then .next ((stop w s).apply w) else walkerWord s stop

/-- The limit of words executed (R218, R220), met by a word that has been fetched. -/
def execWalkerStepLimit (s : State) : Host.Outcome State Fault Refusal := walkerWord s (fun _ s => .fail 0x45 0 s)

end Sys2Proof.Machine
end

