-- ==== Sys2Proof/Machine/Count.lean ====
section
/-! DEFINITION. What a step counts beside the effect of its instruction: the slot that issued last (R84), and the counters
whose rates are those of cycles and flits, which the model does not time (R144, R145, R290, R371, log 9). Such a counter keeps
what is written to it and advances, by an amount the model leaves free, in a step that makes what it counts. -/

namespace Sys2Proof.Machine

/-! ## Accesses of data scratchpads (R143 to R145) -/

/-- What the step of an agent reads and writes. -/
structure Accesses where
  rd : List Span := []
  wr : List Span := []

/-- The bytes of an access of `n` bytes at a local address. -/
def State.runAt (s : State) (e : Env) (a : Word) (n : Nat) : List Span :=
  match s.dataAt e a.toNat n with
  | .loc l => [(l, l + n)]
  | _ => []

/-- The bytes of the active lanes of a vector word (R129). -/
def State.laneSpans (s : State) (e : Env) (p : PReg) (addr : Nat → Word) : List Span :=
  let es := elemW e.st.fmt / 8
  match s.checkLanes e es (laneAddrs e.st p addr) with
  | .ok xs => joinRuns es (xs.map (·.2))
  | _ => []

/-- The bytes that `vcst` stores to (R135). -/
def State.compressSpans (s : State) (e : Env) (d : VReg) (a : Word) (p : PReg) : List Span :=
  let es := elemW e.st.fmt / 8
  match s.runAt e a 4 with
  | [x] =>
    let n := ((laneMask e.st.fmt (e.st.getP p)).zip (rowLanes e.st.fmt (s.rowAt e.core (e.st.row d.toNat)))).countP (·.1)
    if n = 0 then [] else x :: s.runAt e (BitVec.ofNat 32 (s.mem.num x.1 4)) (n * es)
  | _ => []

/-- The words that a push gathers after the first (R159). -/
def State.chainSpans (s : State) (e : Env) : Nat → TileWord → Option Word → List Span
  | n + 1, w, some a =>
    let c := (wordHdr w).chain
    if c.getLsbD 15 then
      let a := a + (((c.truncate 15 : BitVec 15).signExtend 32) <<< 5)
      match s.runAt e a 32 with
      | [x] => x :: s.chainSpans e n (BitVec.ofNat 256 (s.mem.num x.1 32)) (some a)
      | _ => []
    else []
  | _, _, _ => []

/-- What a scalar store accesses: its bytes, or the region whose skew it changes, which is zeroed (R142). -/
def State.storeSpans (s : State) (e : Env) (a : Word) (n : Nat) : Accesses :=
  match localTo e.core a.toNat with
  | .reg o =>
    if h : o < 0x400 then
      let r := e.tm.regions[o / 0x40]'(by omega)
      if isRegionField o ∧ r.mode ≠ 0 then { wr := [r.span e.core] } else {}
    else {}
  | _ => { wr := s.runAt e a n }

/-- The region of a granary word. -/
def Env.regionSpan (e : Env) (rg : BitVec 4) : List Span := ((e.tm.region rg).map (fun r => r.span e.core)).toList

/-- What a strand word accesses in data scratchpads. -/
def Env.accesses (e : Env) (s : State) (i : Instr) : Accesses :=
  let unit (x : XReg) (n : Nat) : Word := e.st.getX x + BitVec.ofNat 32 n * e.st.esize
  let strided (x y : XReg) (n : Nat) : Word := e.st.getX x + BitVec.ofNat 32 n * e.st.getX y
  match i with
  | .lb _ b imm | .lbu _ b imm => { rd := s.runAt e (e.addr b imm) 1 }
  | .lh _ b imm | .lhu _ b imm => { rd := s.runAt e (e.addr b imm) 2 }
  | .lw _ b imm => { rd := s.runAt e (e.addr b imm) 4 }
  | .sb _ b imm => s.storeSpans e (e.addr b imm) 1
  | .sh _ b imm => s.storeSpans e (e.addr b imm) 2
  | .sw _ b imm => s.storeSpans e (e.addr b imm) 4
  | .vld _ x p => { rd := s.laneSpans e p (unit x) }
  | .vst _ x p => { wr := s.laneSpans e p (unit x) }
  | .vlds _ x y p => { rd := s.laneSpans e p (strided x y) }
  | .vsts _ x y p => { wr := s.laneSpans e p (strided x y) }
  | .vldx _ x b p =>
    let idx := (rowLanes e.st.fmt (s.rowAt e.core (e.st.row b.toNat))).toArray
    { rd := s.laneSpans e p (fun n => e.st.getX x + BitVec.ofNat 32 (idx.getD n 0) * e.st.esize) }
  | .vcst d x p => { rd := s.runAt e (e.st.getX x) 4, wr := s.compressSpans e d (e.st.getX x) p }
  | .tcLd x => { rd := s.runAt e (e.st.getX x) 32 }
  | .tcPush _ =>
    (match e.st.wait with
    | some (.pushed ..) => {}
    | _ => { rd := s.chainSpans e 63 e.st.tileWord e.st.tmpl })
  | .vcsLd _ x y => { rd := s.runAt e (e.st.getX x) (e.st.getX y).toNat }
  | .grCfg x => { rd := s.runAt e (e.st.getX x) 16 }
  | .grBegin rg _ => { rd := e.regionSpan rg }
  | .grEnd rg =>
    (match e.tm.blocks.get? e.slot with
    | some (.capture, _) => { rd := e.regionSpan rg }
    | some (.replay, key) =>
      { wr := if (s.core e.core).gran.any (fun g => g.pinnedBy e.kn.ctx key e.key) then e.regionSpan rg else [] }
    | _ => {})
  | _ => {}

/-- What a walker word accesses: itself, and the input or the rows that it names (R217, R218). -/
def WalkEnv.accesses (w : WalkEnv) (i : Instr) : Accesses :=
  let l := dspLoc w.r.core (par w.b 0 23 + 4 * w.r.wpc.toNat)
  let r := descReg w.d w.r.core
  let load (o : Word) (n : Nat) : Accesses :=
    { rd := [(l, l + 4), ((descReg w.a w.r.core).base + o.toNat, (descReg w.a w.r.core).base + o.toNat + n)] }
  let rows (n : Nat) : Accesses :=
    { rd := [(l, l + 4)], wr := spanOf (r.base + w.r.er * r.pitch) (r.base + w.r.er * r.pitch + n * r.pitch) }
  match i with
  | .wkLd _ a imm => load (w.r.get a + imm.signExtend 32) 4
  | .wkLdx _ a b sz => load (w.r.get a + w.r.get b * BitVec.ofNat 32 (2 ^ sz.toNat)) (2 ^ sz.toNat)
  | .wkFlush => rows 1
  | .wkSkip a => rows (w.r.get a).toNat
  | .wkEnd => rows (w.d.nrows - w.r.er)
  | _ => { rd := [(l, l + 4)] }

/-- What the step of a strand, a tile engine or a walker accesses. A move's accesses are not among these: how an engine gathers
its elements into lines is not stated. -/
def State.accesses (s : State) (i : Instr) : Accesses :=
  match s.cur with
  | .strand .. => (s.env.map (fun e => e.accesses s i)).getD {}
  | .tile .. =>
    (match s.tileEnv, i with
    | some (_, true), .twalk .. => {}
    | some (e, true), _ =>
      { rd := needSpans e.core e.h.bank i e.h.mapA e.h.nest e.u, wr := writeSpans e.core e.h.bank i e.u }
    | _, _ => {})
  | .queue c false =>
    (match (s.core c).tq.head? with
    | some q =>
      if q.wait = .served then { rd := needSpans c 0 i q.mapA [] 0, wr := writeSpans c 0 i 0 } else {}
    | none => {})
  | .walker _ => (s.walkEnv.map (fun w => w.accesses i)).getD {}
  | _ => {}

/-- The agent's access was performed in the step from `t` to `s`: its word, sub-tile or copy is past, and neither a trap nor a
failure took its place. -/
def State.performed (s t : State) : Bool :=
  match t.cur with
  | .strand .. =>
    (match t.env with
    | some e =>
      ((s.kernels.get? e.tm.lid).any (fun k => k.st == e.kn.st)) && (s.strands.get? e.key).any (fun st =>
        st.hflag == e.st.hflag && decide (st.st ≠ .ended) && (match st.wait with | none | some (.pushed ..) => true | _ => false))
    | none => false)
  | .tile c q u =>
    (match t.tileEnv with
    | some (e, true) => s.liveKernel e.h.lid && !((s.core c).sheaf q).any (fun h => h.dispAt u || h.faulted)
    | _ => false)
  | .queue c false =>
    (match (t.core c).tq.head? with
    | some q => s.liveKernel q.lid && decide ((s.core c).tq.length < (t.core c).tq.length)
    | none => false)
  | .walker id =>
    (match t.walkEnv with
    | some w =>
      s.liveKernel w.e.h.lid && !((s.core w.r.core).sheaf w.r.seq).any (·.faulted) &&
        !(s.walkers.get? id).any (fun r => decide (r.steps = w.r.steps))
    | none => false)
  | _ => false

/-- The lines of 64 bytes of a core's data scratchpad that some runs touch, as runs of line numbers. -/
def scratchLines (c : Nat) (xs : List Span) : List Span :=
  xs.filterMap (fun x => (locCore x.1).bind (fun p =>
    if p.1 = c ∧ p.2 < 0x800000 ∧ x.1 < x.2 then some (x.1 / 64, (x.2 + 63) / 64) else none))

/-- The numbers in some runs, each once. -/
def countRuns : List Span → Nat
  | [] => 0
  | x :: xs => ((freeRuns [x] xs).map (fun r => r.2 - r.1)).sum + countRuns xs

/-- The 64-byte lines of a core's data scratchpad that an access reads and writes (R144): each once for each. DESIGN CHOICE
(log 9): a word or sub-tile that comes back to a line is served from its first access. -/
def Accesses.lines (x : Accesses) (c : Nat) : Nat := countRuns (scratchLines c x.rd) + countRuns (scratchLines c x.wr)

/-- The cores whose data scratchpads an access touches. -/
def Accesses.cores (x : Accesses) : List Nat :=
  ((x.rd ++ x.wr).filterMap (fun y => (locCore y.1).bind (fun p => if p.2 < 0x800000 ∧ y.1 < y.2 then some p.1 else none))).eraseDups

/-- The conflict cycles at one step of the enabled regions of a team that some runs touch. -/
def conflicts (tick c : Nat) (xs : List Span) (t : Team) : Vector Word 16 :=
  Vector.ofFn (fun i : Fin 16 =>
    if (t.regions[i.val]).mode = 0 ∨ !spansMeet xs [(t.regions[i.val]).span c] then 0
    else Config.freeWord tick (0x144000 + (c * 512 + t.num) * 16 + i.val))

/-- `n` lines of a core's data scratchpad served to an access of some runs, and the conflicts it met, which the model leaves
free (R143, R144). -/
def State.countBanks (s : State) (c n : Nat) (xs : List Span) : State :=
  let free (o : Nat) : Word := Config.freeWord s.tick (0x144 + 4096 * c + o)
  let here := (s.core c).residents.filterMap (fun tk => (s.teams.get? tk).map (fun t => (tk, conflicts s.tick c xs t)))
  let sum := here.foldl (fun (n : DWord) p => p.2.toList.foldl (fun (n : DWord) w => n + w.zeroExtend 64) n) ((free 0x408).zeroExtend 64)
  let s := here.foldl (fun (s : State) p => s.updTeam p.1 (fun t => { t with
    regions := Vector.ofFn (fun i : Fin 16 => { t.regions[i.val] with cfl := (t.regions[i.val]).cfl + p.2[i.val] }) })) s
  s.updCnt c (fun k => { k with
    bkacc := k.bkacc + BitVec.ofNat 64 n
    bkcfl := k.bkcfl + sum
    bkfull := k.bkfull + free 0x410
    bkhigh := if k.bkhigh.toNat < (free 0x414).toNat % 17 then BitVec.ofNat 5 ((free 0x414).toNat % 17) else k.bkhigh })

/-- The order point of an access on a core: that of its own core's stook, or of its arrival (R189). -/
def State.pointAt (s t : State) (c : Nat) : Nat :=
  match t.cur with
  | .strand _ _ =>
    (match t.env with
    | some e => if e.core = c then e.mark else s.seat (.strand e.key) c
    | none => 0)
  | .tile d q u => if d = c then q else s.seat (.tile d q u) c
  | .queue d _ => ((t.core d).tq.head?.map (fun q => if d = c then q.seq else s.seat (.tile d q.seq 0) c)).getD 0
  | .walker _ => (t.walkEnv.map (fun w => if w.r.core = c then w.r.seq else s.seat (.tile w.r.core w.r.seq 0) c)).getD 0
  | _ => 0

/-- The acting agent's word waits after the step from `t` to `s`: it has not been performed, and nothing ended it. -/
def State.stalled (s t : State) : Bool :=
  match t.cur with
  | .strand .. => (t.env.bind (fun e => s.strands.get? e.key)).any (fun st => match st.wait with | some (.poll _) => true | _ => false)
  | .tile c q u => ((s.core c).sheaf q).any (fun h => h.dispAt u && decide (h.wait = .served))
  | .queue c _ => decide ((s.core c).tq.length = (t.core c).tq.length)
  | .walker id => (t.walkEnv.bind (fun w => (s.walkers.get? id).map (fun r => decide (r.steps = w.r.steps)))).getD false
  | _ => false

/-- The cycles in which an access stalled on a scoreboard entry of a core, own or peer, which the model leaves free (R145). -/
def State.countStalls (s t : State) (x : Accesses) : State :=
  if s.stalled t then
    (x.cores.filter (fun c => (s.core c).registered (s.pointAt t c) (granulesOf (spansOn c (x.rd ++ x.wr))))).foldl
      (fun (s : State) c => s.updCnt c (fun n => { n with sbstall := n.sbstall + Config.freeWord s.tick (0x145 + 4096 * c) })) s
  else s

/-- The move command of which a box or a windrow row went on in the step from `t` to `s`. -/
def State.moved (s t : State) : Option Cmd :=
  let at_ (id num : Nat) (went : Cmd → Cmd → Bool) : Option Cmd :=
    ((t.eng id).cmds.find? (fun c => c.num = num)).bind (fun c =>
      if ((s.eng id).cmds.find? (fun c => c.num = num)).any (fun d => went c d) then some c else none)
  match t.cur with
  | .box id num b _ => at_ id num (fun c d => decide (c.slots.find? (fun x => x.box = b) ≠ d.slots.find? (fun x => x.box = b)))
  | .event (.windrowRowArrival id num) => at_ id num (fun c d => decide (c.done ≠ d.done) || decide (c.row ≠ d.row))
  | _ => none

/-- The banks that the step from `t` to `s` used (R144): those of its agent's access if it was performed; or those of the rows of
a move that went on, in a number of lines that is free. -/
def State.countAccess (s t : State) (i : Instr) : State :=
  let x := t.accesses i
  if s.performed t then x.cores.foldl (fun (s : State) c => s.countBanks c (x.lines c) (spansOn c (x.rd ++ x.wr))) s
  else
    match s.moved t with
    | some m =>
      (((m.touches t).filter (fun r => maKind r.base == 1)).map (fun r => maCore r.base)).eraseDups.foldl
        (fun (s : State) c => s.countBanks c (Config.freeWord s.tick (0x1440 + 4096 * c)).toNat [(dspLoc c 0, dspLoc c 0x800000)]) s
    | none => s.countStalls t x

/-- A fault of a die waits for an entry of its fault queue (R288, R290). -/
def Die.faultWaits (d : Die) : Bool := decide (1024 ≤ d.faults.length) && !d.posts.isEmpty

/-- The flits that a link's traffic sends, and the cycles in which a fault waits for its queue (R290, R371). -/
def Die.countTraffic (d : Die) (tick die : Nat) : Die :=
  { d with
    links := d.links.map (fun (l : Nat × Link) => (l.1, match l.2.st with
      | .active | .degraded => { l.2 with lflit := l.2.lflit + (Config.freeWord tick (0x371 + 4096 * (8 * die + l.1))).zeroExtend 64 }
      | _ => l.2))
    tfqw := if d.faultWaits then d.tfqw + Config.freeWord tick (0x290 + 4096 * die) else d.tfqw }

/-- The slot whose word has issued in the step from `t` to `s`, if one has (R84). -/
def State.issued (s t : State) : Option (Nat × Nat) :=
  match t.cur, t.env with
  | .strand c sl, some e =>
    let after : Bool := (((s.strands.get? e.key).bind (·.wait)).map Wait.issued).getD true
    if !e.st.hasIssued && after then some (c, sl) else none
  | _, _ => none

/-- A strand that waits after its step from `t` to `s` keeps the word in which it waits, and the step of its issue: the
word runs as fetched, and does not issue again (R84, R280). -/
def State.holdWord (s t : State) (i : Instr) : State :=
  match t.env with
  | some e => s.updStrand e.key (fun st =>
      if st.wait.isSome then { st with held := some i, issue := e.issue t } else st)
  | none => s

/-- A move of any kernel is in flight to an address of some runs of another package's memory (R372). -/
def State.movesTo (s : State) (xs : List Span) : Bool :=
  s.dies.any (fun d => d.2.engines.any (fun e => e.2.cmds.any (fun c =>
    !c.st.gone && (c.left s d.1).any (fun r => r.pages.any (fun va =>
      match s.pageOf d.1 (s.lidCtx c.lid) va with
      | some (pa, _) => xs.any (fun x => Span.meets (pa / 65536 * 65536, pa / 65536 * 65536 + 65536) x)
      | none => false))))) ||
  s.contribs.any (fun x => xs.any (fun y => decide (y.1 ≤ x.pa) && decide (x.pa < y.2)))

/-- The addresses that one of two lists of windows holds and the other does not, as whole windows. -/
def changedSpans (a b : List RedWindow) : List Span :=
  ((a.filter (fun w => !b.contains w)) ++ (b.filter (fun w => !a.contains w))).map (fun w =>
    (w.base.toNat, w.base.toNat + w.size.toNat))

/-- Advertised lists of windows take effect once no move is in flight to an address that they change on the die (R372). -/
def State.settleWindows (s : State) : State :=
  if s.dies.all (fun d => d.2.newWindows.isNone) then s
  else { s with dies := s.dies.map (fun (d : Nat × Die) =>
    match d.2.newWindows with
    | some ws => if s.movesTo (changedSpans d.2.windows ws) then d else (d.1, { d.2 with windows := ws, newWindows := none })
    | none => d) }

/-- What the step of an instruction from `t` to `s` counts, and the lists of windows that take effect with it. -/
def State.count (s t : State) (i : Instr) : State :=
  let s := match s.issued t with
    | some (c, sl) => s.updCore c (fun k => { k with last := sl })
    | none => s
  let s := s.holdWord t i
  let s := s.countAccess t i
  ({ s with dies := s.dies.map (fun (d : Nat × Die) => (d.1, d.2.countTraffic s.tick d.1)) } : State).settleWindows.noteDone

end Sys2Proof.Machine
end

