-- ==== Sys2Proof/Machine/MoveRun.lean ====
section
/-! DEFINITION. How the boxes of move commands run (R249 to R258): the accesses of an element, translated and checked in
order, its writes, suspension, the states of a command (R252), registration (R145), windrow rows (R240), checksums
(R241), storage (R242), contributions to switches (R373, R374), and the end of a run (R222). -/

namespace Sys2Proof.Machine

/-! ## Access by access (R226, R249) -/

/-- A piece of an access in one page: its location, its ordering kind (R272), and whether it lies in another package. -/
structure Piece where
  loc  : Nat
  n    : Nat
  kind : BitVec 2
  far  : Bool
  deriving DecidableEq, Repr

/-- Why an element cannot be performed. -/
inductive MoveStop where
  /-- A translation fault: code, move address, whether the access was a write. -/
  | fault (code : BitVec 2) (mva : DWord) (wbit : Bool)
  /-- An address that leaves the virtual address space (R289). -/
  | gone (mva : DWord) (wbit : Bool)
  /-- A scratchpad byte out of range or not owned. -/
  | owner (core : Nat) (mva : DWord)
  /-- An uncorrectable error that the read of some runs meets. -/
  | ue (t : Trouble) (runs : List Span)
  /-- No link reaches the package of the access (R370). -/
  | far (t : Trouble)

/-- How an access resolves. -/
inductive Res where
  | ok (ps : List Piece)
  | wait
  | stop (x : MoveStop)

/-- Who accesses: the engine, the command and its box. -/
structure Mover where
  id  : Nat
  c   : Cmd
  box : Nat

/-- The live registration of a command on a core (R145). -/
def State.registered (s : State) (core id num : Nat) : Bool :=
  (s.core core).sb.any (fun e => decide (e.2.eng = id ∧ e.2.num = num) && e.2.live)

/-- The ECC words that a read of some runs would find uncorrectable (R295, R298). -/
def State.badIn (s : State) (xs : List Span) : List Nat :=
  s.poison.filter (runsMeet xs) ++ (s.injected.filter (fun e => e.2 && runsMeet xs e.1)).map (·.1)

/-- The runs of the pieces of an access. -/
def pieceRuns (ps : List Piece) : List Span := ps.map (fun p => (p.loc, p.loc + p.n))

/-- The pieces of an access with their offsets in it. -/
def pieceOffs : Nat → List Piece → List (Nat × Piece)
  | _, [] => []
  | o, p :: ps => (o, p) :: pieceOffs (o + p.n) ps

/-- The array code of R256. -/
def arrCode (s : State) (l : Nat) : BitVec 2 :=
  if 2 ^ 48 ≤ l then 2 else if !s.isOwn l then 3 else if l / 2 ^ 40 % 2 = 0 then 0 else 1

/-- The row of an access covers an ECC word that the access touches. -/
def Acc.covers (a : Acc) (ps : List Piece) (w : Span) : Bool :=
  (pieceOffs 0 ps).any (fun q =>
    let o : Int := a.off + q.1 - ((q.2.loc : Int) - w.1)
    Span.meets (q.2.loc, q.2.loc + q.2.n) w && decide (a.lo ≤ o ∧ o + (w.2 - w.1 : Nat) ≤ a.hi))

/-- The ECC words that the write of an access reads first (R257): those that it covers only in part, but for one that its row
covers and the device writes whole with it (log 25). -/
def State.wordsRead (s : State) (a : Acc) (ps : List Piece) : List Span :=
  (partWords (pieceRuns ps)).filter (fun w => !(a.covers ps w && s.choice w.1))

/-- What an access reads: its bytes, or the words that its write reads first. -/
def State.accRuns (s : State) (a : Acc) (ps : List Piece) : List Span :=
  if a.rd || a.wr == false then pieceRuns ps else s.wordsRead a ps

/-- The scratchpad bytes that a box reads on a core whatever its indices hold (R189): the runs of its rows, and of its index
entries. -/
def Cmd.boxReads (c : Cmd) (box core : Nat) : List Span :=
  let run (base : DWord) (lo hi : Int) : List Span :=
    if maKind base = 1 ∧ maCore base = core then
      let o : Int := (base.toNat % 2 ^ 23 : Nat)
      spanOf (dspLoc core (o + lo).toNat) (dspLoc core (min (2 ^ 23) (o + hi).toNat))
    else []
  (List.range (c.boxLo (box + 1) - c.boxLo box)).flatMap (fun i =>
    match c.index (c.boxLo box + i) with
    | some a => run a.base a.off (a.off + a.n)
    | none => (c.plan (c.boxLo box + i) 0 0).srcs.flatMap (fun a => run a.base a.lo a.hi))

/-- A scratchpad access (R138, R145, R189). A box's read demands, when it arrives, the bytes of the whole box, and keeps that
order point until the box is complete. -/
def State.resolveCore (s : State) (m : Mover) (a : Acc) : State × Res :=
  let core := maCore a.base
  let lo : Int := ((a.base.toNat % 2 ^ 23 : Nat) : Int) + a.off
  let bad : Res := .stop (.owner core a.mva)
  if a.base.toNat % 2 ^ 32 / 2 ^ 23 ≠ 0 ∨ a.base.toNat % 2 ^ 62 / 2 ^ 41 ≠ 0 ∨ lo < 0 ∨ 2 ^ 23 < lo + a.n then (s, bad)
  else
    match s.peerCase m.c.lid core with
    | .waits => (s, .wait)
    | .fails => (s, bad)
    | .served tk =>
      let o := lo.toNat
      if !(((s.teams.get? tk).map (fun t => (t.firstUnowned o (o + a.n)).isNone)).getD false) then (s, bad)
      else
        let sp : List Span := granulesOf [(dspLoc core o, dspLoc core (o + a.n))]
        let piece : Piece := { loc := dspLoc core o, n := a.n, kind := 1, far := false }
        let who : Access := .box m.id m.c.num m.box
        let here := s.seats.any (fun x => x.is who core)
        let d := moveDemander m.id m.c.num
        let s := if a.rd then s.sit who core sp else s
        let s := if a.rd && !here then
            s.stookStep core (fun k => k.demand core (s.seat who core) d (granulesOf (m.c.boxReads m.box core))) else s
        let s := if a.rd then s.stookStep core (fun k => k.demand core (s.seat who core) d sp) else s
        if a.rd && (s.core core).stook.any (fun h => decide (h.seq < s.seat who core) &&
            (List.range h.subs.length).any (fun u => h.dispAt u && spansMeet (h.foot core u) sp))
        then (s, .wait)
        else if a.wr && !s.registered core m.id m.c.num then (s, .wait)
        else (s, .ok [piece])

/-- A device-memory access: each part in a page is translated in turn (R249, R273). -/
def State.resolveMem (s : State) (m : Mover) (a : Acc) : State × Res :=
  let lo : Int := ((a.base.toNat % 2 ^ 62 : Nat) : Int) + a.off
  if lo < 0 ∨ 2 ^ 52 < lo + a.n then (s.countFault (engDie m.id), .stop (.gone a.mva a.wbit))
  else
    (byGranule lo.toNat a.n).foldl (fun (r : State × Res) p =>
      match r.2 with
      | .ok ps =>
        let req : WalkReq :=
          { seq := 0, eng := m.id, num := m.c.num, box := m.box, mva := a.mva, rd := a.rd, wr := a.wr, wbit := a.wbit }
        match r.1.translate (r.1.lidCtx m.c.lid) p.1 req with
        | (s, .wait) => (s, .wait)
        | (s, .fault code) => (s, .stop (.fault code a.mva a.wbit))
        | (s, .ok pa kind) =>
          let far := !s.isOwn pa
          let s := if a.wr && far then s.loseRollback m.c.lid else s
          let held := !a.wr && kind != 0 && ((s.die (engDie m.id)).rrb.get? (pa / 256)).isSome
          if far && !s.linked && !held then
            (s, .stop (.far { va := a.mva, box := m.box, arr := 3, old := a.rd && a.wr }))
          else (s, .ok (ps ++ [{ loc := pa, n := p.2, kind := kind, far := far }]))
      | x => (r.1, x)) (s, .ok [])

/-- An access resolved, and the uncorrectable error it would meet. -/
def State.resolve (s : State) (m : Mover) (a : Acc) : State × Res :=
  let r := if maKind a.base = 1 then s.resolveCore m a else s.resolveMem m a
  match r.2 with
  | .ok ps =>
    let xs := r.1.accRuns a ps
    match r.1.badIn xs with
    | w :: _ => (r.1, .stop (.ue { va := a.mva, box := m.box, arr := arrCode r.1 w, old := a.rd && a.wr } xs))
    | [] => r
  | _ => r

/-- Accesses resolved in order, up to the first that cannot go on. -/
def State.resolveAll (s : State) (m : Mover) : List Acc → List (Acc × List Piece) → State × Except Res (List (Acc × List Piece))
  | [], ps => (s, .ok ps)
  | a :: as_, ps =>
    match s.resolve m a with
    | (s, .ok p) => State.resolveAll s m as_ (ps ++ [(a, p)])
    | (s, x) => (s, .error x)

/-- Earlier commands of the engine that have not retired. -/
def State.earlier (s : State) (m : Mover) : List Cmd :=
  (s.eng m.id).cmds.filter (fun d => decide (d.num < m.c.num) && !d.st.gone)

/-- Rows that a command has left may reach the bytes of a piece of an access, at its offset: under the move address that the
access has, in a scratchpad or in the context of both, or under another one that maps the same bytes as RC or SO (R272). -/
def State.rowReaches (s : State) (m : Mover) (a : Acc) (d : Cmd) (r : Rows) (q : Nat × Piece) : Bool :=
  let x : Int := (a.base.toNat : Int) + a.off + q.1
  if maKind a.base = 1 then r.meets x (x + q.2.n)
  else
    (decide (s.lidCtx d.lid = s.lidCtx m.c.lid) && r.meets x (x + q.2.n)) ||
      r.pages.any (fun va => match s.pageOf (engDie m.id) (s.lidCtx d.lid) va with
        | some (pa, k) =>
          let y : Int := (va + q.2.loc % 65536 : Nat)
          k != 2 && decide (pa / 65536 = q.2.loc / 65536) && r.meets y (y + q.2.n)
        | none => false)

/-- The order of R272 and R273: an SO access waits for the SO accesses that earlier commands have left; an access of an RC page
or a scratchpad waits for what they have left to do on its bytes. -/
def State.mustWait (s : State) (m : Mover) (ps : List (Acc × List Piece)) : Bool :=
  let es := s.earlier m
  !es.isEmpty &&
    ((ps.any (fun p => p.2.any (fun q => q.kind == 0)) && es.any (fun d => d.touchesSO s (engDie m.id))) ||
      es.any (fun d =>
        let rows := d.left s (engDie m.id)
        ps.any (fun p => (pieceOffs 0 p.2).any (fun q => q.2.kind != 2 && rows.any (fun r => s.rowReaches m p.1 d r q)))))

/-! ## Bytes -/

/-- The bytes of the pieces of an access read, with what the read counts and logs. -/
def State.readBytes (s : State) (m : Mover) (ps : List Piece) : State × List Byte :=
  let own := ps.filter (fun p => !p.far)
  let s := own.foldl (fun s p =>
    if p.loc < 2 ^ 48 then (byGranule p.loc p.n).foldl (fun s x => s.countRead x.1 x.2) s else s) s
  let s := (s.readRuns (some (s.lidCtx m.c.lid)) (pieceRuns own)).1
  ps.foldl (fun (r : State × List Byte) p =>
    if p.far then
      let q := r.1.readFar (engDie m.id) (p.kind == 0) p.loc p.n
      (q.1, r.2 ++ q.2)
    else (r.1, r.2 ++ r.1.mem.read p.loc p.n)) (s, [])

/-- What an access reads of its bytes: these, or the code of an element narrower than a byte. -/
def Acc.view (a : Acc) (bs : List Byte) : List Byte :=
  if a.w = 0 then bs else [BitVec.ofNat 8 (leNat bs / 2 ^ a.bit % 2 ^ a.w)]

/-- An access read. -/
def State.readAcc (s : State) (m : Mover) (a : Acc) (ps : List Piece) : State × List Byte :=
  let r := s.readBytes m ps
  (r.1, a.view r.2)

/-- The bytes of a piece written at their home (R262, R263, R274, R277). -/
def State.writePiece (s : State) (m : Mover) (p : Piece) (bs : List Byte) : State :=
  -- a word of which the write covers a part is read before, or is written whole with its row (R257)
  let hit (w : Nat) : Bool := wordMeets p.loc p.n w
  let s := { s with poison := s.poison.filter (fun w => !hit w), injected := s.injected.filter (fun e => !hit e.1) }
  if p.far then
    ((s.loseRollback m.c.lid).updDie (engDie m.id) (fun d => d.dropWritten p.loc p.n)).setMem (s.mem.write p.loc bs)
  else if p.loc < 2 ^ 48 then (s.logWrite m.c.lid p.loc p.n).writeHome p.loc bs
  else s.store p.loc bs

/-- An access written; the words that it covers in part are read first. -/
def State.writeAcc (s : State) (m : Mover) (a : Acc) (ps : List Piece) (bs : List Byte) : State :=
  let s := (s.readRuns (some (s.lidCtx m.c.lid)) (s.wordsRead a (ps.filter (fun p => !p.far)))).1
  match ps with
  | [p] =>
    if a.w = 0 then s.writePiece m p bs
    else
      let old := s.mem.num p.loc 1
      let mask := (2 ^ a.w - 1) * 2 ^ a.bit
      s.writePiece m p [BitVec.ofNat 8 ((old ||| mask) - mask + codeOf bs % 2 ^ a.w * 2 ^ a.bit)]
  | _ => (ps.foldl (fun (r : State × List Byte) p => (r.1.writePiece m p (r.2.take p.n), r.2.drop p.n)) (s, bs)).1

/-- A byte at every move address of a run, added to a record of bytes (R241). -/
def recordBytes (t : Tbl Byte) (a : Nat) (bs : List Byte) : Tbl Byte :=
  ((List.range bs.length).zip bs).foldl (fun t p => t.set (a + p.1) p.2) t

/-- The bytes at the places of an access, as they stand. -/
def State.bytesAt (s : State) (ps : List Piece) : List Byte := ps.flatMap (fun p => s.mem.read p.loc p.n)

/-! ## One element (R249 to R251) -/

/-- The command of an engine with a number. -/
def Engine.cmd (e : Engine) (num : Nat) : Option Cmd := e.cmds.find? (fun c => c.num = num)
def Engine.updCmd (e : Engine) (num : Nat) (f : Cmd → Cmd) : Engine :=
  { e with cmds := e.cmds.map (fun c => if c.num = num then f c else c) }
def State.updCmd (s : State) (id num : Nat) (f : Cmd → Cmd) : State := s.updEng id (fun e => e.updCmd num f)

/-- How an attempt at an element ends. -/
inductive ElemEnd where
  | done
  | wait
  | stop (x : MoveStop)

/-- The index of a unit of `mv.gath` or `mv.scat`: resolved, ordered and read. -/
def State.readIndex (s : State) (m : Mover) (u : Nat) : State × Except Res Nat :=
  match m.c.index u with
  | none => (s, .ok 0)
  | some a =>
    match s.resolve m a with
    | (s, .ok p) =>
      if s.mustWait m [(a, p)] then (s, .error .wait)
      else
        let r := s.readAcc m a p
        (r.1, .ok (leNat r.2))
    | (s, x) => (s, .error x)

/-- A failed attempt. -/
def resEnd : Res → ElemEnd
  | .stop x => .stop x
  | _ => .wait

/-- The contribution of an element whose destination lies in a reduction window of another package (R373). -/
def Mover.contribution (m : Mover) (s : State) (elem : Nat) (dst : Acc) (pa : Nat) (srcs : List (List Byte)) : Contribution :=
  let b := m.c.bk
  let base : Contribution :=
    { lid := m.c.lid, pkg := ((s.pkg.map (·.toNat)).getD 0), eng := m.id, num := m.c.num, elem := elem, box := m.box, va := dst.mva, pa := pa
      fmt := 0, op := 10, sat := b.sat, val := 0, cmp := 0, fl := 0, accepted := false }
  match m.c.op with
  | .mvAtom _ x y op ty _ =>
    { base with fmt := if ty = 0 then fI32 else if ty = 1 then 15 else fFP32, op := op, sat := false, val := m.c.reg x, cmp := m.c.reg y }
  | _ =>
    let sum : Rnd := match ifmt b.sf with
      | some _ => redOut b.sf b.df false (srcs.map codeOf) none
      | none =>
        let z := sumFP (srcs.map (fun x => decodeE b.sf (codeOf x)))
        let r := roundTo fFP32 .rne false z.1
        ⟨r.code, z.2 ||| r.fl⟩
    { base with fmt := b.df, val := BitVec.ofNat 64 sum.code, fl := sum.fl }

/-- The element of a command that a switch must reduce: `mv.red` with ac = 1, and `mv.atom` (R373). -/
def Cmd.switched (c : Cmd) : Bool :=
  match c.op with
  | .mvRed _ => c.bk.ac
  | .mvAtom .. => true
  | _ => false

/-- The old value is read, and every target written. -/
def State.finish (s : State) (m : Mover) (p : Plan) (rs : List (Acc × List Piece)) (ns no : Nat) (srcs : List (List Byte))
    (readB : Tbl Byte) : State × ElemEnd :=
  -- an atomic reads at the home of its element (R275)
  let atom : Bool := match m.c.op with | .mvAtom .. => true | _ => false
  let home (ps : List Piece) : List Piece := if atom then ps.map (fun p => { p with kind := 0 }) else ps
  let o := ((rs.drop ns).take no).foldl (fun (r : State × List Byte) x => r.1.readAcc m x.1 (home x.2)) (s, [])
  let out := p.out srcs o.2
  let w := ((rs.drop (ns + no)).zip out.1).foldl (fun (r : State × Tbl Byte) x =>
    let s := r.1.writeAcc m x.1.1 x.1.2 x.2
    (s, recordBytes r.2 x.1.1.mva.toNat (s.bytesAt x.1.2))) (o.1, m.c.wrote)
  let s := w.1.updCmd m.id m.c.num (fun c => { c with wrote := w.2, readB := readB, flags := c.flags ||| out.2 })
  match m.c.op with
  | .mvAtom _ _ t _ ty true =>
    let v : DWord := if ty = 0 then (BitVec.ofNat 32 (leNat o.2)).signExtend 64 else BitVec.ofNat 64 (leNat o.2)
    (s.updEng m.id (fun e => { e with run := e.run.map (fun (r : Run) =>
      if r.atomW = some (m.c.num, t) then { r.put t v with atomW := none } else r) }), .done)
  | _ => (s, .done)

/-- Element `j` of unit `u`, with its index read (R249, R250): every access is resolved in order before any is made. -/
def State.element (s : State) (m : Mover) (elem u j g : Nat) : State × ElemEnd :=
  let p := m.c.plan u j g
  let accs := p.srcs ++ p.old.toList ++ p.dsts
  -- an element sent to a switch is not translated again while it is not accepted (R255)
  if s.contribs.any (fun x => decide (x.eng = m.id ∧ x.num = m.c.num ∧ x.elem = elem) && !x.accepted) then (s, .wait)
  else match s.resolveAll m accs [] with
  | (s, .error x) => (s, resEnd x)
  | (s, .ok rs) =>
    if s.mustWait m rs then (s, .wait)
    else
      let ns := p.srcs.length
      let no := p.old.toList.length
      let r := (rs.take ns).foldl (fun (r : State × List (List Byte) × Tbl Byte) x =>
        let q := r.1.readBytes m x.2
        (q.1, r.2.1 ++ [x.1.view q.2], recordBytes r.2.2 x.1.mva.toNat q.2)) (s, [], m.c.readB)
      let s := r.1
      match rs.drop (ns + no) with
      | [(a, [d])] =>
        if m.c.switched && d.far && s.inWindow (engDie m.id) d.loc then
          let s := s.updCmd m.id m.c.num (fun c => { c with readB := r.2.2 })
          ({ (s.loseRollback m.c.lid).updDie (engDie m.id) (fun x => x.dropWritten d.loc d.n) with
              contribs := s.contribs ++ [m.contribution s elem a d.loc r.2.1] }, .wait)
        else s.finish m p rs ns no r.2.1 r.2.2
      | _ => s.finish m p rs ns no r.2.1 r.2.2

end Sys2Proof.Machine
end

