-- ==== Sys2Proof/Machine/MoveLife.lean ====
section
/-! DEFINITION. The life of move commands and runs (R222, R240 to R243, R249 to R258, R286 to R289, R370, R374): boxes,
suspension and resumption, the events of an engine, and the data words, which issue a command when an engine executes
them and perform elements when a box acts. -/

namespace Sys2Proof.Machine

/-! ## The end of a command (R247, R252, R256) -/

/-- Walk requests of a command are gone, and with them the finished walks that nothing else waits for. -/
def State.dropReqs (s : State) (id num : Nat) : State :=
  s.updDie (engDie id) (fun d => { d with walks := (d.walks.map (fun w => { w with req := w.req.filter (fun r =>
    !decide (r.eng = id ∧ r.num = num)) })).filter (fun w => !(w.out.isSome && w.req.isEmpty)) })

/-- The accesses of a command's boxes are no longer in progress. -/
def State.riseCmd (s : State) (id num : Nat) : State :=
  { s with seats := s.seats.filter (fun x => match x.acc with | .box e n _ => !decide (e = id ∧ n = num) | _ => true) }

/-- What the retirement of a command, by whatever end, frees: its registrations and its place in the retire counter. -/
def State.cmdGone (s : State) (id num : Nat) : State :=
  (((s.dropReqs id num).riseCmd id num).sweepSb).updEng id Engine.advance

/-- A command ends with a status, which ends its run and fails the kernel (R222, R247, R252). -/
def State.endCmd (s : State) (id num : Nat) (status : Word) (info : DWord) : State :=
  match (s.eng id).cmd num with
  | none => s
  | some c =>
    let st := status ||| (c.flags.zeroExtend 32 <<< 8)
    let s := s.updEng id (fun e => e.endWith num st info)
    (s.moveFail c.lid { eng := id, pc := c.pc, num := num, status := st, nres := c.nres, info := info }).cmdGone id num

/-- The detail of status 0x05 and 0x06 (R256). -/
def boxStatus (code : Nat) (bit : Bool) (what : BitVec 2) (box : Nat) : Word :=
  BitVec.ofNat 32 (code + (if bit then 2 ^ 13 else 0) + what.toNat * 2 ^ 14 + box % 64 * 2 ^ 16)

/-- Bytes of read values that the suspended scatters of a context hold (R319). -/
def savedBytes (c : Cmd) : Nat := (c.slots.map (fun b => if b.ph then (b.saved.map (fun x => x.2.length)).sum else 0)).sum
def State.scatterUsed (s : State) (ctx : Nat) : Nat :=
  (s.dies.flatMap (fun d => d.2.engines.flatMap (fun e => e.2.cmds.map (fun c =>
    if c.st = .suspended ∧ s.lidCtx c.lid = ctx then savedBytes c else 0)))).sum

/-- A slot as a suspension leaves it: a scatter's unfinished read phase and a storage command's translations are made
again (R253, R254). -/
def BoxSlot.held (c : Cmd) (b : BoxSlot) : BoxSlot :=
  match c.op with
  | .mvScat _ => if b.ph then b else { b with cur := 0, saved := [] }
  | .mvNvm .. => { b with cur := 0, ph := false, saved := [] }
  | _ => b

/-- A translation fault suspends its command (R252, R253), unless a scatter's read values do not fit the save region
(R319), or a read of the command has met an uncorrectable error, which ends it. The event of the fault waits in the die
(R288). -/
def State.suspend (s : State) (id num box : Nat) (code : BitVec 2) (mva : DWord) (wbit : Bool) : State :=
  match (s.eng id).cmd num with
  | none => s
  | some c =>
    -- no element is sent to a switch and not accepted when its command is suspended (R255)
    if c.st ≠ .active ∨ c.ue.isSome ∨ s.contribs.any (fun x => decide (x.eng = id ∧ x.num = num) && !x.accepted) then s
    else
      let ctx := s.lidCtx c.lid
      let st := boxStatus 0x05 wbit code box
      let slots := c.slots.map (fun b => b.held c)
      let need := savedBytes { c with slots := slots }
      if par (s.cfgWord ctx 3) 32 16 * 2 ^ 20 < need + s.scatterUsed ctx ∧ 0 < need then s.endCmd id num st mva
      else
        -- the read values stand in the save region; the manual gives no layout of it (log 14)
        let at_ := par (s.cfgWord ctx 2) 0 48 + par (s.cfgWord ctx 3) 0 12 * slotSize + s.scatterUsed ctx
        let s := if need = 0 then s else
          s.writeHome at_ ((List.range need).map (fun i => Config.freeByte s.tick (at_ + i)))
        let s := s.updDie (engDie id) (fun d => { d with posts := d.posts ++
          [{ behind := 0, ctx := ctx, code := code, wr := wbit, nmrg := 1, fva := mva, eng := id, lid := c.lid, num := num }] })
        (s.updCmd id num (fun c => { c with
          st := .suspended, slots := slots, susp := some (st ||| (c.flags.zeroExtend 32 <<< 8), mva), posted := false
          far := none })).dropReqs id num |>.riseCmd id num

/-- The fault service resumes a command (R252, R254). -/
def Cmd.resume (c : Cmd) : Cmd := { c with st := .active, susp := none, posted := false, nres := min 0xFFFF (c.nres + 1) }

/-- What an element that cannot be performed does to its command. -/
def State.moveStopped (s : State) (id num box : Nat) : MoveStop → State
  | .fault code mva wbit => s.suspend id num box code mva wbit
  | .gone mva wbit => s.endCmd id num (boxStatus 0x05 wbit 0 box) mva
  | .owner core mva => s.endCmd id num (BitVec.ofNat 32 (0x04 + core * 2 ^ 13)) mva
  | .ue t xs =>
    let ctx := ((s.eng id).cmd num).map (fun c => s.lidCtx c.lid)
    (s.readRuns ctx (xs.filter (fun x => arrCode s x.1 ≠ 3))).1.updCmd id num (fun c => { c with ue := some t })
  | .far t => s.updCmd id num (fun c => { c with far := some t })

/-! ## Registration (R145, R192) -/

/-- Work appended before an order point that a registration waits for. -/
def Core.heldOff (k : Core) (core mark : Nat) (x : Span) : Bool :=
  k.stook.any (fun h => decide (h.seq < mark) && (List.range h.subs.length).any (fun u => h.dispAt u &&
    (spansMeet (h.foot core u) [x] || spansMeet (h.src core u) [x]))) ||
  k.tq.any (fun q => decide (q.seq < mark) && spansMeet (q.src core) [x])

/-- One step of the registration of a range of a core for a command: it begins with a force, once an entry is free and a
team of the kernel is resident, and is live once the work before it has completed. -/
def State.register (s : State) (id num lid core : Nat) (x : Span) : State :=
  match s.peerCase lid core with
  | .served _ =>
    let live (s : State) : State :=
      s.updCore core (fun k => { k with sb := k.sb.map (fun (e : Nat × SbEntry) =>
        if e.2.eng = id ∧ e.2.num = num ∧ !k.heldOff core e.2.mark x ∧ !s.farHolds core e.2.mark [x] then (e.1, { e.2 with live := true }) else e) })
    let k := s.core core
    if k.sb.any (fun e => decide (e.2.eng = id ∧ e.2.num = num)) then live s
    else
      match (List.range 32).find? (fun i => (k.sb.get? i).isNone) with
      | none =>
        match (s.eng id).cmd num with
        | none => s
        | some c =>
          if c.full.contains core then s
          else
            (s.updCnt core (fun n => { n with sbfull := n.sbfull + 1 })).updCmd id num (fun c =>
              { c with full := core :: c.full })
      | some i =>
        let e : SbEntry := { lo := x.1, hi := x.2, eng := id, num := num, mark := k.nextSeq, live := false }
        let s := (s.updCore core (fun k => { k with sb := k.sb.set i e })).updCmd id num (fun c =>
          { c with full := c.full.filter (· ≠ core) })
        live (s.stookStep core (fun k => k.force core e.mark (moveDemander id num) [x]))
  | _ => s

/-- A step of the registration of every range of a command. -/
def State.registerAll (s : State) (id : Nat) (c : Cmd) : State :=
  (c.ranges s).foldl (fun s r => s.register id c.num c.lid r.1 r.2) s

/-! ## Boxes (R249, R250) -/

/-- A box that runs, or may start now. -/
def Cmd.slot (c : Cmd) (box : Nat) : Option BoxSlot :=
  match c.slots.find? (fun b => b.box = box) with
  | some b => some b
  | none =>
    if c.boxes ≤ box ∨ c.bmp.getLsbD box = true ∨ (if c.serial then 1 else 4) ≤ c.slots.length then none
    else if c.serial && (List.range box).any (fun b => !c.bmp.getLsbD b) then none
    else some { box := box, ph := false, cur := 0, saved := [] }

/-- A box with its state set. -/
def Cmd.putSlot (c : Cmd) (b : BoxSlot) : Cmd :=
  if c.slots.any (fun x => x.box = b.box) then { c with slots := c.slots.map (fun x => if x.box = b.box then b else x) }
  else { c with slots := c.slots ++ [b] }

/-- A box is complete. -/
def Cmd.boxDone (c : Cmd) (box : Nat) : Cmd :=
  { c with slots := c.slots.filter (fun b => b.box ≠ box), bmp := c.bmp ||| (1#64 <<< box) }

/-- A box past one element. -/
def Cmd.passed (c : Cmd) (b : BoxSlot) : Cmd :=
  let c := { c with far := none }
  if c.boxLen b.box ≤ b.cur + 1 then c.boxDone b.box else c.putSlot { b with cur := b.cur + 1 }

/-- One element of a scatter (R250): the read phase saves what it reads; the write phase writes it. -/
def State.scatterStep (s : State) (m : Mover) (b : BoxSlot) : State × ElemEnd :=
  let c := m.c
  let u := c.boxLo b.box + b.cur / c.perUnit
  let j := b.cur % c.perUnit
  let put (s : State) (b : BoxSlot) : State := s.updCmd m.id c.num (fun c => c.putSlot b)
  if !b.ph then
    match s.readIndex m u with
    | (s, .error x) => (s, resEnd x)
    | (s, .ok g) =>
      let k := g * c.group + j / c.bk.cols
      match s.resolveAll m (c.plan u j g).srcs [] with
      | (s, .error x) => (s, resEnd x)
      | (s, .ok rs) =>
        if s.mustWait m rs then (s, .wait)
        else
          let r := rs.foldl (fun (r : State × List Byte × Tbl Byte) x =>
            let q := r.1.readBytes m x.2
            (q.1, r.2.1 ++ x.1.view q.2, recordBytes r.2.2 x.1.mva.toNat q.2)) (s, [], c.readB)
          let saved := b.saved ++ [(k, r.2.1)]
          let b' : BoxSlot :=
            if c.boxLen b.box ≤ b.cur + 1 then { b with ph := true, cur := 0, saved := saved }
            else { b with cur := b.cur + 1, saved := saved }
          (put (r.1.updCmd m.id c.num (fun c => { c with readB := r.2.2 })) b', .wait)
  else
    match b.saved[b.cur]? with
    | none => (s, .done)
    | some (k, bs) =>
      let ds := if bs.isEmpty then [] else
        (c.plan u (k % c.group * c.bk.cols + j % c.bk.cols) (k / c.group)).dsts
      match s.resolveAll m ds [] with
      | (s, .error x) => (s, resEnd x)
      | (s, .ok rs) =>
        if s.mustWait m rs then (s, .wait)
        else
          let w := rs.foldl (fun (r : State × Tbl Byte) x =>
            let s := r.1.writeAcc m x.1 x.2 bs
            (s, recordBytes r.2 x.1.mva.toNat (s.bytesAt x.2))) (s, c.wrote)
          (w.1.updCmd m.id c.num (fun c => { c with wrote := w.2 }), .done)

/-- The element of `mv.csum` (R241). -/
def State.csumStep (s : State) (m : Mover) (d : AReg) (src : Bool) : State × ElemEnd :=
  match (s.eng m.id).cmd (m.c.num - 1) with
  | none => (s, .wait)
  | some p =>
    let a := bytesAcc (m.c.reg d) 0 4 false true true
    match s.resolveAll m [a] [] with
    | (s, .error x) => (s, resEnd x)
    | (s, .ok rs) =>
      if s.mustWait m rs then (s, .wait)
      else
        let v := crc32c ((if src then p.readB else p.wrote).map (·.2))
        (rs.foldl (fun s x => s.writeAcc m x.1 x.2 (leBytes 4 v.toNat)) s, .done)

/-- The pieces of a storage command's buffer: offsets and lengths within 64 KiB granules. -/
def nvmPieces (c : Cmd) (len : Nat) (d : AReg) : List (Nat × Nat) := byGranule ((c.reg d).toNat % 2 ^ 62) len

/-- Bytes of a storage command's buffer (R242, R380). -/
def State.nvmLen (s : State) (c : Cmd) : Nat := ((c.touches s).map (fun r => r.len)).headD 0

/-- The pieces of a storage command's buffer, as its translations gave them. -/
def State.nvmPlaces (s : State) (b : BoxSlot) (ps : List (Nat × Nat)) : List Piece :=
  (b.saved.zip ps).map (fun q => { loc := q.1.1, n := q.2.2, kind := BitVec.ofNat 2 (leNat q.1.2), far := !s.isOwn q.1.1 })

/-- A piece of a storage command's buffer lies in another package, and no link carries traffic (R370). -/
def State.nvmCut (s : State) (b : BoxSlot) (ps : List (Nat × Nat)) : Bool := (s.nvmPlaces b ps).any (·.far) && !s.linked

/-- The data of a storage read written to its buffer; of a failed read each byte arrives or not, and none where no link carries
it. -/
def State.nvmWrite (s : State) (m : Mover) (b : BoxSlot) (ps : List (Nat × Nat)) (data : List Byte) (failed : Bool) : State :=
  ((s.nvmPlaces b ps).foldl (fun (r : State × List Byte) p =>
    let s := r.1
    let old := s.mem.read p.loc p.n
    let new := (r.2.take p.n ++ old.drop (r.2.take p.n).length)
    let bs := if failed then (List.range p.n).map (fun i =>
      if s.choice (p.loc + i) then new.getD i 0 else old.getD i 0) else new
    (if p.far && !s.linked then s else s.writePiece m p bs, r.2.drop p.n)) (s, data)).1

/-- The next step of `mv.nvm` (R249): its buffer is translated a piece at a time, and the request is sent once the whole
of it is, in the order of R272; the data of a write to storage are read then. -/
def State.nvmStep (s : State) (m : Mover) (b : BoxSlot) (d x y : AReg) (qp : BitVec 16) (dir : Bool) : State × ElemEnd :=
  let c := m.c
  let ps := nvmPieces c (s.nvmLen c) d
  let base := (c.reg d).toNat % 2 ^ 62
  if b.ph then
    match b.saved[ps.length]? with
    | some (_, data) =>
      if s.nvmCut b ps then (s, .stop (.far { va := c.reg d, box := m.box, arr := 3, old := false }))
      else (s.nvmWrite m b ps data false, .done)
    | none => (s, .wait)
  else
    match ps[b.saved.length]? with
    | some (va, n) =>
      (match s.resolve m (bytesAcc (c.reg d) ((va - base : Nat) : Int) n dir (!dir) (!dir)) with
      | (s, .ok [p]) =>
        (s.updCmd m.id c.num (fun c => c.putSlot { b with saved := b.saved ++ [(p.loc, [p.kind.zeroExtend 8])] }), .wait)
      | (s, .ok _) => (s, .wait)
      | (s, r) => (s, resEnd r))
    | none =>
      let whole := bytesAcc (c.reg d) 0 (s.nvmLen c) dir (!dir) (!dir)
      let places := s.nvmPlaces b ps
      if s.mustWait m [(whole, places)] then (s, .wait)
      else
        if places.any (·.far) && !s.linked then (s, .stop (.far { va := whole.mva, box := m.box, arr := 3, old := false }))
        else match if dir then s.badIn (pieceRuns places) else [] with
        | w :: _ => (s, .stop (.ue { va := whole.mva, box := m.box, arr := arrCode s w, old := false } (pieceRuns places)))
        | [] =>
          let r := if dir then s.readBytes m places else (s, [])
          ((r.1.updCmd m.id c.num (fun c => c.putSlot { b with ph := true })).emit
            (.nvm (s.lidCtx c.lid) qp.toNat (c.reg x) (c.reg y) dir r.2), .wait)

/-- An attempt at the next element of a box. -/
def State.boxElem (s : State) (m : Mover) (b : BoxSlot) : State × ElemEnd :=
  let c := m.c
  let u := c.boxLo b.box + b.cur / c.perUnit
  let j := b.cur % c.perUnit
  match c.op with
  | .mvScat _ => s.scatterStep m b
  | .mvCsum d => s.csumStep m d false
  | .mvCsumSrc d => s.csumStep m d true
  | .mvNvm d x y qp dir => s.nvmStep m b d x y qp dir
  | _ =>
    match s.readIndex m u with
    | (s, .error x) => (s, resEnd x)
    | (s, .ok g) => s.element m (u * c.perUnit + j) u j g

/-- A box performs up to `n` elements of an active command. -/
def State.runBox (id num box : Nat) : Nat → State → State
  | 0, s => s
  | n + 1, s =>
    match (s.eng id).cmd num with
    | none => s
    | some c =>
      if c.st ≠ .active ∨ c.ue.isSome then s
      else
        match c.slot box with
        | none => s
        | some b =>
          match s.boxElem { id := id, c := c, box := box } b with
          | (s, .done) =>
            let s := s.updCmd id num (fun c => c.passed ((c.slot box).getD b))
            let s := if ((s.eng id).cmd num).any (fun c => c.slots.any (fun x => x.box = box)) then s else s.rise (.box id num box)
            State.runBox id num box n s
          | (s, .wait) =>
            let s := s.updCmd id num (fun c => if (c.slot box).isSome then c.putSlot ((c.slot box).getD b) else c)
            State.runBox id num box n (s.registerAll id c)
          | (s, .stop x) => (s.updCmd id num (fun c => c.putSlot b)).moveStopped id num box x

/-! ## Data words (R222, R229 to R242) -/

/-- A data word: a box of its command performs elements, or an engine executes the word. -/
def dataStep (s : State) (f : MoveEnv → State) : Host.Outcome State Fault Refusal :=
  match s.cur with
  | .box id num box n => .next (s.runBox id num box n)
  | _ => moveStep s f

/-- A data word with a parameter block (R229 to R231). -/
def blockWord (s : State) (i : Instr) (w : DataWord) : Host.Outcome State Fault Refusal :=
  dataStep s (fun e =>
    let off := w.blk.toNat
    let blk := s.mem.read (moveLoc (engDie e.id) + off) 32
    let c : Nat := match i with
      | .mvGath _ | .mvScat _ => w.src2.toNat + 1
      | _ => w.src2.toNat
    let rv := (e.r.a.toList.getD c 0).toNat
    let rows := if w.rc then rv else (blkOf blk).rows
    if e.full then e.stall s
    else if off % 32 ≠ 0 ∨ (w.rc = true ∧ (15 < c ∨ 2 ^ 24 ≤ rv)) then e.illegal s
    else if !(dataOk i e.r.a { blkOf blk with rows := rows } && s.issueOk e.id e.r.lid e.r.a e.r.last i) then e.illegal s
    else e.issue s i blk rows w.after)

/-- A data word without a parameter block. -/
def bareWord (s : State) (i : Instr) : Host.Outcome State Fault Refusal :=
  dataStep s (fun e =>
    if e.full then e.stall s
    else if !s.issueOk e.id e.r.lid e.r.a e.r.last i then e.illegal s
    else e.issue s i [] 1 false)

/-- MV_COPY (R233). -/
def execMvCopy (w : DataWord) (s : State) : Host.Outcome State Fault Refusal := blockWord s (.mvCopy w) w

/-- MV_GATH (R236). -/
def execMvGath (w : DataWord) (s : State) : Host.Outcome State Fault Refusal := blockWord s (.mvGath w) w

/-- MV_SCAT (R236). -/
def execMvScat (w : DataWord) (s : State) : Host.Outcome State Fault Refusal := blockWord s (.mvScat w) w

/-- MV_TPOSE (R234). -/
def execMvTpose (w : DataWord) (s : State) : Host.Outcome State Fault Refusal := blockWord s (.mvTpose w) w

/-- MV_CVT (R235). -/
def execMvCvt (w : DataWord) (s : State) : Host.Outcome State Fault Refusal := blockWord s (.mvCvt w) w

/-- MV_RED (R237). -/
def execMvRed (w : DataWord) (s : State) : Host.Outcome State Fault Refusal := blockWord s (.mvRed w) w

/-- MV_MCAST (R233). -/
def execMvMcast (w : DataWord) (s : State) : Host.Outcome State Fault Refusal := blockWord s (.mvMcast w) w

/-- MV_WIN (R240). -/
def execMvWin (w : DataWord) (s : State) : Host.Outcome State Fault Refusal := blockWord s (.mvWin w) w

/-- MV_ZIP (R238). -/
def execMvZip (w : DataWord) (s : State) : Host.Outcome State Fault Refusal := blockWord s (.mvZip w) w

/-- MV_UNZIP (R238). -/
def execMvUnzip (w : DataWord) (s : State) : Host.Outcome State Fault Refusal := blockWord s (.mvUnzip w) w

/-- MV_ATOM (R239). -/
def execMvAtom (d a b : AReg) (op : BitVec 4) (ty : BitVec 2) (ret : Bool) (s : State) :
    Host.Outcome State Fault Refusal := bareWord s (.mvAtom d a b op ty ret)

/-- MV_CSUM (R241). -/
def execMvCsum (d : AReg) (s : State) : Host.Outcome State Fault Refusal := bareWord s (.mvCsum d)

/-- MV_CSUM, flags 1 (R241). -/
def execMvCsumSrc (d : AReg) (s : State) : Host.Outcome State Fault Refusal := bareWord s (.mvCsumSrc d)

/-- MV_NVM (R242). -/
def execMvNvm (d a b : AReg) (qp : BitVec 16) (dir : Bool) (s : State) : Host.Outcome State Fault Refusal :=
  bareWord s (.mvNvm d a b qp dir)

/-! ## Events of commands and runs -/

/-- MOVE_COMMAND_START (R225, R240, R241, R252). -/
def execMoveCommandStart (id num : Nat) (s : State) : Host.Outcome State Fault Refusal :=
  .next (match (s.eng id).cmd num with
  | none => s
  | some c =>
    let before := (s.eng id).cmds.filter (fun d => decide (d.num < num) && !d.st.gone)
    let waits := match c.op with
      | .mvCsum _ | .mvCsumSrc _ => before.any (fun d => decide (d.num + 1 = num))
      | _ => c.after && !before.isEmpty
    if c.st ≠ .issued ∨ waits = true then s
    else
      let s := s.updCmd id num (fun c => { c with st := .active })
      match c.op with
      | .mvWin w =>
        let (core, n) := winAt (c.reg w.dst)
        let sem := ((s.core core).windrows[n.val]).sem.toNat
        if ((s.kernels.get? c.lid).map (fun k => k.desc.ownsSem sem)).getD false then
          -- a `mv.win` that comes after every strand of its kernel has ended is ended at once (R240, R260)
          (if ((s.kernels.get? c.lid).map (·.st)) = some .draining then s.endWindrows c.lid else s)
        else s.endCmd id num (semStatus sem) 0
      | _ => s.registerAll id c)

/-- SCOREBOARD_REGISTER (R145). -/
def execScoreboardRegister (id num core : Nat) (s : State) : Host.Outcome State Fault Refusal :=
  .next (match (s.eng id).cmd num with
  | none => s
  | some c =>
    if c.st ≠ .active then s
    else ((c.ranges s).filter (fun r => r.1 = core)).foldl (fun s r => s.register id num c.lid r.1 r.2) s)

/-- Every box of a command is complete, and every contribution delivered; a `mv.win` ends when its windrow is disabled and the
row that it has begun has arrived (R240, R252, R374). -/
def State.cmdComplete (s : State) (id : Nat) (c : Cmd) : Bool :=
  (match c.op with
    | .mvWin w =>
      let (core, n) := winAt (c.reg w.dst)
      let win := (s.core core).windrows[n.val]
      c.row.isNone && (!win.en || decide (win.served ≠ some (id, c.num)))
    | _ => (List.range c.boxes).all (fun b => c.bmp.getLsbD b)) &&
  !s.contribs.any (fun x => decide (x.eng = id ∧ x.num = c.num))

/-- MOVE_COMMAND_RETIRE (R224, R252). -/
def execMoveCommandRetire (id num : Nat) (s : State) : Host.Outcome State Fault Refusal :=
  .next (match (s.eng id).cmd num with
  | none => s
  | some c =>
    if c.st = .active ∧ c.ue.isNone ∧ s.cmdComplete id c then
      (s.updCmd id num (fun c => { c with st := .retired, status := c.flags.zeroExtend 32 <<< 8 })).cmdGone id num
    else s)

/-- MOVE_RUN_RETIRE (R162, R222): the engine is free; a run that ended with status 0 signals. -/
def execMoveRunRetire (id : Nat) (s : State) : Host.Outcome State Fault Refusal :=
  .next (match (s.eng id).run with
  | none => s
  | some r =>
    if r.ended && (s.eng id).cmds.all (fun c => c.st.gone) then
      let s := s.updEng id (fun e => ({ e with run := none } : Engine).advance)
      let s :=
        if r.status = 0 ∧ r.hdr.sigEn ∧ s.liveKernel r.lid then
          s.signal r.core r.team r.hdr.sigSem.toNat r.hdr.sigAmt.toNat (r.hdr.scope == 3)
        else s
      s.settleKernels
    else s)

/-- MOVE_UNCORRECTABLE_ERROR (R252, R256, R257). -/
def execMoveUncorrectableError (id num : Nat) (s : State) : Host.Outcome State Fault Refusal :=
  .next (match (s.eng id).cmd num with
  | none => s
  | some c =>
    match c.ue with
    | some t =>
      if c.st ≠ .active then s
      else s.endCmd id num (boxStatus 0x06 t.old t.arr t.box) t.va
    | none => s)

/-- REMOTE_ACCESS_TIMEOUT (R370): an access that no link has carried in 2^31 transfer cycles; a contribution that no switch has
accepted is given up with it, also that of a command that has ended before. -/
def execRemoteAccessTimeout (id num : Nat) (s : State) : Host.Outcome State Fault Refusal :=
  .next (match (s.eng id).cmd num with
  | none => { s with contribs := s.contribs.filter (fun x => !decide (x.eng = id ∧ x.num = num) || x.accepted) }
  | some c =>
    let t : Option Trouble := match c.far with
      | some t => some t
      | none => (s.contribs.find? (fun x => decide (x.eng = id ∧ x.num = num) && !x.accepted)).map
          (fun x => { va := x.va, box := x.box, arr := 3, old := true })
    let s := { s with contribs := s.contribs.filter (fun x => !decide (x.eng = id ∧ x.num = num) || x.accepted) }
    match t with
    | some t => if c.st = .active then s.endCmd id num (boxStatus 0x06 t.old 3 t.box) t.va else s
    | none => s)

/-- RRB_LINE_EXPIRY (R277). -/
def execRrbLineExpiry (die line : Nat) (s : State) : Host.Outcome State Fault Refusal :=
  .next (s.updDie die (fun d => { d with rrb := d.rrb.erase line }))

/-- A row of a windrow, which stood as `win` when the row began, is whole: its entry retires, it has arrived and is announced
(R145, R147, R240). -/
def State.rowArrives (s : State) (id : Nat) (c : Cmd) (core : Nat) (n : Fin 8) (win : Windrow) : State :=
  let s := (s.updCore core (fun k => { k with
    sb := k.sb.filter (fun e => !decide (e.2.eng = id ∧ e.2.num = c.num))
    windrows := k.windrows.set n.val { k.windrows[n.val] with arrived := win.arrived + 1 } })).updCmd id c.num (fun c =>
      { c with done := 0, row := none })
  let s := s.rise (.box id c.num 0)
  match s.peerCase c.lid core with
  | .served tk => s.signal core tk win.sem.toNat 1 false
  | _ => s

/-- WINDROW_ROW_ARRIVAL (R145, R147, R240, R249): the next bytes of row `arrived`, up to the end of a page or of the row. The
row is registered as one entry; its last byte announces it. A row begins while the windrow is enabled and has room, and one
that has begun is written whole whatever becomes of the windrow (R240). -/
def State.windrowRow (s : State) (id : Nat) (c : Cmd) (w : DataWord) : State :=
  let (core, n) := winAt (c.reg w.dst)
  let now := (s.core core).windrows[n.val]
  let win := c.row.getD now
  let size := win.rows.toNat
  let p := win.pitch.toNat
  let t := win.arrived.toNat
  let begins : Bool := now.en && now.served == some (id, c.num) && decide ((now.arrived - now.head).toNat < size)
  if c.st ≠ .active ∨ c.ue.isSome ∨ !(c.row.isSome || begins) then s
  else if !(((s.kernels.get? c.lid).map (fun k => k.desc.ownsSem win.sem.toNat)).getD false) then
    s.endCmd id c.num (semStatus win.sem.toNat) 0
  else
    let s := s.updCmd id c.num (fun c => { c with row := some win })
    let m : Mover := { id := id, c := c, box := 0 }
    let o := win.base.toNat + t % size * p
    let from_ : Int := t * c.bk.sp + c.done
    let k := if t < c.rows then min (p - c.done) (65536 - (((c.reg w.src1).toNat : Int) + from_).toNat % 65536) else p - c.done
    let run (a : Acc) (lo : Int) : Acc := { a with lo := lo, hi := lo + p }
    let src := if t < c.rows then [run (bytesAcc (c.reg w.src1) from_ k true false false) (t * c.bk.sp)] else []
    let dst := run (bytesAcc (BitVec.ofNat 64 (2 ^ 62 + core * 2 ^ 32)) ((o + c.done : Nat) : Int) k false true true) (o : Int)
    match s.resolveAll m src [] with
    | (s, .error (.stop x)) => s.moveStopped id c.num 0 x
    | (s, .error _) => s
    | (s, .ok rs) =>
      let row : Span := Span.granules (dspLoc core o, dspLoc core (o + p))
      let go (s : State) (d : List Piece) : State :=
        if s.mustWait m (rs ++ [(dst, d)]) then s
        else
          let r := rs.foldl (fun (r : State × List Byte) x => r.1.readAcc m x.1 x.2) (s, [])
          let bs := if t < c.rows then r.2 else List.replicate k 0
          let s := (r.1.writeAcc m dst d bs).updCmd id c.num (fun c => { c with done := c.done + k, far := none })
          if c.done + k < p then s else s.rowArrives id c core n win
      match s.resolve m dst with
      | (s, .ok d) => go s d
      | (s, .stop x) => s.moveStopped id c.num 0 x
      | (s, .wait) =>
        match (s.register id c.num c.lid core row).resolve m dst with
        | (s, .ok d) => go s d
        | (s, .stop x) => s.moveStopped id c.num 0 x
        | (s, .wait) => s

/-- WINDROW_ROW_ARRIVAL (R240). -/
def execWindrowRowArrival (id num : Nat) (s : State) : Host.Outcome State Fault Refusal :=
  .next (match (s.eng id).cmd num with
  | none => s
  | some c =>
    match c.op with
    | .mvWin w => s.windrowRow id c w
    | _ => s)

/-! ## Walks and fault events (R285, R286, R288) -/

/-- One access that waited for a walk; an uncorrectable error in a table is one that the access has met (R295, R296). DESIGN
CHOICE (log 13), which R285 leaves open for a merged walk: each access caches or faults for itself, so the leaf that one access
caches stays when another, whose permission it lacks, faults on it. -/
def State.walkDone (s : State) (die : Nat) (w : Walk) (e : Walked) (ue : Option Nat) (r : WalkReq) : State :=
  let bad (s : State) (c : BitVec 2) : State := (s.countFault die).suspend r.eng r.num r.box c r.mva r.wbit
  match ue, e.fin with
  | some l, _ => s.updCmd r.eng r.num (fun c =>
      if c.st = .active then { c with ue := some { va := r.mva, box := r.box, arr := arrCode s l, old := false } } else c)
  | none, .fault c => bad s c
  | none, .leaf l size =>
    match s.useLeaf w.ctx w.va l size r.rd r.wr with
    | .error c => bad s c
    | .ok _ =>
      let t : TlbEntry := { ctx := w.ctx, va := w.va / size * size, size := size, leaf := l }
      s.updDie die (fun d => ((d.fillLast t).fillL1 r.eng t).fillPtrs e.ptrs)

/-- No request of the same engine asked before this one still waits (R286). -/
def Die.isNext (d : Die) (q : WalkReq) : Bool :=
  d.walks.all (fun w => w.req.all (fun r => !decide (r.eng = q.eng ∧ r.seq < q.seq)))

/-- A result that a finished walk may deliver. -/
def Die.ready (d : Die) : Option (Walk × (Walked × Option Nat) × WalkReq) :=
  d.walks.findSome? (fun w => w.out.bind (fun o => (w.req.find? d.isNext).map (fun q => (w, o, q))))

/-- A die without the requests numbered `seq`, and without finished walks that nothing waits for. -/
def Die.delivered (d : Die) (seq : Nat) : Die :=
  { d with walks := (d.walks.map (fun w => { w with req := w.req.filter (fun r => r.seq ≠ seq) })).filter (fun w =>
      !(w.out.isSome && w.req.isEmpty)) }

/-- The results of finished walks reach each engine in the order of its requests (R286); the number bounds them. -/
def State.deliverWalks (die : Nat) : Nat → State → State
  | 0, s => s
  | n + 1, s =>
    match (s.die die).ready with
    | none => s
    | some (w, o, q) => State.deliverWalks die n ((s.updDie die (fun d => d.delivered q.seq)).walkDone die w o.1 o.2 q)

/-- PAGE_WALK_COMPLETE (R286): a walk that a walker has taken finishes. -/
def execPageWalkComplete (die idx : Nat) (s : State) : Host.Outcome State Fault Refusal :=
  .next (match (s.die die).walks[idx]? with
  | none => s
  | some w =>
    let deliver (s : State) : State := s.deliverWalks die ((s.die die).walks.map (fun w => w.req.length)).sum
    if w.out.isSome then deliver s
    else if !w.taken then s
    else
      let e := s.walk die w.ctx w.va
      let r := s.walkRead w.ctx e
      deliver (r.1.updDie die (fun d => ({ d with
        twalk := d.twalk + 1
        walks := if w.req.isEmpty then d.walks.eraseIdx idx else d.walks.set idx { w with out := some (e, r.2) } } : Die).runWalkers 8)))

/-- FAULT_EVENT_QUEUE (R288): the event of a suspension enters the die's fault queue, or merges with one that waits
there. -/
def execFaultEventQueue (id num : Nat) (s : State) : Host.Outcome State Fault Refusal :=
  let mine (f : FaultEvent) : Bool := decide (f.eng = id ∧ f.num = num)
  .next (match (s.die (engDie id)).posts.find? mine with
  | none => s
  | some f =>
    let same (g : FaultEvent) : Bool := decide (g.ctx = f.ctx ∧ g.code = f.code ∧ g.fva.toNat / 65536 = f.fva.toNat / 65536)
    let d := s.die (engDie id)
    let left := d.posts.eraseP mine
    let put (s : State) (fs : List FaultEvent) : State :=
      (s.updDie (engDie id) (fun d => { d with faults := fs, posts := left })).updCmd id num (fun c =>
        { c with posted := !left.any mine })
    if d.faults.any same then
      put s (d.faults.map (fun g =>
        if same g then { g with nmrg := if g.nmrg = 0xFFFFFFFF then g.nmrg else g.nmrg + 1, wr := g.wr || f.wr } else g))
    else if d.faults.length < 1024 then
      let n := ((s.ctxs.get? f.ctx).map (fun c => c.waiting.length)).getD 0
      put s (d.faults ++ [{ f with behind := if engDie id = 0 then n else 0 }])
    else s)

/-! ## Storage completions (R242, R381) -/

/-- A storage command that has been sent completes with an NVMe status. -/
def State.nvmEnd (s : State) (id num : Nat) (status : BitVec 15) (data : List Byte) : State :=
  match (s.eng id).cmd num with
  | none => s
  | some c =>
    match c.op, c.slots.head? with
    | .mvNvm d _ _ _ dir, some b =>
      let m : Mover := { id := id, c := c, box := b.box }
      let len := s.nvmLen c
      if c.st ≠ .active ∨ b.ph = false ∨ (nvmPieces c len d).length < b.saved.length ∨ (status = 0 ∧ dir = false ∧ data.length ≠ len) then s
      else
        let ps := nvmPieces c len d
        if status = 0 ∧ dir = false ∧ s.nvmCut b ps = true then
          -- the data wait for a link (R370)
          s.updCmd id num (fun c => { c.putSlot { b with saved := b.saved.take ps.length ++ [(0, data)] } with
            far := some { va := c.reg d, box := b.box, arr := 3, old := false } })
        else
          let s := if dir then s else s.nvmWrite m b ps data (status != 0)
          if status = 0 then s.updCmd id num (fun c => c.boxDone b.box)
          else s.endCmd id num (BitVec.ofNat 32 (0x08 + status.toNat * 2 ^ 13)) 0
    | _, _ => s

/-- NVME_COMPLETION (R242). -/
def execNvmeCompletion (id num : Nat) (status : BitVec 15) (data : List Byte) (s : State) :
    Host.Outcome State Fault Refusal := .next (s.nvmEnd id num status data)

/-! ## Contributions to switches (R373, R374) -/

/-- What a switch makes of an element's value with one contribution, and the flags it raises (R36, R373). -/
def Contribution.apply (x : Contribution) (old : Nat) : Nat × Flags :=
  if x.op = 10 then
    if x.fmt = fI32 then ((old + x.val.toNat) % 2 ^ 32, 0)
    else
      let z := addN .rne (decodeE x.fmt old) (decodeE fFP32 x.val.toNat)
      let r := roundTo x.fmt .rne x.sat z.1
      (r.code, z.2 ||| r.fl)
  else atomOut (if x.fmt = 15 then 1 else if x.fmt = fFP32 then 2 else 0) x.op.toNat old x.val.toNat x.cmp.toNat

/-- Bytes of the element of a contribution. -/
def Contribution.size (x : Contribution) : Nat := if x.fmt = 15 then 8 else elemW x.fmt / 8

/-- The value of the element of a contribution at its home. -/
def State.merged (s : State) (x : Contribution) : Nat := s.mem.num x.pa x.size

/-- CONTRIBUTION_ACCEPT (R255, R271, R274, R374): the switch applies a contribution once, which completes its element and
performs its write: a read at the home returns it from now on, and no line of the engine's die is older. -/
def execContributionAccept (pkg id num elem : Nat) (s : State) : Host.Outcome State Fault Refusal :=
  let hit (x : Contribution) : Bool := decide (x.pkg = pkg ∧ x.eng = id ∧ x.num = num ∧ x.elem = elem) && !x.accepted
  .next (match s.contribs.find? hit with
  | none => s
  | some x =>
    if !s.linked then s
    else
      let old := s.merged x
      let new := x.apply old
      let v := leBytes x.size new.1
      let s := { (s.setMem (s.mem.write x.pa v)).updDie (engDie id) (fun d => d.dropWritten x.pa x.size) with
        contribs := s.contribs.filter (fun y => !hit y) ++ [{ x with accepted := true }] }
      match (s.eng id).cmd num with
      | none => s
      | some c =>
        if c.st.gone then s
        else
          let s := s.updCmd id num (fun c =>
            let c := { c with flags := c.flags ||| x.fl ||| new.2, wrote := recordBytes c.wrote x.va.toNat v }
            match c.slots.find? (fun b => b.box = x.box) with
            | some b => c.passed b
            | none => c)
          match c.op with
          | .mvAtom _ _ t _ ty true =>
            let v : DWord := if ty = 0 then (BitVec.ofNat 32 old).signExtend 64 else BitVec.ofNat 64 old
            s.updEng id (fun e => { e with run := e.run.map (fun (r : Run) =>
              if r.atomW = some (num, t) then { r.put t v with atomW := none } else r) })
          | _ => s)

/-- CONTRIBUTION_RESEND (R374): the copy of a contribution that is not yet acknowledged changes nothing. -/
def execContributionResend (_pkg _id _num _elem : Nat) (s : State) : Host.Outcome State Fault Refusal := .next s

/-- CONTRIBUTION_DELIVER (R275, R374): the merged value of an element has reached its home's memory port, and the commands that
contributed to it may retire. -/
def execContributionDeliver (pa : Nat) (s : State) : Host.Outcome State Fault Refusal :=
  .next { s with contribs := s.contribs.filter (fun y => !(y.accepted && decide (y.pa = pa))) }

/-! ## `xfer` (R161, R162, R181) -/

/-- A run starts on an engine (R181, R223). -/
def State.startRun (s : State) (core : Nat) (q : Queued) (h : TileHdr) (a b d : DWord) (id : Nat) : State :=
  let a0 : DWord := BitVec.ofNat 64 (core + id * 2 ^ 16 + q.cmdNo.toNat * 2 ^ 32)
  let r : Run :=
    { lid := q.lid, core := core, team := q.team, hdr := h
      a := (((Vector.replicate 16 (0 : DWord)).set 0 a0).set 1 b).set 2 d
      n := Vector.replicate 6 0, pc := BitVec.ofNat 64 (par a 0 20), from_ := BitVec.ofNat 20 (par a 0 20), ended := false
      status := 0, semW := .notQueued, atomW := none, last := none, stuck := none }
  (s.unqueue core true).setRun id r

/-- XFER (R161, R181): once its wait is served it starts on the engine it names, or on a free one of the core's near
transfer die. -/
def execXfer (h : TileHdr) (a b d : DWord) (s : State) : Host.Outcome State Fault Refusal :=
  match s.queueEnv true with
  | none => .fault .noAgent
  | some (c, q) =>
    match q.wait with
    | .notQueued => .next (s.queueHead c q true)
    | .queued => .next s
    | .served =>
      let die := nearDie c
      let free := ((List.range 128).map (fun i => die * 128 + i)).filter (fun i => ((s.eng i).run).isNone)
      let id : Option Nat :=
        if par a 20 1 = 1 then (if free.contains (die * 128 + par a 21 7) then some (die * 128 + par a 21 7) else none)
        else free[(Config.freeWord s.tick 0x181).toNat % free.length]?
      .next (match id with
      | some i => s.startRun c q h a b d i
      | none => s)

end Sys2Proof.Machine
end

