-- ==== Sys2Proof/Machine/Context.lean ====
section
/-! DEFINITION. The states of a context (R301), stop and scrub (R313, R314), the end of a session, the sealing of context
traffic (R378, R379), the host window (R323, R324, R332), storage pairs (R380, R381) and host RDMA (R375 to R377, R398). -/

namespace Sys2Proof.Machine

/-! ## Stop and scrub (R313, R314) -/

/-- The queues of a context that leave ACTIVE or HALTED (R322). -/
def State.parkQueues (s : State) (ctx : Nat) : State :=
  { s with queues := s.queues.map (fun (e : Nat × Queue) => if e.2.ctx = ctx then (e.1, { e.2 with st := .bound }) else e) }

/-- The event ring of a context leaves use (R332). -/
def State.closeRing (s : State) (ctx : Nat) : State :=
  let inDies := (s.dies.map (fun d => (d.2.faults ++ d.2.posts).countP (fun f => decide (f.ctx = ctx)))).sum
  let s := { s with dies := s.dies.map (fun (d : Nat × Die) => (d.1, { d.2 with
    faults := d.2.faults.filter (fun f => f.ctx ≠ ctx), posts := d.2.posts.filter (fun f => f.ctx ≠ ctx) })) }
  s.updCtx ctx (fun c =>
    if c.est = 0 then c
    else { c with est := 0, waiting := [], retry := none, elost := c.elost + BitVec.ofNat 32 (c.waiting.length + inDies) })

/-- A launch that is not admitted yet is stopped too (R333): the one a queue has fetched, and the parent of a join that is
ready. Its completion slot is reserved here; a ring without one takes the record once the host has consumed another. -/
def State.stopQueued (s : State) (ctx : Nat) : State :=
  let launch (x : Rec) : Bool := x.bad.isNone && decide (x.form ≠ 5)
  let s := (s.queues.filter (fun q => q.2.ctx = ctx)).foldl (fun (s : State) q =>
    match q.2.fetched with
    | some r =>
      if (s.recs.get? r).any launch then
        (s.updQueue q.1 (fun q => { q with fetched := none, resv := q.resv + 1 })).updRec r (fun x => { x with st := .complete 3 })
      else s
    | none => s) s
  { s with recs := s.recs.map (fun (r : Nat × Rec) =>
      if r.2.ctx = ctx ∧ r.2.joinReady ∧ r.2.lids.isEmpty ∧ r.2.st = .admitted then (r.1, { r.2 with st := .complete 3 }) else r) }

/-- CONTEXT_STOP (R313): the completion records are written, which may halt their queues (R322), before the queues and the
event ring leave use. -/
def State.stopCtx (s : State) (ctx : Nat) : State :=
  let s := s.stopQueued ctx
  let ks := s.kernels.filter (fun k => k.2.ctx = ctx)
  let s := ks.foldl (fun s k => s.stopKernel k.1 .stopped) s
  let s := ks.foldl (fun s k => s.dropTeams k.2 true) s
  let s := { s with
    cores := s.cores.map (fun (c : Nat × Core) => (c.1, { c.2 with gran := c.2.gran.filter (fun g => g.ctx ≠ ctx) }))
    kernels := s.kernels.map (fun (k : Nat × Kernel) => if k.2.ctx = ctx then (k.1, { k.2 with log := [] }) else k) }
  let s := (s.queues.filter (fun q => q.2.ctx = ctx)).foldl (fun (s : State) q =>
    s.drainQueue q.1 (q.2.open_.length + 1)) s
  (s.parkQueues ctx).closeRing ctx

/-- The context session of a context and its RoCE keys and connections are gone (R314, R376). -/
def Ctx.noSession (c : Ctx) : Ctx := { c with session := none, keys := none, conns := [false, false] }

/-- A context leaves CONFIG_LOCKED or RUN for a state, by stop. -/
def State.leaveRun (s : State) (ctx : Nat) (st : CtxSt) : State := (s.stopCtx ctx).updCtx ctx (fun c => { c with st := st })

/-- A context in CONFIG_LOCKED or RUN. -/
def Ctx.isLocked (c : Ctx) : Bool := decide (c.st = .locked) || decide (c.st = .run)

/-- A context goes to ERROR (R301), if it is in CONFIG_LOCKED or RUN. -/
def State.toError (s : State) (ctx : Nat) : State :=
  match s.ctxs.get? ctx with
  | some c => if c.isLocked then s.leaveRun ctx .error else s
  | none => s

/-- SCRUB (R314): a FREE context is one that the table does not hold. -/
def State.scrub (s : State) (ctx : Nat) : State :=
  match s.ctxs.get? ctx with
  | none => s
  | some c =>
    let s := s.stopCtx ctx
    let s := c.grants.foldl (fun s g => s.makeDead g.1 g.2) s
    let left (t : List TlbEntry) : List TlbEntry := t.filter (fun e => e.ctx ≠ ctx)
    { s with
      dies := s.dies.map (fun (d : Nat × Die) => (d.1, { d.2 with
        l1 := d.2.l1.map (fun (e : Nat × List TlbEntry) => (e.1, left e.2)), tlb := left d.2.tlb
        wcache := d.2.wcache.filter (fun p => p.ctx ≠ ctx), walks := d.2.walks.filter (fun w => w.ctx ≠ ctx) }))
      held := s.held.filter (fun x => match x with
        | .write p .. | .window p .. => decide (p.ctx.toNat ≠ ctx)
        | .connect c _ => decide (c ≠ ctx))
      queues := s.queues.filter (fun q => q.2.ctx ≠ ctx)
      recs := s.recs.filter (fun r => r.2.ctx ≠ ctx)
      kernels := s.kernels.filter (fun k => k.2.ctx ≠ ctx)
      sessions := match c.session with | some n => s.sessions.erase n | none => s.sessions
      ctxs := s.ctxs.erase ctx }

/-- A session ends (R301, R376). -/
def State.endSess (s : State) (n : Nat) : State :=
  match s.sessions.get? n with
  | none => s
  | some k =>
    let s := { s with sessions := s.sessions.erase n }
    match k with
    | .tenant ctx => (s.updCtx ctx Ctx.noSession).toError ctx
    | _ => s

/-! ## Sealed packets (R378, R379) -/

/-- What a receiver makes of a packet. -/
inductive Seal where
  /-- Accepted; `dup` is a retransmission of a packet accepted before. -/
  | ok (keys : Keys) (dup : Bool)
  | bad
  deriving DecidableEq, Repr

/-- The check of R379 with the keys that the receiver holds: once a packet of the new phase has verified, no packet of the old
one passes, not even a retransmission. -/
def Keys.check (k : Keys) (p : Sealed) : Seal :=
  if !p.tagOk then .bad
  else if p.phase = k.phase then
    (if k.high < p.seq.toNat then .ok { k with high := p.seq.toNat } false
     else if p.dup then .ok k true else .bad)
  else if k.both && decide (0 < p.seq.toNat) then
    .ok { k with phase := p.phase, both := false, high := p.seq.toNat, answers := [] } false
  else .bad

/-- The key and the salt of a direction (R378). -/
def sealKey (secret : List Byte) : List Byte := Config.hkdfExpand secret [0x6B, 0x65, 0x79] 32
def sealSalt (secret : List Byte) : List Byte := Config.hkdfExpand secret [0x73, 0x61, 0x6C, 0x74] 4

/-- The seal of the device's next packet (R378). -/
def Keys.cover (k : Keys) : SealOut :=
  let header : DWord := BitVec.ofNat 64 (k.sent + 1 + (if k.sendPhase then 2 ^ 63 else 0))
  { key := sealKey k.tx, nonce := sealSalt k.tx ++ leBytes 8 header.toNat, header := header
    aad := Config.transportHeaders k.sent ++ leBytes 8 header.toNat }

/-- A packet on a context connection: `some dup` if it is accepted. A packet on no connection is discarded; an integrity
failure takes the context to ERROR, and a verified sequence number of 2^62 ends the session (R301, R379). -/
def State.unseal (s : State) (p : Sealed) : State × Option Bool :=
  let ctx := p.ctx.toNat
  match s.ctxs.get? ctx with
  | none => (s, none)
  | some c =>
    match c.keys with
    | none => (s, none)
    | some k =>
      if !(c.conns.getD p.port.toNat false) then (s, none)
      else if p.tagOk && decide (2 ^ 62 ≤ p.seq.toNat) then ((c.session.map s.endSess).getD s, none)
      else
        match k.check p with
        | .bad => (s.toError ctx, none)
        | .ok k dup => (s.updCtx ctx (fun c => { c with keys := some k }), some dup)

/-- The answer to a packet of a context connection, under the next seal, which a retransmission of the packet gets again (R378);
a sequence number that would reach 2^62 ends the session instead (R379). With no session left there is no connection to answer
on. -/
def State.answer (s : State) (p : Sealed) (f : SealOut → Out) : State :=
  match s.ctxs.get? p.ctx.toNat with
  | none => s
  | some c =>
    match c.keys with
    | none => s
    | some k =>
      if 2 ^ 62 ≤ k.sent + 1 then (c.session.map s.endSess).getD s
      else
        (s.updCtx p.ctx.toNat (fun c => { c with keys := some { k with
          sent := k.sent + 1, answers := k.answers.set p.seq.toNat (f k.cover) } })).emit (f k.cover)

/-- A remote access error NAK of a packet (R377). -/
def State.nak (s : State) (p : Sealed) : State := s.answer p (.rdmaNak p.ctx p.port)

/-- An acknowledgement of a packet. -/
def State.ack (s : State) (p : Sealed) (bs : List Byte) : State := s.answer p (fun x => .rdmaAck p.ctx p.port x bs)

/-- A retransmission of a packet: the device's answer is sent again byte for byte, once it has been given (R378, R396). -/
def State.resend (s : State) (p : Sealed) : State :=
  match ((s.ctxs.get? p.ctx.toNat).bind (·.keys)).bind (fun k => k.answers.get? p.seq.toNat) with
  | some o => s.emit o
  | none => s

/-! ## Host window (R323, R324, R332, R380) -/

/-- A host write of the connection of a packet waits for a link. -/
def State.holds (s : State) (p : Sealed) : Bool :=
  s.held.any (fun x => match x with
    | .write q .. | .window q .. => decide (q.ctx = p.ctx ∧ q.port = p.port)
    | .connect .. => false)

/-- A host write to the window of its context: only of one in CONFIG_LOCKED or RUN (R377); `f` answers `none` where the
access is refused. -/
def State.windowNow (s : State) (p : Sealed) (f : State → Option State) : State :=
  if !((s.ctxs.get? p.ctx.toNat).any Ctx.isLocked) then s.nak p
  else
    match f s with
    | none => s.nak p
    | some t => t.ack p []

/-- A host write to the window as its packet arrives. A retransmission has no further effect. A write of a tail pointer, `tail`
with its offset and words, covers every write that the host posted before it on the connection, and so waits behind one that
waits (R279). -/
def State.windowStore (s : State) (p : Sealed) (tail : Option (Nat × List Word)) (f : State → Option State) : State :=
  match s.unseal p with
  | (s, none) => s
  | (s, some true) => s.resend p
  | (s, some false) =>
    match tail with
    | some (off, ws) => if s.holds p then { s with held := s.held ++ [.window p off ws] } else s.windowNow p f
    | none => s.windowNow p f

/-- The queue of a context (R323). -/
def State.queueOf (s : State) (ctx qid : Nat) : Option Queue :=
  (s.queues.get? qid).bind (fun q => if q.ctx = ctx then some q else none)

/-- A bad pointer write (R331). -/
def State.badPointer (s : State) (ctx qid : Nat) (chead : Bool) (v : Word) : State :=
  s.postEvent ctx (eventBytes (0x21 + ctx * 2 ^ 8 + qid * 2 ^ 16 + (if chead then 2 ^ 32 else 0) + v.toNat * 2 ^ 64))

/-- A write of tail (R324). -/
def State.putTail (s : State) (ctx qid : Nat) (v : Word) : Option State :=
  (s.queueOf ctx qid).map (fun q =>
    if (v - q.head).toNat ≤ 2 ^ q.b.lsz.toNat ∧ (v - q.tail).toNat ≤ (v - q.head).toNat then
      s.updQueue qid (fun q => { q with tail := v })
    else s.badPointer ctx qid false v)

/-- A write of chead (R324). -/
def State.putChead (s : State) (ctx qid : Nat) (v : Word) : Option State :=
  (s.queueOf ctx qid).map (fun q =>
    if (v - q.chead).toNat ≤ (q.ctail - q.chead).toNat then s.updQueue qid (fun q => { q with chead := v })
    else s.badPointer ctx qid true v)

/-- A write of 1 to restart (R322). -/
def State.putRestart (s : State) (ctx qid : Nat) : Option State :=
  (s.queueOf ctx qid).map (fun q =>
    if q.st = .halted ∧ (s.ctxs.get? ctx).any (fun c => decide (c.st = .run)) then
      s.updQueue qid (fun q => { q with st := .active })
    else s)

/-- A write of ehead (R332). -/
def State.putEhead (s : State) (ctx : Nat) (v : Word) : State :=
  s.updCtx ctx (fun c =>
    if (v - c.ehead).toNat ≤ (c.etail - c.ehead).toNat then
      { c with ehead := v, est := if c.est = 2 ∧ (c.etail - v).toNat < c.ringSize then 1 else c.est }
    else c)

/-- A write of 1 to erestart: the write that halted the ring is made again (R332). -/
def State.putErestart (s : State) (ctx : Nat) : State :=
  match s.ctxs.get? ctx with
  | some c => if c.est = 3 then (s.updCtx ctx (fun c => { c with est := 1 })).postRing ctx else s
  | none => s

/-! ## Storage pairs (R380, R381) -/

/-- A storage pair that has never been configured. -/
def Pair.init : Pair where
  sst := 0
  nst := 0
  cntlid := 0
  taddr := Vector.replicate 4 0
  tport := 0
  port := false
  nsid := 0
  cdva := 0
  qsz := 0
  lbs := 0
  disc := false

/-- A storage pair of a context, in the state it has (R381). -/
def State.pair (s : State) (ctx h : Nat) : Pair :=
  let p := ((s.ctxs.get? ctx).bind (fun c => c.pairs.get? h)).getD Pair.init
  if s.pairSt ctx h = 0 then { p with sst := 0, disc := false } else p

def State.setPair (s : State) (ctx h : Nat) (p : Pair) : State := s.updCtx ctx (fun c => { c with pairs := c.pairs.set h p })

/-- The transfer die of an Ethernet port (R14). -/
def portDie (port : Bool) : Nat := if port then 2 else 0

/-- conn written (R381): the Connect data is read, and the connection to the target begins. -/
def State.connectPair (s : State) (ctx h : Nat) : State :=
  let p := s.pair ctx h
  if p.sst = 0 ∨ p.sst = 3 then
    if s.farAway (portDie p.port) ctx p.cdva.toNat 1024 false then
      { s.setPair ctx h { p with sst := 1 } with held := s.held ++ [.connect ctx h] }
    else match s.readVirt (portDie p.port) ctx p.cdva.toNat 1024 with
    | (s, .ok _) => (s.setPair ctx h { p with sst := 1 }).emit (.nvmConnect ctx h)
    | (s, _) => s.setPair ctx h { p with sst := 3, nst := (Config.freeWord s.tick 0x381).truncate 16 }
  else s

/-- disc written (R381). -/
def State.disconnectPair (s : State) (ctx h : Nat) : State :=
  let p := s.pair ctx h
  if s.pairBusy ctx h then s.setPair ctx h { p with disc := true } else s.setPair ctx h { p with sst := 0, disc := false }

/-- The configuration fields of a pair that begin at an offset, written in IDLE or FAILED (R4, R380); `ws` are the words of
the access from there on. A field of several words takes effect only where the access holds the whole of it (R323). -/
def Pair.put (p : Pair) (off : Nat) (ws : List Word) : Pair :=
  if p.sst = 1 ∨ p.sst = 2 then p
  else
    match off, ws with
    | 0x08, a :: b :: c :: d :: _ => { p with taddr := #v[a, b, c, d] }
    | 0x18, v :: _ => { p with tport := v.truncate 16, port := v.getLsbD 16 }
    | 0x1C, v :: _ => { p with nsid := v }
    | 0x20, lo :: hi :: _ => { p with cdva := (hi.truncate 20 : BitVec 20) ++ lo }
    | 0x28, v :: _ => { p with qsz := v.truncate 16, lbs := (v >>> 16).truncate 16 }
    | _, _ => p

/-- Configuration fields of a context's pair written. -/
def State.putPair (s : State) (ctx h off : Nat) (ws : List Word) : State := s.setPair ctx h ((s.pair ctx h).put off ws)

/-- A word of a pair as the host reads it. -/
def Pair.word (p : Pair) (off : Nat) : Word :=
  match off with
  | 0x00 => p.sst.zeroExtend 32 <<< 4
  | 0x04 => p.cntlid ++ p.nst
  | 0x08 => p.taddr[0]
  | 0x0C => p.taddr[1]
  | 0x10 => p.taddr[2]
  | 0x14 => p.taddr[3]
  | 0x18 => p.tport.zeroExtend 32 ||| (if p.port then 0x10000 else 0)
  | 0x1C => p.nsid
  | 0x20 => p.cdva.truncate 32
  | 0x24 => (p.cdva >>> 32).truncate 32
  | 0x28 => p.lbs ++ p.qsz
  | _ => 0

/-! ## The window as a whole -/

/-- A word `v` written at an offset of the window, by an access that goes on with the words `vs`; `none` where no register of
the context answers. -/
def State.windowPut (s : State) (ctx off : Nat) (v : Word) (vs : List Word) : Option State :=
  if off < 0x40000 then
    match off % 64 with
    | 0x00 => s.putTail ctx (off / 64) v
    | 0x08 => s.putChead ctx (off / 64) v
    | 0x14 => if v.getLsbD 0 then s.putRestart ctx (off / 64) else (s.queueOf ctx (off / 64)).map (fun _ => s)
    | _ => (s.queueOf ctx (off / 64)).map (fun _ => s)
  else if off < 0x40400 then
    let h := (off - 0x40000) / 64
    match off % 64 with
    | 0x00 =>
      let s := if v.getLsbD 0 then s.connectPair ctx h else s
      some (if v.getLsbD 1 then s.disconnectPair ctx h else s)
    | o => some (s.putPair ctx h o (v :: vs))
  else
    match off - 0x40400 with
    | 0x00 => some (s.putEhead ctx v)
    | 0x0C => some (s.updCtx ctx (fun c => { c with elost := v }))
    | 0x10 => some (if v.getLsbD 0 then s.putErestart ctx else s)
    | _ => if off < 0x40440 then some s else none

/-- The words written by one access, in rising order. -/
def windowPuts (ctx : Nat) : Nat → List Word → State → Option State
  | _, [], s => some s
  | off, v :: vs, s => (s.windowPut ctx off v vs).bind (windowPuts ctx (off + 4) vs)

/-- The code of a queue's state (R323). -/
def QSt.code : QSt → Word
  | .bound => 1
  | .active => 2
  | .halted => 3

/-- A word of a queue as the host reads it (R323). -/
def Queue.word (q : Queue) (off : Nat) : Word :=
  match off with
  | 0x00 => q.tail
  | 0x04 => q.head
  | 0x08 => q.chead
  | 0x0C => q.ctail
  | 0x10 => q.st.code ||| ((q.hc.zeroExtend 32 : Word) <<< 2)
  | _ => 0

/-- A word of the window as the host reads it. -/
def State.windowGet (s : State) (ctx off : Nat) : Option Word :=
  if off < 0x40000 then
    (s.queueOf ctx (off / 64)).map (fun q => q.word (off % 64))
  else if off < 0x40400 then some ((s.pair ctx ((off - 0x40000) / 64)).word (off % 64))
  else
    (s.ctxs.get? ctx).bind (fun c =>
      match off - 0x40400 with
      | 0x00 => some c.ehead
      | 0x04 => some c.etail
      | 0x08 => some (c.est.zeroExtend 32)
      | 0x0C => some c.elost
      | _ => if off < 0x40440 then some 0 else none)

/-- Words of the window from an offset. -/
def State.windowGets (s : State) (ctx : Nat) : Nat → Nat → Option (List Byte)
  | _, 0 => some []
  | off, n + 1 => (s.windowGet ctx off).bind (fun w => (State.windowGets s ctx (off + 4) n).map (leBytes 4 w.toNat ++ ·))

/-- TAIL_WRITE (R324). -/
def execTailWrite (p : Sealed) (qid : BitVec 12) (v : Word) (s : State) : Host.Outcome State Fault Refusal :=
  .next (s.windowStore p (some (qid.toNat * 64, [v])) (fun s => s.putTail p.ctx.toNat qid.toNat v))

/-- CHEAD_WRITE (R324). -/
def execCheadWrite (p : Sealed) (qid : BitVec 12) (v : Word) (s : State) : Host.Outcome State Fault Refusal :=
  .next (s.windowStore p none (fun s => s.putChead p.ctx.toNat qid.toNat v))

/-- QUEUE_RESTART (R322). -/
def execQueueRestart (p : Sealed) (qid : BitVec 12) (s : State) : Host.Outcome State Fault Refusal :=
  .next (s.windowStore p none (fun s => s.putRestart p.ctx.toNat qid.toNat))

/-- EHEAD_WRITE (R332). -/
def execEheadWrite (p : Sealed) (v : Word) (s : State) : Host.Outcome State Fault Refusal :=
  .next (s.windowStore p none (fun s => some (s.putEhead p.ctx.toNat v)))

/-- ERESTART (R332). -/
def execErestart (p : Sealed) (s : State) : Host.Outcome State Fault Refusal :=
  .next (s.windowStore p none (fun s => some (s.putErestart p.ctx.toNat)))

/-- STORAGE_CONNECT (R381). -/
def execStorageConnect (p : Sealed) (h : BitVec 4) (s : State) : Host.Outcome State Fault Refusal :=
  .next (s.windowStore p none (fun s => some (s.connectPair p.ctx.toNat h.toNat)))

/-- STORAGE_DISCONNECT (R381). -/
def execStorageDisconnect (p : Sealed) (h : BitVec 4) (s : State) : Host.Outcome State Fault Refusal :=
  .next (s.windowStore p none (fun s => some (s.disconnectPair p.ctx.toNat h.toNat)))

/-- STORAGE_CONNECT_COMPLETE (R381): the Fabrics Connect of a pair ends. -/
def execStorageConnectComplete (ctx : BitVec 6) (h : BitVec 4) (ok : Bool) (nst cntlid : BitVec 16) (s : State) :
    Host.Outcome State Fault Refusal :=
  .next (
    let p := s.pair ctx.toNat h.toNat
    if p.sst ≠ 1 then s
    else if ok then s.setPair ctx.toNat h.toNat { p with sst := 2, nst := nst, cntlid := cntlid }
    else s.setPair ctx.toNat h.toNat { p with sst := 3, nst := nst })

/-- The commands of a context that use a pair and have not retired. -/
def State.pairCmds (s : State) (ctx h : Nat) : List (Nat × Nat) :=
  s.dies.flatMap (fun d => d.2.engines.flatMap (fun e => e.2.cmds.filterMap (fun c =>
    if !c.st.gone && decide (s.lidCtx c.lid = ctx) && (match c.op with | .mvNvm _ _ _ qp _ => decide (qp.toNat = h) | _ => false)
    then some (e.1, c.num) else none)))

/-- STORAGE_PAIR_FAILURE (R381): the commands in flight end with status 0x08 and the NVMe status 0x0370. -/
def execStoragePairFailure (ctx : BitVec 6) (h : BitVec 4) (s : State) : Host.Outcome State Fault Refusal :=
  .next (
    let p := s.pair ctx.toNat h.toNat
    if p.sst ≠ 2 then s
    else
      let cmds := s.pairCmds ctx.toNat h.toNat
      let s := s.setPair ctx.toNat h.toNat { p with sst := 3, nst := 0x0370 }
      cmds.foldl (fun s c => s.endCmd c.1 c.2 (BitVec.ofNat 32 (0x08 + 0x0370 * 2 ^ 13)) 0) s)

/-! ## RDMA (R375 to R377, R398) -/

/-- An ECC word that a write of `n` bytes covers only in part, and that an uncorrectable error holds, is met (R257); one of
another package is counted there. -/
def State.edgeError (s : State) (ctx : Nat) (ps : List (Nat × Nat)) : State × Option Nat :=
  ps.foldl (fun (r : State × Option Nat) p =>
    match r.2 with
    | some _ => r
    | none =>
      let a := p.1
      let b := p.1 + p.2
      let check (s : State) (w : Nat) : State × Option Nat :=
        if s.isOwn p.1 then s.readCheck (some ctx) w 32 else (s, s.poison.find? (wordMeets w 32))
      let lo := if a % 32 = 0 then (r.1, none) else check r.1 (a / 32 * 32)
      match lo.2 with
      | some l => (lo.1, some l)
      | none => if b % 32 = 0 then lo else check lo.1 (b / 32 * 32)) (s, none)

/-- The physical pieces that an RDMA access with an R_Key reaches (R377, R398); `none` where it is refused. -/
def State.rdmaPieces (s : State) (p : Sealed) (key : Word) (va n : Nat) (rd wr : Bool) : State × Option (List (Nat × Nat)) :=
  let ctx := p.ctx.toNat
  match s.ctxs.get? ctx with
  | none => (s, none)
  | some c =>
    if key = 2 then
      if !c.isLocked then (s, none)
      else
        match s.transAll (portDie p.port) ctx va n rd wr with
        | (s, .ok ps) => (s, some ps)
        | (s, .error _) => (s, none)
    else if key = 3 then
      if (c.isLocked || decide (c.st = .unlocked)) && decide (va < 2 ^ 48) && s.inGrants ctx va (va + n) then
        (s, some (byGranule va n))
      else (s, none)
    else (s, none)

/-- A host write performed whole at its homes, or refused with nothing written (R377, R394). -/
def State.hostWrite (s : State) (p : Sealed) (ps : List (Nat × Nat)) (data : List Byte) : State :=
  match s.edgeError p.ctx.toNat ps with
  | (s, some _) => s.nak p
  | (s, none) => (s.putPieces ps data).ack p []

/-- A write of words from an offset of the window holds a tail pointer. -/
def holdsTail (off n : Nat) : Bool := (List.range n).any (fun i => decide (off + 4 * i < 0x40000) && decide ((off + 4 * i) % 64 = 0))

/-- An RDMA WRITE (R370, R377, R394, R396, R398): performed, refused, or kept until a link reaches the package it goes to. A
retransmission is answered as its first copy was, and not performed again. -/
def State.rdmaWrite (s : State) (p : Sealed) (key : Word) (va : Nat) (data : List Byte) : State :=
  if key = 1 then
    let ws := (leSplit 4 (data.length / 4) data).map (BitVec.ofNat 32)
    let whole : Bool := decide (va % 4 = 0 ∧ data.length % 4 = 0)
    s.windowStore p (if whole && holdsTail va ws.length then some (va, ws) else none) (fun s =>
      if whole then windowPuts p.ctx.toNat va ws s
      else (s.windowGet p.ctx.toNat (va / 4 * 4)).map (fun _ => s))
  else
    match s.unseal p with
    | (s, none) => s
    | (s, some true) => s.resend p
    | (s, some false) =>
      match s.rdmaPieces p key va data.length false true with
      | (s, none) => s.nak p
      | (s, some ps) =>
        if ps.any (fun x => !s.isOwn x.1) && !s.linked then { s with held := s.held ++ [.write p va ps data] }
        else s.hostWrite p ps data

/-- The host accesses that waited for a link go on (R370); those of a context that has gone are dropped. -/
def State.release (s : State) : State :=
  if !s.linked || s.held.isEmpty then s
  else
    s.held.foldl (fun (s : State) x =>
      match x with
      | .write p _ ps data => if (s.ctxs.get? p.ctx.toNat).isSome then s.hostWrite p ps data else s
      | .window p off ws => s.windowNow p (windowPuts p.ctx.toNat off ws)
      | .connect ctx h =>
        if (s.pair ctx h).sst = 1 then (s.setPair ctx h { s.pair ctx h with sst := 0 }).connectPair ctx h else s)
      { s with held := [] }

/-- The bytes of physical pieces, or `none` where a read meets an uncorrectable error or cannot be served (R296, R370, R377).
Another package's memory is read at its home. -/
def State.readPieces (s : State) (ctx : Nat) (ps : List (Nat × Nat)) : State × Option (List Byte) :=
  ps.foldl (fun (r : State × Option (List Byte)) p =>
    match r.2 with
    | none => r
    | some bs =>
      if r.1.isOwn p.1 then
        match r.1.readHome (some ctx) p.1 p.2 with
        | (s, new, none) => (s, some (bs ++ new))
        | (s, _, some _) => (s, none)
      else if r.1.linked && !r.1.poison.any (wordMeets p.1 p.2) then (r.1, some (bs ++ r.1.mem.read p.1 p.2))
      else (r.1, none)) (s, some [])

/-- An RDMA READ (R377, R398). -/
def State.rdmaRead (s : State) (p : Sealed) (key : Word) (va n : Nat) : State :=
  match s.unseal p with
  | (s, none) => s
  | (s, some true) => s.resend p
  | (s, some false) =>
    if key = 1 then
      if !((s.ctxs.get? p.ctx.toNat).any Ctx.isLocked) then s.nak p
      else
        match s.windowGets p.ctx.toNat (va / 4 * 4) ((va % 4 + n + 3) / 4) with
        | some bs => s.ack p ((bs.drop (va % 4)).take n)
        | none => s.nak p
    else
      match s.rdmaPieces p key va n true false with
      | (s, none) => s.nak p
      | (s, some ps) =>
        match s.readPieces p.ctx.toNat ps with
        | (s, some bs) => s.ack p bs
        | (s, none) => s.nak p

/-- RDMA_WRITE_VIRTUAL (R377), with any R_Key. -/
def execRdmaWriteVirtual (p : Sealed) (key : Word) (va : DWord) (data : List Byte) (s : State) :
    Host.Outcome State Fault Refusal := .next (s.rdmaWrite p key va.toNat data)

/-- RDMA_READ_VIRTUAL (R377), with any R_Key. -/
def execRdmaReadVirtual (p : Sealed) (key : Word) (va : DWord) (n : Nat) (s : State) :
    Host.Outcome State Fault Refusal := .next (s.rdmaRead p key va.toNat n)

/-- RDMA_WRITE_PHYSICAL (R398). -/
def execRdmaWritePhysical (p : Sealed) (pa : DWord) (data : List Byte) (s : State) : Host.Outcome State Fault Refusal :=
  .next (s.rdmaWrite p 3 pa.toNat data)

/-- RDMA_READ_PHYSICAL (R398). -/
def execRdmaReadPhysical (p : Sealed) (pa : DWord) (n : Nat) (s : State) : Host.Outcome State Fault Refusal :=
  .next (s.rdmaRead p 3 pa.toNat n)

/-- INVALID_REQUEST (R375): of a management connection of a port, or in a packet of a context connection, which is sealed. -/
def execInvalidRequest (conn : ConnPacket) (s : State) : Host.Outcome State Fault Refusal :=
  .next (if s.dev = .off then s
  else
    match conn with
    | .management port => s.emit (.invalidNak port)
    | .context p =>
      match s.unseal p with
      | (s, none) => s
      | (s, some true) => s.resend p
      | (s, some false) => s.answer p (.sealedNak p.ctx p.port))

/-! ## Connections (R376) -/

/-- MANAGEMENT_CONNECTION_REQUEST (R376): at most 64 on a port. -/
def execManagementConnectionRequest (port : Bool) (priv0 : Byte) (s : State) : Host.Outcome State Fault Refusal :=
  .next (if s.dev = .off then s
  else if priv0 = 0 ∧ s.mgmtConns.countP (fun c => c.2 == port) < 64 then
    { s.emit (.accepted port s.nextConn) with mgmtConns := s.mgmtConns.set s.nextConn port, nextConn := s.nextConn + 1 }
  else s.emit (.refused port))

/-- CONTEXT_CONNECTION_REQUEST (R376): while the context has a session, one on each port. -/
def execContextConnectionRequest (port : Bool) (priv0 : Byte) (ctx : BitVec 8) (s : State) :
    Host.Outcome State Fault Refusal :=
  .next (if s.dev = .off then s
  else
    match s.ctxs.get? ctx.toNat with
    | some c =>
      if priv0 = 1 ∧ c.session.isSome ∧ c.conns.getD port.toNat false = false then
        (s.emit (.accepted port ctx.toNat)).updCtx ctx.toNat (fun c => { c with conns := c.conns.set port.toNat true })
      else s.emit (.refused port)
    | none => s.emit (.refused port))

end Sys2Proof.Machine
end

