-- ==== Sys2Proof/Machine/Control.lean ====
section
/-! DEFINITION. Loops (R95 to R99), traps and returns from them (R100 to R105), the end of a strand (R107) and the
full/empty words (R91 to R93). -/

namespace Sys2Proof.Machine

/-- A loop fault (R99). -/
def loopFault (e : Env) (s : State) (sub : Nat) : WordEnd := .trap 13 false (BitVec.ofNat 32 sub) e.st s

/-- `loop_begin` of R96. -/
def loopBegin (e : Env) (s : State) (count : Nat) (off : BitVec 11) (rot : Bool) : WordEnd :=
  let a := e.st.pc
  let t := a + (off.zeroExtend 32 <<< 2)
  if count = 0 then
    let skip := t + 4
    if 0x800000 ≤ skip.toNat ∧ skip.toNat < 0x840000 then .jump e.st s skip else .trap 9 false skip e.st s
  else if 65535 < count then loopFault e s 4
  else if e.st.loops.length = 6 then loopFault e s 1
  else if (match e.st.loops with | [] => false | l :: _ => (a + 4).ult l.start || l.stop.ult t) then loopFault e s 3
  else
    .done { e.st with loops :=
      { start := a + 4, stop := t, count := BitVec.ofNat 16 count, index := 0, rot := rot } :: e.st.loops } s

/-- LP_BEGIN (R95, R96). -/
def execLpBegin (x : XReg) (off : BitVec 11) (s : State) : Host.Outcome State Fault Refusal :=
  strandWord s [x] [] (fun e => loopBegin e s (e.st.getX x).toNat off false)

/-- LP_BEGIN_ROT (R95, R96). -/
def execLpBeginRot (x : XReg) (off : BitVec 11) (s : State) : Host.Outcome State Fault Refusal :=
  strandWord s [x] [] (fun e => loopBegin e s (e.st.getX x).toNat off true)

/-- LP_BEGINI (R95, R96). -/
def execLpBegini (n : BitVec 10) (off : BitVec 11) (s : State) : Host.Outcome State Fault Refusal :=
  strandWord s [] [] (fun e => loopBegin e s n.toNat off false)

/-- LP_BEGINI_ROT (R95, R96). -/
def execLpBeginiRot (n : BitVec 10) (off : BitVec 11) (s : State) : Host.Outcome State Fault Refusal :=
  strandWord s [] [] (fun e => loopBegin e s n.toNat off true)

/-- LP_EXIT (R98): the last iteration ends here. -/
def execLpExit (s : State) : Host.Outcome State Fault Refusal :=
  strandWord s [] [] (fun e =>
    match e.st.loops with
    | [] => loopFault e s 2
    | l :: ls =>
      let st := ({ e.st with loops := { l with index := l.count - 1 } :: ls } : Strand).loopEnd l.stop
      .ended (s.setStrand e.key (s.boundary e.core st true)))

/-- LP_POP (R98). -/
def execLpPop (s : State) : Host.Outcome State Fault Refusal :=
  strandWord s [] [] (fun e =>
    match e.st.loops with
    | [] => loopFault e s 2
    | _ :: ls => .done { e.st with loops := ls } s)

/-- LP_IDX (R98). -/
def execLpIdx (d : XReg) (lvl : BitVec 5) (s : State) : Host.Outcome State Fault Refusal :=
  strandWord s [] [d] (fun e =>
    match e.st.loops[lvl.toNat]? with
    | none => loopFault e s 2
    | some l => .done (e.st.setX d (l.index.zeroExtend 32)) s)

/-- TRAP (R105). -/
def execTrap (code : BitVec 5) (s : State) : Host.Outcome State Fault Refusal :=
  strandWord s [] [] (fun e => .trap 2 true (code.zeroExtend 32) e.st s)

/-- TRET (R104). -/
def execTret (s : State) : Host.Outcome State Fault Refusal :=
  strandWord s [] [] (fun e =>
    if e.st.hflag then
      let ev := e.st.kdone && ({ e.st with loops := e.st.saved } : Strand).atEnd e.st.kepc
      .ended (s.setStrand e.key (s.boundary e.core e.st.trapReturn ev))
    else .trap 14 false 0 e.st s)

/-- What the end of a strand changes in the strand (R107). -/
def Strand.finish (st : Strand) : Strand :=
  { st with st := .ended, wait := none, pend := [], loops := [], saved := [], hflag := false }

/-- SDONE (R107): the strand ends, leaves its groups (R358), its team's slots go VACANT with its last strand (R83), and its
kernel may trigger, drain, retire or wait (R333). -/
def execSdone (s : State) : Host.Outcome State Fault Refusal :=
  strandWord s [] [] (fun e =>
    .ended ((((s.setStrand e.key e.st.finish).updKernel e.tm.lid (fun k => k.leaveAll e.st.num)).settlePark
      e.tk e.core).vacate.settleKernels.settleWaiting e.tm.lid))

/-- FE_WAIT (R93): an empty register stalls it whatever `femode` says, since it does not read the value (log 22). -/
def execFeWait (x : XReg) (s : State) : Host.Outcome State Fault Refusal :=
  strandWord s [] [x] (fun e => .done e.st s)

/-- FE_CHK (R93). With one register as both operands, and that register empty, the word stalls as every word that writes an
empty register does (R91): DESIGN CHOICE, log 42. -/
def execFeChk (d x : XReg) (s : State) : Host.Outcome State Fault Refusal :=
  strandWord s [] [d] (fun e => .done (e.st.setX d (if e.st.isEmpty x then 0 else 1)) s)

/-- ASYNC_RESULT_ARRIVE (R91): the pending result of a register is written and the register is full. -/
def execAsyncResultArrive (key : Nat) (r : XReg) (s : State) : Host.Outcome State Fault Refusal :=
  .next (s.updStrand key (fun st => if st.st = .ended then { st with pend := [] } else st.deliver r))

end Sys2Proof.Machine
end

