-- ==== Sys2Proof/Machine/Registers.lean ====
section
/-! DEFINITION. The register actions of loads and stores as steps of their own (R139, R142, R149, R380): what `lw` and `sw`
do through `State.regRead` and `State.regWrite`. -/

namespace Sys2Proof.Machine

/-- The active team of a core, with its key. -/
def State.activeTeam (s : State) (core : Nat) : Option (Nat × Team) :=
  (s.core core).active.bind (fun tk => (s.teams.get? tk).map (fun t => (tk, t)))

/-- COUNTER_LOW_WORD_READ (R139): the high word of a 64-bit counter is latched for the strand. -/
def execCounterLowWordRead (key : Nat) (off : BitVec 12) (s : State) : Host.Outcome State Fault Refusal :=
  .next (
    let core := s.teamCore (strandTeam key)
    match s.strands.get? key, s.activeTeam core with
    | some st, some (tk, tm) =>
      if counterLow.contains off.toNat ∧ tk = strandTeam key then s.setStrand key (s.regRead core tm st off.toNat).1 else s
    | _, _ => s)

/-- REGION_FIELD_WRITE (R142): one attempt; while dispatched work on the region has not completed, only its forces have
happened. -/
def execRegionFieldWrite (core : BitVec 9) (off : BitVec 12) (v : Word) (s : State) : Host.Outcome State Fault Refusal :=
  .next (match s.activeTeam core.toNat with
  | some (tk, _) =>
    if isRegionField off.toNat then
      (s.regionFieldWrite core.toNat tk (s.core core.toNat).nextSeq (outerDemander 0 core.toNat) off.toNat v).1
    else s
  | none => s)

/-- WINDROW_ENABLE (R149): enabling a windrow that is not enabled zeroes head and arrived. -/
def execWindrowEnable (core : BitVec 9) (w : BitVec 3) (s : State) : Host.Outcome State Fault Refusal :=
  .next (s.updCore core.toNat (fun k =>
    let x := k.windrows[w.toNat]'w.isLt
    { k with windrows := k.windrows.set w.toNat (x.put 0 (x.word 0 ||| 1)) w.isLt }))

/-- REGISTER_WRITE (R4, R139, R380): a core register by its active team, or a word of a storage pair by the host. -/
def execRegisterWrite (t : RegTarget) (v : Word) (s : State) : Host.Outcome State Fault Refusal :=
  .next (match t with
  | .core c off =>
    (match s.activeTeam c.toNat with
    | some (tk, _) =>
      if regMapped off.toNat && off.toNat % 4 == 0 then
        (s.regWrite c.toNat tk (s.core c.toNat).nextSeq (outerDemander 0 c.toNat) off.toNat v).1
      else s
    | none => s)
  | .pair p h off => s.windowStore p none (fun s => s.windowPut p.ctx.toNat (0x40000 + 64 * h.toNat + off.toNat) v []))

end Sys2Proof.Machine
end

