-- ==== Sys2Proof/Machine/Manage.lean ====
section
/-! DEFINITION. Management requests of a context and of the device (R299 to R314, R253, R287, R289, R290, R297, R298,
R321, R371): the checks in the order of R310, then the operation. -/

namespace Sys2Proof.Machine

/-! ## Requests (R302, R307 to R310, R386, R389) -/

/-- What an operation answers: a result code, a payload, and the state it leaves. -/
structure Reply where
  res   : BitVec 8
  bytes : List Byte
  s     : State

/-- The operation is done. -/
def State.did (s : State) (bs : List Byte := []) : Reply := { res := 0, bytes := bs, s := s }
/-- The operation is refused with a result code and changes nothing. -/
def State.deny (s : State) (r : BitVec 8) : Reply := { res := r, bytes := [], s := s }

/-- Who may make a request (R311). -/
inductive Who where
  | admin
  | tenant
  | either
  deriving DecidableEq, Repr

/-- A session may make a request about a context. -/
def Who.allows (w : Who) (k : SessKind) (ctx : Nat) : Bool :=
  match w, k with
  | .admin, .admin | .either, .admin => true
  | .tenant, .tenant c | .either, .tenant c => decide (c = ctx)
  | _, _ => false

/-- The header of a management request. -/
def headerOf (i : Instr) : Option Mgmt :=
  match i with
  | .create m _ _ | .grant m _ _ | .release m _ _ | .writeConfig m _ _ | .readConfig m _ _ | .bindQueue m _
  | .unbindQueue m _ | .lock m | .getReport m _ | .start m | .stop m | .teardown m | .resumeOne m _ _ | .resumeRange m _ _
  | .failCommand m _ _ | .readSuspension m _ _ | .invalidate m _ _ _ | .setPackage m _ | .countersRead m _ _
  | .countersWrite m _ _ _ | .errorLogRead m _ _ | .errorLogClear m _ _ | .errorLogPop m _ _ | .inject m _ _ _ _ _
  | .loadImage m _ _ | .activate m _ _ | .startDeviceCold m | .startDeviceWarm m | .retrainLink m _ | .spare m _ _
  | .retireCore m _ | .fenceIn m _ | .fenceOut m _ => some m
  | _ => none

/-- The first word of a request and of its response (R308). -/
def headWord (m : Mgmt) : Nat := m.op.toNat + m.ctx.toNat * 2 ^ 8 + m.tag.toNat * 2 ^ 16

/-- A request as its bytes, with a payload (R308). -/
def requestBytes (m : Mgmt) (payload : List Byte) : List Byte := leBytes 4 (headWord m) ++ leBytes 4 m.len.toNat ++ payload

/-- The header of a request as a session receives it (R308); reserved bits are ignored (R4). -/
def mgmtOf (sess : Nat) (sound : Bool) (bs : List Byte) : Option Mgmt :=
  if bs.length < 8 then none
  else
    let n := leNat (bs.take 8)
    some { sess := sess, op := BitVec.ofNat 8 n, ctx := BitVec.ofNat 6 (n / 2 ^ 8), tag := BitVec.ofNat 16 (n / 2 ^ 16)
           len := BitVec.ofNat 32 (n / 2 ^ 32), sound := sound }

/-- A response to a request as its bytes: its first word as received, the result, the length and the payload (R308). -/
def answerBytes (m : Mgmt) (res : BitVec 8) (payload : List Byte) : List Byte :=
  leBytes 4 (headWord m) ++ leBytes 4 res.toNat ++ leBytes 4 payload.length ++ payload

/-- A response (R308). -/
def respond (m : Mgmt) (r : Reply) : State := r.s.emit (.resp m.sess (answerBytes m r.res (if r.res = 0 then r.bytes else [])))

/-- A die whose firmware is being changed: requests that reach it wait (R389). -/
def State.dieBusy (s : State) (die : Nat) : Bool := s.activating.any (fun a => a.2.any (fun ds => ds.contains die))

/-- The request that acts waits: it joins the requests that wait, behind those that arrived before it (R302, R389). -/
def State.later (s : State) : State :=
  match s.cur with
  | .event i => { s with requests := s.requests ++ [i] }
  | _ => s

/-- The state in which the request that acts waits no longer. -/
def State.taken (s : State) : State :=
  match s.cur with
  | .waiting i => { s with requests := s.requests.erase i }
  | _ => s

/-- The requests that wait and arrived before the one that acts. -/
def State.requestsBefore (s : State) : List Instr :=
  match s.cur with
  | .waiting i => s.requests.takeWhile (fun x => decide (x ≠ i))
  | _ => s.requests

/-- A request names a context; the device-wide operations ignore theirs (R308, R311). -/
def namesCtx (m : Mgmt) (ctx : BitVec 6) : Bool := decide (m.op.toNat < 0x20) && decide (m.ctx = ctx)

/-- A request that names the same context arrived earlier and has not been taken (R302). -/
def State.behind (s : State) (m : Mgmt) : Bool :=
  s.requestsBefore.any (fun i => (headerOf i).any (fun h => namesCtx h m.ctx && namesCtx m m.ctx))

/-- A secured message in a session (R306, R308): none comes in no established session, and one that does not verify fails the
session (R301, log 31). One waits that reaches a die in activation (R389), that `wait` names, or that a waiting request of its
context precedes (R302). -/
def secured (s : State) (m : Mgmt) (ds : List Nat) (wait : SessKind → Bool) (f : SessKind → State → State) :
    Host.Outcome State Fault Refusal :=
  .next (match s.sessions.get? m.sess with
  | none => s.taken
  | some (.opening _) => s.taken
  | some k =>
    if !m.sound then s.taken.endSess m.sess
    else if (0 :: ds).any s.dieBusy || s.behind m || wait k then s.later
    else f k s.taken)

/-- A request as R310 checks it: its form, its session, and that the device is READY. `ready` is false for the operations of
R388, which check the device's state themselves; `ds` are the dies it reaches beside X0. One that passes these checks and that
`hold` names waits. -/
def manage (s : State) (m : Mgmt) (op : BitVec 8) (form : Bool) (w : Who) (ready : Bool) (f : State → Reply)
    (ds : List Nat := []) (hold : State → Bool := fun _ => false) : Host.Outcome State Fault Refusal :=
  secured s m ds
    (fun k => decide (m.op = op) && form && decide (m.len.toNat ≤ 4096) && w.allows k m.ctx.toNat &&
      !(ready && decide (s.dev ≠ .ready)) && hold s)
    (fun k s => respond m (
      if m.op ≠ op || !form || decide (4096 < m.len.toNat) then s.deny 1
      else if !w.allows k m.ctx.toNat then s.deny 2
      else if ready && decide (s.dev ≠ .ready) then s.deny 3
      else f s))

/-- A request about a context that is not FREE, in the states that `ok` allows. -/
def manageCtx (s : State) (m : Mgmt) (op : BitVec 8) (form : Bool) (w : Who) (ok : CtxSt → Bool)
    (f : State → Ctx → Reply) (ds : List Nat := []) (hold : State → Bool := fun _ => false) : Host.Outcome State Fault Refusal :=
  manage s m op form w true (fun s =>
    match s.ctxs.get? m.ctx.toNat with
    | none => s.deny 4
    | some c => if ok c.st then f s c else s.deny 3) ds (fun s => (s.ctxs.get? m.ctx.toNat).any (fun c => ok c.st) && hold s)

/-- A request that changes the frozen set (R305): in CONFIG_LOCKED and RUN it sends the context to ERROR. -/
def manageFrozen (s : State) (m : Mgmt) (op : BitVec 8) (form : Bool) (f : State → Ctx → Reply) :
    Host.Outcome State Fault Refusal :=
  manageCtx s m op form .admin (fun _ => true) (fun s c =>
    match c.st with
    | .unlocked => f s c
    | _ => (s.toError m.ctx.toNat).deny 3)

/-- The payload of a request has the length of its fields: numbers, offsets and unit ids of 4 bytes, addresses, sizes and
command numbers of 8 (log 31). -/
def payloadIs (m : Mgmt) (n : Nat) : Bool := decide (m.len.toNat = n)

/-- No payload. -/
def noPayload (m : Mgmt) : Bool := payloadIs m 0

/-- An operation on the named context that is done. -/
def State.doneCtx (s : State) (m : Mgmt) (f : Ctx → Ctx) : Reply := (s.updCtx m.ctx.toNat f).did

/-! ## Creation and grants (R300, R301, R307) -/

/-- A context as CREATE makes it. -/
def Ctx.create (q : Nat) (digest : List Byte) : Ctx where
  st := .unlocked
  cfg := (Vector.replicate 24 (0 : DWord)).set 6 (BitVec.ofNat 64 q)
  grants := []
  digest := digest
  q := q
  queues := []
  ehead := 0
  etail := 0
  elost := 0
  est := 0
  waiting := []
  retry := none
  pairs := []
  wlPos := 0
  slots := []
  session := none
  keys := none
  conns := [false, false]

/-- CREATE (R17, R202, R301, R307). -/
def opCreate (m : Mgmt) (q : BitVec 6) (digest : List Byte) (s : State) : Host.Outcome State Fault Refusal :=
  manage s m 0x01 (payloadIs m 68 && decide (digest.length = 64 ∧ q.toNat ≤ 32)) .admin true (fun s =>
    if (s.ctxs.get? m.ctx.toNat).isSome then s.deny 4
    else if s.pkg = none then s.deny 3
    else if s.ctxs.any (fun c => decide (c.2.digest = digest)) ∨ 32 < q.toNat + (s.ctxs.map (fun c => c.2.q)).sum then
      s.deny 6
    else ({ s with ctxs := s.ctxs.set m.ctx.toNat (Ctx.create q.toNat digest) }).did)

/-- A range that R300 allows. -/
def State.grantOk (s : State) (base size : DWord) : Bool :=
  decide (base.toNat % 65536 = 0) && decide (size.toNat % 65536 = 0) && decide (0 < size.toNat) && s.isOwn base.toNat &&
    s.isOwn (base.toNat + size.toNat - 1)

/-- GRANT (R300, R293). -/
def opGrant (m : Mgmt) (base size : DWord) (s : State) : Host.Outcome State Fault Refusal :=
  manageFrozen s m 0x02 (payloadIs m 16 && (s.pkg.isNone || s.grantOk base size)) (fun s c =>
    let x : Span := (base.toNat, base.toNat + size.toNat)
    if 64 ≤ c.grants.length ∨ s.ctxs.any (fun d => d.2.granted.any (fun g => x.meets g)) then s.deny 6
    else
      (s.makeDead base.toNat size.toNat).doneCtx m (fun c => { c with grants := c.grants ++ [(base.toNat, size.toNat)] }))

/-- RELEASE (R293, R311). -/
def opRelease (m : Mgmt) (base size : DWord) (s : State) : Host.Outcome State Fault Refusal :=
  manageFrozen s m 0x03 (payloadIs m 16) (fun s c =>
    if !c.grants.contains (base.toNat, size.toNat) then s.deny 1
    else
      (s.makeDead base.toNat size.toNat).doneCtx m (fun c => { c with grants := c.grants.erase (base.toNat, size.toNat) }))

/-! ## The configuration block (R303) -/

/-- The bits of word `i` of the block that are RW. -/
def cfgMask (i : Nat) : DWord :=
  match i with
  | 0 | 2 | 4 => 0x0000FFFFFFFFFFFF
  | 1 => 0x0F0FFFFFFFFFFFFF
  | 3 => 0x0000FFFF00000FFF
  | 5 => 0x00000000FFFFFFFF
  | 6 | 7 => 0
  | n =>
    match n % 4 with
    | 0 => 0x000FFFFFFFFFFFFF
    | 1 => 0x00FFFFFFFFFFFFFF
    | _ => 0x0000FFFFFFFFFFFF

/-- A blend base that R291 allows: a multiple of 64 KiB in the own package, of its tier. -/
def State.baseOk (s : State) (a : Nat) (tier : Nat) : Bool :=
  decide (a % 65536 = 0) && s.isOwn a && decide (a / 2 ^ 40 % 2 = tier)

/-- The RW fields of a value for word `i` lie within the range and alignment of R303 and R291. -/
def State.cfgOk (s : State) (i : Nat) (v : DWord) : Bool :=
  match i with
  | 0 => decide (par v 0 48 % 0x8000 = 0)
  | 1 => decide (par v 0 52 % 4096 = 0) && decide (par v 56 4 ≤ 10)
  | 2 => decide (par v 0 48 % 65536 = 0)
  | 3 => decide (par v 0 12 ≤ 2048)
  | 4 => decide (par v 0 48 % 4096 = 0)
  | 5 | 6 | 7 => true
  | n =>
    match n % 4 with
    | 0 => decide (par v 0 52 % 2 ^ 21 = 0)
    | 1 => true
    | 2 => s.baseOk (par v 0 48) 0
    | _ => s.baseOk (par v 0 48) 1

/-- Words of the block written from word `i`: RO bits keep their value (R4). -/
def putCfg : Nat → List DWord → Vector DWord 24 → Vector DWord 24
  | _, [], b => b
  | i, v :: vs, b =>
    if h : i < 24 then putCfg (i + 1) vs (b.set i (b[i] &&& ~~~cfgMask i ||| v &&& cfgMask i)) else b

/-- WRITE CONFIG (R303): a whole number of aligned 8-byte words. -/
def opWriteConfig (m : Mgmt) (off : Nat) (words : List DWord) (s : State) : Host.Outcome State Fault Refusal :=
  let ok := payloadIs m (4 + 8 * words.length) && decide (off % 8 = 0) && decide (words ≠ []) && decide (off + 8 * words.length ≤ 0xC0) &&
    ((List.range words.length).zip words).all (fun p => s.cfgOk (off / 8 + p.1) p.2)
  manageFrozen s m 0x04 ok (fun s _ => s.doneCtx m (fun c => { c with cfg := putCfg (off / 8) words c.cfg }))

/-- The code of a context's state (R303). -/
def CtxSt.code : CtxSt → Nat
  | .free => 0
  | .unlocked => 0
  | .locked => 1
  | .run => 2
  | .error => 3

/-- The bytes of the configuration block, lst among them. -/
def Ctx.cfgBytes (c : Ctx) : List Byte :=
  (List.range 24).flatMap (fun i => leBytes 8 ((c.word i).toNat + (if i = 6 then c.st.code * 2 ^ 32 else 0)))

/-- READ CONFIG. -/
def opReadConfig (m : Mgmt) (off n : Nat) (s : State) : Host.Outcome State Fault Refusal :=
  manageCtx s m 0x05 (payloadIs m 8 && decide (off + n ≤ 0xC0)) .either (fun _ => true) (fun s c => s.did ((c.cfgBytes.drop off).take n))

/-! ## Queues (R321) -/

/-- A binding whose fields are in range; its reserved bits are RO, so what they hold does not matter (R4). -/
def bindingOk (b : Binding) : Bool :=
  decide (4 ≤ b.lsz.toNat ∧ b.lsz.toNat ≤ 16) && decide (4 ≤ b.csz.toNat ∧ b.csz.toNat ≤ 16) &&
    decide (b.lva.toNat % 4096 = 0) && decide (b.cva.toNat % 4096 = 0)

/-- BIND QUEUE (R321, R322). -/
def opBindQueue (m : Mgmt) (b : Binding) (s : State) : Host.Outcome State Fault Refusal :=
  manageFrozen s m 0x06 (payloadIs m 24 && bindingOk b) (fun s c =>
    if (s.queues.get? b.qid.toNat).isSome ∨ 256 ≤ c.queues.length then s.deny 6
    else
      let q : Queue :=
        { ctx := m.ctx.toNat, b := b, st := .bound, hc := 0, tail := 0, head := 0, chead := 0, ctail := 0, resv := 0
          fetched := none, open_ := [], done := [] }
      ({ s with queues := s.queues.set b.qid.toNat q }).doneCtx m (fun c =>
        { c with queues := insertNat b.qid.toNat c.queues }))

/-- The records of a queue leave with it. -/
def State.dropRecs (s : State) (qid : Nat) : State := { s with recs := s.recs.filter (fun r => r.2.qid ≠ qid) }

/-- UNBIND QUEUE (R321, R322). -/
def opUnbindQueue (m : Mgmt) (qid : BitVec 12) (s : State) : Host.Outcome State Fault Refusal :=
  manageFrozen s m 0x07 (payloadIs m 4) (fun s c =>
    if !c.queues.contains qid.toNat then s.deny 1
    else
      ({ s.dropRecs qid.toNat with queues := s.queues.erase qid.toNat }).doneCtx m (fun c =>
        { c with queues := c.queues.filter (· ≠ qid.toNat) }))

/-! ## Lock, start, stop, teardown (R301, R304, R313, R314) -/

/-- The nonempty physical extents that a blend window's bases stand for (R292, R304), with their tiers. -/
def Ctx.windowExtents (c : Ctx) (n : Nat) : List (Span × Nat) :=
  let w1 := c.word (9 + 4 * n)
  let ng := par w1 32 24
  let z := ng / 32 * zerosBelow w1 32 + zerosBelow w1 (ng % 32)
  let fb := par (c.word (10 + 4 * n)) 0 48
  let cb := par (c.word (11 + 4 * n)) 0 48
  [((fb, fb + 65536 * z), 0), ((cb, cb + 65536 * (ng - z)), 1)].filter (fun x => decide (x.1.1 < x.1.2))

/-- The save area and the write-log region, where they are not empty (R303). -/
def Ctx.areas (c : Ctx) : List Span :=
  let sv := par (c.word 2) 0 48
  let wl := par (c.word 4) 0 48
  [(sv, sv + par (c.word 3) 0 12 * slotSize + par (c.word 3) 32 16 * 2 ^ 20), (wl, wl + par (c.word 5) 0 32 * 4096)].filter
    (fun x => decide (x.1 < x.2))

/-- An enabled blend window of a context meets R291. -/
def State.windowOk (s : State) (c : Ctx) (n : Nat) : Bool :=
  decide (par (c.word (9 + 4 * n)) 32 24 = 0) || (decide (par (c.word (8 + 4 * n)) 0 52 % 2 ^ 21 = 0) &&
    s.baseOk (par (c.word (10 + 4 * n)) 0 48) 0 && s.baseOk (par (c.word (11 + 4 * n)) 0 48) 1)

/-- The checks of LOCK (R304). -/
def State.lockOk (s : State) (ctx : Nat) (c : Ctx) : Bool :=
  let root := par (c.word 0) 0 48
  let wins := (List.range 4).flatMap c.windowExtents
  let all := c.areas ++ wins.map (·.1)
  decide (root ≠ 0) && (List.range 4).all (s.windowOk c) && s.inGrants ctx root (root + 0x8000) && all.all (fun x => s.inGrants ctx x.1 x.2) &&
    wins.all (fun x => decide (x.1.1 / 2 ^ 40 % 2 = x.2) && decide ((x.1.2 - 1) / 2 ^ 40 = x.1.1 / 2 ^ 40)) &&
    !regionsOverlap all

/-- LOCK (R301, R304, R332): the lock generation rises and the event ring comes into use. -/
def opLock (m : Mgmt) (s : State) : Host.Outcome State Fault Refusal :=
  manageCtx s m 0x08 (noPayload m) .admin (fun st => decide (st = .unlocked)) (fun s c =>
    if !s.lockOk m.ctx.toNat c then s.deny 1
    else
      s.doneCtx m (fun c => { c with
        st := .locked
        cfg := c.cfg.set 7 (BitVec.ofNat 64 ((par c.cfg[7] 0 32 + 1) % 2 ^ 32))
        est := 1, ehead := 0, etail := 0, elost := 0, waiting := [], retry := none }))

/-- A byte string of a fixed length. -/
def fit (n : Nat) (bs : List Byte) : List Byte := (bs ++ List.replicate n 0).take n

/-- The interface report without its signature (R312). -/
def State.report (s : State) (ctx : Nat) (c : Ctx) (nonce : List Byte) : List Byte :=
  leBytes 4 0xC7C02001 ++ [1, BitVec.ofNat 8 ctx, BitVec.ofNat 8 c.st.code, 0] ++ leBytes 4 (par (c.word 7) 0 32) ++
    leBytes 2 c.queues.length ++ [0, 0] ++ nonce ++ c.cfgBytes ++
    (List.range 8).flatMap (fun i => fit 64 ((s.meas.get? i).getD [])) ++ c.queues.flatMap (leBytes 4)

/-- GET REPORT (R312). -/
def opGetReport (m : Mgmt) (nonce : List Byte) (s : State) : Host.Outcome State Fault Refusal :=
  manageCtx s m 0x09 (payloadIs m 32 && decide (nonce.length = 32)) .tenant (fun st => decide (st = .locked) || decide (st = .run))
    (fun s c =>
      let r := s.report m.ctx.toNat c nonce
      s.did (r ++ fit 64 (Config.deviceSign r)))

/-- START (R301, R322). -/
def opStart (m : Mgmt) (s : State) : Host.Outcome State Fault Refusal :=
  manageCtx s m 0x0A (noPayload m) .tenant (fun st => decide (st = .locked)) (fun s _ =>
    ({ s with queues := s.queues.map (fun (q : Nat × Queue) =>
        if q.2.ctx = m.ctx.toNat then (q.1, { q.2 with st := .active }) else q) }).doneCtx m (fun c => { c with st := .run }))

/-- STOP (R301, R313). -/
def opStop (m : Mgmt) (s : State) : Host.Outcome State Fault Refusal :=
  manageCtx s m 0x0B (noPayload m) .either (fun st => decide (st = .locked) || decide (st = .run)) (fun s _ =>
    (s.leaveRun m.ctx.toNat .unlocked).did)

/-- TEARDOWN (R301, R314): the response follows the scrub. -/
def opTeardown (m : Mgmt) (s : State) : Host.Outcome State Fault Refusal :=
  manageCtx s m 0x0C (noPayload m) .admin (fun _ => true) (fun s _ => (s.scrub m.ctx.toNat).did)

/-! ## Fault service (R253, R254, R287, R289) -/

/-- The state of a context in RUN. -/
def isRun (st : CtxSt) : Bool := decide (st = .run)

/-- The suspended command of a context that an engine and a number name. -/
def State.suspended (s : State) (ctx eng num : Nat) : Option Cmd :=
  ((s.eng eng).cmd num).bind (fun c =>
    if c.st = .suspended ∧ s.lidCtx c.lid = ctx ∧ c.susp.isSome then some c else none)

/-- A request about a suspended command, which reaches the engine's die. -/
def serviceOne (s : State) (m : Mgmt) (op : BitVec 8) (eng num : Nat) (f : State → Cmd → Reply) :
    Host.Outcome State Fault Refusal :=
  manageCtx s m op (payloadIs m 12 && decide (eng < 512)) .tenant isRun (fun s _ =>
    match s.suspended m.ctx.toNat eng num with
    | none => s.deny 5
    | some c => f s c) [engDie eng]

/-- RESUME ONE (R289). -/
def opResumeOne (m : Mgmt) (eng num : Nat) (s : State) : Host.Outcome State Fault Refusal :=
  serviceOne s m 0x10 eng num (fun s _ => (s.updCmd eng num Cmd.resume).did)

/-- RESUME RANGE (R289): move addresses from `lo` up to `hi`. -/
def opResumeRange (m : Mgmt) (lo hi : DWord) (s : State) : Host.Outcome State Fault Refusal :=
  manageCtx s m 0x11 (payloadIs m 16) .tenant isRun (fun s _ =>
    let hit (c : Cmd) : Bool := match c.susp with
      | some (_, va) => decide (c.st = .suspended ∧ s.lidCtx c.lid = m.ctx.toNat ∧ lo.toNat ≤ va.toNat ∧ va.toNat < hi.toNat)
      | none => false
    ({ s with dies := s.dies.map (fun (d : Nat × Die) => (d.1, { d.2 with
        engines := d.2.engines.map (fun (e : Nat × Engine) => (e.1, { e.2 with
          cmds := e.2.cmds.map (fun (c : Cmd) => if hit c then c.resume else c) })) })) }).did) (List.range 4)

/-- FAIL COMMAND (R247, R289). -/
def opFailCommand (m : Mgmt) (eng num : Nat) (s : State) : Host.Outcome State Fault Refusal :=
  serviceOne s m 0x12 eng num (fun s c =>
    match c.susp with
    | some (st, va) => (s.endCmd eng num st va).did
    | none => s.deny 5)

/-- The suspension record of a command (R253). -/
def Cmd.suspension (c : Cmd) (eng : Nat) : List Byte :=
  let (st, va) := c.susp.getD (0, 0)
  leBytes 8 c.bmp.toNat ++
    (List.range 4).flatMap (fun i =>
      match c.slots[i]? with
      | some b => leBytes 8 (b.box % 64 + (if b.ph then 64 else 0) + 128 + b.cur % 2 ^ 48 * 256)
      | none => leBytes 8 0) ++
    leBytes 8 va.toNat ++ leBytes 4 st.toNat ++ leBytes 4 eng ++ leBytes 8 c.num

/-- READ SUSPENSION (R253). -/
def opReadSuspension (m : Mgmt) (eng num : Nat) (s : State) : Host.Outcome State Fault Refusal :=
  serviceOne s m 0x13 eng num (fun s c => s.did (c.suspension eng))

/-- A translation that an invalidation covers. -/
def covered (all : Bool) (lo hi : DWord) (va size : Nat) : Bool := all || (decide (va < hi.toNat) && decide (lo.toNat < va + size))

/-- An access of a context through a translation that an invalidation covers is under way (R242, R255, R287, R370): a storage
command that its target serves, an element sent to a switch and not accepted, or a host write that waits for a link. -/
def State.usesOld (s : State) (ctx : Nat) (all : Bool) (lo hi : DWord) : Bool :=
  s.dies.any (fun d => d.2.engines.any (fun e => e.2.cmds.any (fun c =>
    !c.st.gone && decide (s.lidCtx c.lid = ctx) && c.slots.any (·.ph) &&
      (match c.op with
        | .mvNvm x .. => covered all lo hi ((c.reg x).toNat % 2 ^ 62) (s.nvmLen c)
        | _ => false)))) ||
  s.contribs.any (fun x => !x.accepted && covered all lo hi (x.va.toNat % 2 ^ 62) 8 &&
    ((s.eng x.eng).cmd x.num).any (fun c => decide (s.lidCtx c.lid = ctx))) ||
  s.held.any (fun x => match x with
    | .write p va _ ds => decide (p.ctx.toNat = ctx) && covered all lo hi va ds.length
    | _ => false)

/-- The device without the cached translations of a context that an invalidation covers (R287). -/
def State.dropOld (s : State) (ctx : Nat) (all : Bool) (lo hi : DWord) : State :=
  let keep (t : List TlbEntry) : List TlbEntry := t.filter (fun e => !(decide (e.ctx = ctx) && covered all lo hi e.va e.size))
  { s with dies := s.dies.map (fun (d : Nat × Die) => (d.1, { d.2 with
      l1 := d.2.l1.map (fun (e : Nat × List TlbEntry) => (e.1, keep e.2)), tlb := keep d.2.tlb
      wcache := d.2.wcache.filter (fun p =>
        !(decide (p.ctx = ctx) && covered all lo hi (p.va * 2 ^ lvlShift (p.lvl - 1)) (2 ^ lvlShift (p.lvl - 1)))) })) }

/-- INVALIDATE (R287): one that passes its checks completes, and is answered, when no access through an old translation is
under way. A range whose end lies below its start answers 1 (DESIGN CHOICE, log 31). -/
def opInvalidate (m : Mgmt) (all : Bool) (lo hi : DWord) (s : State) : Host.Outcome State Fault Refusal :=
  manageCtx s m 0x14 (payloadIs m (if all then 0 else 16) && (all || decide (lo.toNat ≤ hi.toNat))) .tenant
    (fun st => decide (st = .locked) || decide (st = .run))
    (fun s _ => (s.dropOld m.ctx.toNat all lo hi).did) (List.range 4) (fun s => s.usesOld m.ctx.toNat all lo hi)

/-! ## Device-wide operations (R17, R290, R297, R298, R371) -/

/-- SET PACKAGE (R17). No context is live, so no granule of the device's memory is: at its new addresses it reads zero (R293). -/
def opSetPackage (m : Mgmt) (pkg : BitVec 8) (s : State) : Host.Outcome State Fault Refusal :=
  manage s m 0x20 (payloadIs m 4 && decide (pkg.toNat < 128)) .admin true (fun s =>
    if !s.ctxs.isEmpty then s.deny 3
    else ({ s.makeDead (pkg.toNat * 2 ^ 41) (2 ^ 41) with pkg := some (pkg.truncate 7) }).did)

/-- The code of a link's state (R371). -/
def LinkSt.code : LinkSt → Nat
  | .down => 0
  | .training => 1
  | .active => 2
  | .degraded => 3
  | .retraining => 4

/-- A word of a link's status block (R371). -/
def Link.word (l : Link) (o : Nat) : Word :=
  match o with
  | 0x00 => BitVec.ofNat 32 (l.st.code + (if l.spu then 8 else 0) + l.bad.toNat * 16)
  | 0x04 => l.swid.zeroExtend 32
  | 0x08 => lo32 l.lcrc
  | 0x0C => hi32 l.lcrc
  | 0x10 => l.lrtr
  | 0x14 => l.lfail
  | 0x18 => lo32 l.lflit
  | 0x1C => hi32 l.lflit
  | _ => 0

/-- A word of a die's window table (R372). -/
def windowWord (w : RedWindow) (o : Nat) : Word :=
  match o with
  | 0x00 => w.base.truncate 32
  | 0x04 => (w.base >>> 32).truncate 32
  | 0x08 => w.size.truncate 32
  | 0x0C => BitVec.ofNat 32 (w.size.toNat / 2 ^ 32 + 2 ^ 15)
  | _ => 0

/-- A link that has never been trained. -/
def Link.init : Link where
  st := .down
  spu := false
  bad := 0
  swid := 0
  lcrc := 0
  lrtr := 0
  lfail := 0
  lflit := 0
  seen := []

/-- A word of a die's counter space (R290, R371, R372); offsets that no map lists read 0 (log 20). -/
def Die.counterWord (d : Die) (off : Nat) : Word :=
  if off < 0x100 then
    match off with
    | 0x00 => lo32 d.tl1m
    | 0x04 => hi32 d.tl1m
    | 0x08 => lo32 d.tllm
    | 0x0C => hi32 d.tllm
    | 0x10 => lo32 d.twalk
    | 0x14 => hi32 d.twalk
    | 0x18 => lo32 d.tmrg
    | 0x1C => hi32 d.tmrg
    | 0x20 => d.tflt
    | 0x24 => d.tfqw
    | 0x28 => lo32 d.lvrd
    | 0x2C => hi32 d.lvrd
    | 0x30 => lo32 d.lvfl
    | 0x34 => hi32 d.lvfl
    | _ => 0
  else if off < 0x200 then ((d.links.get? ((off - 0x100) / 0x20)).getD Link.init).word ((off - 0x100) % 0x20)
  else if 0x400 ≤ off then
    match d.windows[(off - 0x400) / 0x10]? with
    | some w => windowWord w (off % 0x10)
    | none => 0
  else 0

/-- The offset of the low word of a 64-bit counter of a die. -/
def dieCounterLow (off : Nat) : Bool :=
  [0x00, 0x08, 0x10, 0x18, 0x28, 0x30].contains off ||
    (decide (0x100 ≤ off ∧ off < 0x200) && (decide (off % 0x20 = 0x08) || decide (off % 0x20 = 0x18)))

/-- Whether COUNTERS may name a die and an offset. -/
def counterAt (die off : Nat) : Bool := decide (die < 4) && decide (off % 4 = 0) && decide (off < 0x480)

/-- A read of one word of a die's counter space, with R139's rule for pairs (R290). -/
def Die.readWord (d : Die) (off : Nat) : Die × Word :=
  let v := d.counterWord off
  if dieCounterLow off then ({ d with latch := d.latch.set (off + 4) (d.counterWord (off + 4)) }, v)
  else
    match d.latch.get? off with
    | some w => ({ d with latch := d.latch.erase off }, w)
    | none => (d, v)

/-- Words of a die's counter space read one after another. -/
def Die.readWords (d : Die) (offs : List Nat) : Die × List Byte :=
  offs.foldl (fun (r : Die × List Byte) off =>
    let q := r.1.readWord off
    (q.1, r.2 ++ leBytes 4 q.2.toNat)) (d, [])

/-- COUNTERS, a read of words at offsets (R290, R311). -/
def opCountersRead (m : Mgmt) (die : Nat) (offs : List Nat) (s : State) : Host.Outcome State Fault Refusal :=
  manage s m 0x21 (payloadIs m (4 + 4 * offs.length) && decide (die < 4) && offs.all (counterAt die)) .admin true (fun s =>
    let r := (s.die die).readWords offs
    (s.setDie die r.1).did r.2) [die]

/-- A link's RW counters after a write of a word (R371). -/
def Link.put (l : Link) (o : Nat) (v : Word) : Link :=
  match o with
  | 0x08 => { l with lcrc := setHalf l.lcrc false v }
  | 0x0C => { l with lcrc := setHalf l.lcrc true v }
  | 0x10 => { l with lrtr := v }
  | 0x14 => { l with lfail := v }
  | 0x18 => { l with lflit := setHalf l.lflit false v }
  | 0x1C => { l with lflit := setHalf l.lflit true v }
  | _ => l

/-- A die's RW counters after a write of a word (R290, R371). -/
def Die.putCounter (d : Die) (off : Nat) (v : Word) : Die :=
  if off < 0x100 then
    match off with
    | 0x00 => { d with tl1m := setHalf d.tl1m false v }
    | 0x04 => { d with tl1m := setHalf d.tl1m true v }
    | 0x08 => { d with tllm := setHalf d.tllm false v }
    | 0x0C => { d with tllm := setHalf d.tllm true v }
    | 0x10 => { d with twalk := setHalf d.twalk false v }
    | 0x14 => { d with twalk := setHalf d.twalk true v }
    | 0x18 => { d with tmrg := setHalf d.tmrg false v }
    | 0x1C => { d with tmrg := setHalf d.tmrg true v }
    | 0x20 => { d with tflt := v }
    | 0x24 => { d with tfqw := v }
    | 0x28 => { d with lvrd := setHalf d.lvrd false v }
    | 0x2C => { d with lvrd := setHalf d.lvrd true v }
    | 0x30 => { d with lvfl := setHalf d.lvfl false v }
    | 0x34 => { d with lvfl := setHalf d.lvfl true v }
    | _ => d
  else if off < 0x200 then
    { d with links := d.links.modify ((off - 0x100) / 0x20) (fun l => l.put ((off - 0x100) % 0x20) v) }
  else d

/-- COUNTERS, a write of a word at each offset (R290, R311). -/
def opCountersWrite (m : Mgmt) (die : Nat) (offs : List Nat) (vs : List Word) (s : State) : Host.Outcome State Fault Refusal :=
  manage s m 0x21 (payloadIs m (4 + 4 * (offs.length + vs.length)) && decide (offs.length = vs.length) && decide (die < 4) &&
      offs.all (counterAt die)) .admin true (fun s =>
    (s.updDie die (fun d => (offs.zip vs).foldl (fun (d : Die) p => d.putCounter p.1 p.2) d)).did) [die]

/-! ## Error logs and injection (R295, R297, R298) -/

/-- An array instance exists: five arrays of a core, one of a stack and of a die's capacity tier (R20, R295). -/
def arrayAt (unit : BitVec 16) (arr : Nat) : Bool :=
  match unit.toNat / 4096 with
  | 0 => decide (unit.toNat % 4096 < 512) && decide (arr < 5)
  | 4 => decide (unit.toNat % 4096 < 16) && decide (arr = 0)
  | 5 => decide (unit.toNat % 4096 < 4) && decide (arr = 0)
  | _ => false

/-- An array that keeps an error log (R295, R297): one of `arrayAt`, or one that holds two copies of each word or is
protected by parity, for which the spec gives no number (log 38): a core's control store, a die's move-program memory, an
engine's L1 TLB, and at a die's first page walker its last-level TLB and its walk cache. -/
def loggedAt (unit : BitVec 16) (arr : Nat) : Bool :=
  arrayAt unit arr ||
    (match unit.toNat / 4096 with
    | 0 => decide (unit.toNat % 4096 < 512) && decide (arr = 5)
    | 2 => decide (unit.toNat % 4096 < 512) && decide (arr = 0)
    | 3 => decide (unit.toNat % 4096 < 32) && decide (unit.toNat % 8 = 0) && decide (arr < 2)
    | 8 => decide (unit.toNat % 4096 < 4) && decide (arr = 0)
    | _ => false)

/-- The die of a unit (R20), X0 to X3 as 0 to 3 and C0 to C7 as 4 to 11. -/
def unitDie (unit : BitVec 16) : Nat :=
  let i := unit.toNat % 4096
  match unit.toNat / 4096 with
  | 0 => 4 + i / 64
  | 10 => 4 + i
  | 9 => 4 + i / 2
  | 2 => i / 128
  | 3 => i / 8
  | 4 => i / 4
  | _ => i

/-- The key of an array. -/
def unitKey (unit : BitVec 16) (arr : Nat) : Nat := unit.toNat * 8 + arr

/-- A log entry as laid out. -/
def LogEntry.bytes (e : LogEntry) : List Byte :=
  leBytes 8 (e.addr.toNat + e.unit.toNat * 2 ^ 48) ++ leBytes 4 e.syn.toNat ++
    leBytes 4 (((e.ctx.map (fun c => c.toNat + 64)).getD 0) + (if e.ue then 128 else 0) + (if e.inj then 256 else 0) +
      e.chan.toNat * 512) ++ leBytes 8 e.cnt.toNat ++ leBytes 8 0

/-- The registers and the log of an array as laid out (R297). -/
def ErrArray.bytes (a : ErrArray) : List Byte :=
  leBytes 8 a.ecnt.toNat ++ leBytes 8 a.ucnt.toNat ++ leBytes 4 a.lovf.toNat ++ leBytes 4 a.log.length ++ leBytes 8 0 ++
    fit 512 (a.log.flatMap LogEntry.bytes)

/-- ERROR LOG, read (R297). -/
def opErrorLogRead (m : Mgmt) (unit : BitVec 16) (arr : Nat) (s : State) : Host.Outcome State Fault Refusal :=
  manage s m 0x22 (payloadIs m 8 && loggedAt unit arr) .admin true (fun s => s.did (s.arr (unitKey unit arr)).bytes) [unitDie unit]

/-- ERROR LOG, clear (R297): the counters. -/
def opErrorLogClear (m : Mgmt) (unit : BitVec 16) (arr : Nat) (s : State) : Host.Outcome State Fault Refusal :=
  manage s m 0x22 (payloadIs m 8 && loggedAt unit arr) .admin true (fun s =>
    (s.updArr (unitKey unit arr) (fun a => { a with ecnt := 0, ucnt := 0, lovf := 0 })).did) [unitDie unit]

/-- ERROR LOG, pop (R297): the oldest entry is removed. -/
def opErrorLogPop (m : Mgmt) (unit : BitVec 16) (arr : Nat) (s : State) : Host.Outcome State Fault Refusal :=
  manage s m 0x22 (payloadIs m 8 && loggedAt unit arr) .admin true (fun s =>
    (s.updArr (unitKey unit arr) (fun a => { a with log := a.log.drop 1 })).did) [unitDie unit]

/-- INJECT (R298). -/
def opInject (m : Mgmt) (unit : BitVec 16) (arr : Nat) (addr : BitVec 48) (arm iue : Bool) (s : State) :
    Host.Outcome State Fault Refusal :=
  manage s m 0x23 (payloadIs m 20 && arrayAt unit arr) .admin true (fun s =>
    (s.updArr (unitKey unit arr) (fun a => { a with iaddr := addr, arm := arm, iue := iue })).did) [unitDie unit]

end Sys2Proof.Machine
end

