-- ==== Sys2Proof/Machine/Service.lean ====
section
/-! DEFINITION. Firmware images, start and service (R383 to R391). -/

namespace Sys2Proof.Machine

/-! ## Images (R383, R384) -/

/-- The dies an image runs on: X0 to X3 as 0 to 3, C0 to C7 as 4 to 11 (R383). -/
def imageDies (idx : Nat) : List Nat :=
  match idx with
  | 0 => [0]
  | 4 | 5 => (List.range 8).map (· + 4)
  | _ => List.range 4

/-- The dies that a mask names. -/
def maskDies (m : BitVec 12) : List Nat := (List.range 12).filter (fun i => m.getLsbD i)

/-- The header and body of an image, which its signature and its measurement cover. -/
def imageBytes (g : Image) : List Byte :=
  leBytes 4 g.magic.toNat ++ [g.index, 0, 0, 0] ++ leBytes 4 g.version.toNat ++ leBytes 4 g.bodyLen.toNat ++
    List.replicate 48 0 ++ g.body

/-- An image that the device accepts (R384). -/
def State.imageOk (s : State) (g : Image) : Bool :=
  decide (g.magic = 0x59464D31) && decide (g.index.toNat ≤ 7) && decide (g.body.length = g.bodyLen.toNat) &&
    decide ((s.floors.get? g.index.toNat).getD 0 ≤ g.version.toNat) && Config.firmwareSigOk (imageBytes g) g.sig

/-- The measurement of an image. -/
def imageDigest (g : Image) : List Byte := fit 64 (Config.sha512 (imageBytes g))

/-- An image put in a slot of dies. -/
def putSlot (t : Tbl (Tbl Loaded)) (dies : List Nat) (idx : Nat) (x : Loaded) : Tbl (Tbl Loaded) :=
  dies.foldl (fun t d => t.set d (((t.get? d).getD []).set idx x)) t

/-- The image in a slot of a die. -/
def slotOf (t : Tbl (Tbl Loaded)) (d idx : Nat) : Option Loaded := (t.get? d).bind (fun x => x.get? idx)

/-- LOAD IMAGE (R384, R386, R388). -/
def opLoadImage (m : Mgmt) (dies : BitVec 12) (img : Image) (s : State) : Host.Outcome State Fault Refusal :=
  manage s m 0x24 (payloadIs m (132 + img.body.length) && decide (img.index.toNat ≤ 7)) .admin false (fun s =>
    let idx := img.index.toNat
    let x : Loaded := { version := img.version, digest := imageDigest img }
    let inA (s : State) : State :=
      { s with fwA := putSlot s.fwA (imageDies idx) idx x, meas := s.meas.set idx x.digest }
    match s.dev with
    | .rom => if idx ≠ 0 then s.deny 3 else if s.imageOk img then ({ inA s with dev := .loading }).did else s.deny 1
    | .loading => if idx = 0 then s.deny 3 else if s.imageOk img then (inA s).did else s.deny 1
    | .ready => if s.imageOk img then ({ s with fwB := putSlot s.fwB (maskDies dies) idx x }).did else s.deny 1
    | _ => s.deny 3) (maskDies dies)

/-- ACTIVATE (R389): the units change image one after another, until IMAGE_ACTIVATION_COMPLETE. -/
def opActivate (m : Mgmt) (dies : BitVec 12) (idx : BitVec 8) (s : State) : Host.Outcome State Fault Refusal :=
  manage s m 0x25 (payloadIs m 8 && decide (idx.toNat ≤ 7) && decide (dies ≠ 0)) .admin false (fun s =>
    if s.dev ≠ .ready then s.deny 3
    else if !(maskDies dies).all (fun d => (slotOf s.fwB d idx.toNat).isSome) then s.deny 1
    else ({ s with activating :=
      s.activating.set idx.toNat ((s.activating.get? idx.toNat).getD [] ++ [maskDies dies]) }).did) (maskDies dies)

/-- The slots of a die with the two images of an index exchanged. -/
def State.swapSlots (s : State) (idx d : Nat) : State :=
  let a := slotOf s.fwA d idx
  let b := slotOf s.fwB d idx
  let put (t : Tbl (Tbl Loaded)) (x : Option Loaded) : Tbl (Tbl Loaded) :=
    match x with
    | some l => t.set d (((t.get? d).getD []).set idx l)
    | none => t.set d (((t.get? d).getD []).erase idx)
  { s with fwA := put s.fwA b, fwB := put s.fwB a }

/-- A service event for every context in CONFIG_LOCKED or RUN (R389). -/
def State.postLocked (s : State) (n : Nat) : State :=
  (s.ctxs.filter (fun c => c.2.isLocked)).foldl (fun s c => s.postEvent c.1 (eventBytes n)) s

/-- IMAGE_ACTIVATION_COMPLETE (R389, R392): the last unit of the oldest activation of an index has changed image, and the
requests that waited are tried in their order of arrival. -/
def execImageActivationComplete (idx : BitVec 3) (s : State) : Host.Outcome State Fault Refusal :=
  .next (match s.activating.get? idx.toNat with
  | some (ds :: more) =>
    (match ds.head?.bind (fun d => slotOf s.fwB d idx.toNat) with
    | none => s
    | some x =>
      let s := ds.foldl (fun s d => s.swapSlots idx.toNat d) s
      ({ s with
          activating := if more.isEmpty then s.activating.erase idx.toNat else s.activating.set idx.toNat more
          meas := s.meas.set idx.toNat x.digest
          agenda := s.requests.map Agent.waiting ++ s.agenda }).postLocked
        (0x40 + idx.toNat * 2 ^ 32 + x.version.toNat * 2 ^ 64))
  | _ => s)

/-! ## Start (R386, R387) -/

/-- Every image is in slot A of every die it runs on. -/
def State.allLoaded (s : State) : Bool :=
  (List.range 8).all (fun i => (imageDies i).all (fun d => (slotOf s.fwA d i).isSome))

/-- A link that service takes out, as a warm start does before it trains it (R369, R387). -/
def Link.out (l : Link) : Link := { l with st := .down }

/-- The four transfer dies with every link taken out and then in training (R369). -/
def State.trainLinks (s : State) : State :=
  (List.range 4).foldl (fun (s : State) d => s.updDie d (fun d => { d with
    links := (List.range 8).foldl (fun (t : Tbl Link) i => t.set i { ((t.get? i).getD Link.init).out with st := .training }) d.links })) s

/-- START DEVICE as R310 checks it, in a state of the device that `now` allows; one that is accepted is answered only when
the steps are over (R386, R387). It reaches every die, so it waits for every activation (R389). -/
def startRequest (s : State) (m : Mgmt) (now : DevSt) (ok : Bool) (f : State → State) : Host.Outcome State Fault Refusal :=
  secured s m (List.range 12) (fun _ => false) (fun k s =>
    if m.op ≠ 0x26 || !payloadIs m 4 then respond m (s.deny 1)
    else if !Who.admin.allows k m.ctx.toNat then respond m (s.deny 2)
    else if s.dev ≠ now then respond m (s.deny 3)
    else if !ok then respond m (s.deny 1)
    else f s)

/-- START DEVICE, cold (R386, R387). -/
def opStartDeviceCold (m : Mgmt) (s : State) : Host.Outcome State Fault Refusal :=
  startRequest s m .loading s.allLoaded (fun s => { s.trainLinks with dev := .starting false, starter := some m })

/-- START DEVICE, warm (R386, R387): every live context is torn down first. -/
def opStartDeviceWarm (m : Mgmt) (s : State) : Host.Outcome State Fault Refusal :=
  startRequest s m .ready true (fun s =>
    let s := (s.ctxs.map (·.1)).foldl State.scrub s
    { s.trainLinks with dev := .starting true, starter := some m })

/-- The new downloads of a warm start: each slot B of images 1 to 7 moves to slot A and is measured, and slot B is cleared
(R387). -/
def State.newImages (s : State) : State :=
  let s := s.fwB.foldl (fun (s : State) d => (d.2.filter (fun x => x.1 ≠ 0)).foldl (fun (s : State) x =>
    { s with fwA := putSlot s.fwA [d.1] x.1 x.2, meas := s.meas.set x.1 x.2.digest }) s) s
  { s with fwB := [], activating := [] }

/-- A cold start leaves every core, die, log and counter as created; links keep what training gave them (R387). -/
def State.coldDevice (s : State) : State :=
  { s with
    cores := (List.range 512).map (fun c => (c, Core.init))
    dies := (List.range 4).map (fun d => (d, { Die.init with
      links := (s.die d).links.map (fun (l : Nat × Link) => (l.1, { l.2 with lcrc := 0, lrtr := 0, lfail := 0, lflit := 0 }))
      windows := (s.die d).windows, newWindows := (s.die d).newWindows }))
    walkers := [], arrays := [], nextLid := 1, pkg := none }

/-- What SPARE may name (R20, R390). -/
def spareForm (unit : BitVec 16) (u : SpareUnit) : Bool :=
  match unit.toNat / 4096, u with
  | 4, .row _ => decide (unit.toNat % 4096 < 16)
  | 4, .channel c => decide (unit.toNat % 4096 < 16) && decide (c < 64)
  | 5, .row _ => decide (unit.toNat % 4096 < 4)
  | _, _ => false

/-- A spare is left: two pseudo-channels in a stack; how many rows there are is not stated (R390, log 12). -/
def State.spareLeft (s : State) (unit : BitVec 16) (u : SpareUnit) : Bool :=
  match u with
  | .channel _ => decide (s.spares.countP (fun x => decide (x.1 = unit.toNat) &&
      (match x.2 with | .channel _ => true | .row _ => false)) < 2)
  | .row _ => s.choice 0x390

/-- The rows and channels that fail the memory test of a cold start are spared while spares are left (R387, R390); which fail is
free. -/
def State.testMemory (s : State) : State :=
  (Config.failedUnits s.tick).foldl (fun (s : State) x =>
    if spareForm x.1 x.2 && s.spareLeft x.1 x.2 then { s with spares := s.spares ++ [(x.1.toNat, x.2)] } else s) s

/-- No granule of the device's own memory is live, and no poison is left (R293, R387). -/
def State.allDead (s : State) : State :=
  match s.pkg with
  | some p => { s.makeDead (p.toNat * 2 ^ 41) (2 ^ 41) with live := [], poison := s.poison.filter (fun l => decide (l < 2 ^ 48) && !s.isOwn l) }
  | none => { s with live := [], poison := s.poison.filter (fun l => decide (l < 2 ^ 48)) }

/-- DEVICE_START_COMPLETE (R386, R387): every link has been trained; all granules become not live and lose their poison. -/
def execDeviceStartComplete (s : State) : Host.Outcome State Fault Refusal :=
  .next (match s.dev with
  | .starting warm =>
    if s.dies.any (fun d => d.2.links.any (fun l => decide (l.2.st = .training))) then s
    else
      let who := s.starter
      let s := if warm then s.allDead.newImages else s.allDead.coldDevice.testMemory
      let s := { s with dev := .ready, starter := none }
      match who with
      | some m => respond m s.did
      | none => s
  | _ => s)

/-! ## Links, spares, cores and dies (R369, R388, R390, R391) -/

/-- A link of the package (R19): link `i` belongs to die i / 8. -/
def State.link (s : State) (i : Nat) : Link := ((s.die (i / 8)).links.get? (i % 8)).getD Link.init
def State.setLink (s : State) (i : Nat) (l : Link) : State :=
  s.updDie (i / 8) (fun d => { d with links := d.links.set (i % 8) l })

/-- RETRAIN LINK (R369, R388). -/
def opRetrainLink (m : Mgmt) (link : Nat) (s : State) : Host.Outcome State Fault Refusal :=
  manage s m 0x27 (payloadIs m 4 && decide (link < 32)) .admin false (fun s =>
    if s.dev ≠ .ready then s.deny 3
    else
      let l := s.link link
      match l.st with
      | .down => (s.setLink link { l with st := .training }).did
      | .active | .degraded => (s.setLink link { l with st := .retraining, lrtr := l.lrtr + 1 }).did
      | _ => s.did) [link / 8]

/-- SPARE (R390): contents and poison are copied, so no access sees a change. -/
def opSpare (m : Mgmt) (unit : BitVec 16) (u : SpareUnit) (s : State) : Host.Outcome State Fault Refusal :=
  manage s m 0x28 (payloadIs m 8 && spareForm unit u) .admin false (fun s =>
    if s.dev ≠ .ready then s.deny 3
    else if s.spareLeft unit u then ({ s with spares := s.spares ++ [(unit.toNat, u)] }).did
    else s.deny 6) [unitDie unit]

/-- A save slot kept for a team that must leave its core; the record of a kernel that can have none is stopped with status
0x05 (R391). -/
def State.reserve (s : State) (tk : Nat) : State :=
  match s.slotFor tk, s.kernels.get? (tk / 512) with
  | some n, some k => (s.takeSlot k.ctx n k.lid).updTeam tk (fun t => { t with slot := some n })
  | none, some k =>
    let lids := (s.kernels.filter (fun e => decide (e.2.recId = k.recId))).map (·.1)
    lids.foldl (fun s l => s.stopKernel l .serviced) s
  | _, none => s

/-- The teams of cores that have been taken out of service begin to leave (R391). -/
def State.clearCores (s : State) (cs : List Nat) : State :=
  let s := (cs.flatMap (fun c => (s.core c).residents)).foldl State.reserve s
  (cs.foldl State.leaveCore s).settleOut

/-- RETIRE CORE (R13, R391). -/
def opRetireCore (m : Mgmt) (core : BitVec 16) (s : State) : Host.Outcome State Fault Refusal :=
  manage s m 0x29 (payloadIs m 4 && decide (core.toNat < 512)) .admin false (fun s =>
    let c := core.toNat
    if s.dev ≠ .ready then s.deny 3
    else if (s.spareCores.get? (spareOf c)).isSome ∨
        s.cores.any (fun k => k.2.retired && decide (spareOf k.1 = spareOf c)) then s.deny 6
    else ((s.updCore c (fun k => { k with retired := true })).clearCores [c]).did) [unitDie core]

/-- The unit that FENCE names: a compute die, or an attachment (R10, R20). -/
inductive FenceUnit where
  | die (d : Nat)
  | att (a : Nat)
  | none
  deriving DecidableEq, Repr

/-- The unit of an id that may be fenced. -/
def fenceUnit (unit : BitVec 16) : FenceUnit :=
  match unit.toNat / 4096 with
  | 10 => if unit.toNat % 4096 < 8 then .die (unit.toNat % 4096) else .none
  | 9 => if unit.toNat % 4096 < 16 then .att (unit.toNat % 4096) else .none
  | _ => .none

/-- The event of a die that is fenced (R392). -/
def fenceEvent (unit : BitVec 16) (in_ : Bool) : Nat :=
  0x42 + unit.toNat * 2 ^ 32 + (if in_ then 2 ^ 48 else 0)

/-- FENCE, in (R10, R391, R392). R10 speaks of one attachment of a die out of service; the other is then taken out in the same
way, with no effect on programs (DESIGN CHOICE, log 42). -/
def opFenceIn (m : Mgmt) (unit : BitVec 16) (s : State) : Host.Outcome State Fault Refusal :=
  manage s m 0x2A (payloadIs m 8 && decide (fenceUnit unit ≠ .none)) .admin false (fun s =>
    if s.dev ≠ .ready then s.deny 3
    else
      match fenceUnit unit with
      | .die d =>
        if s.fencedDies.contains d then s.did
        else
          let s := { s with fencedDies := insertNat d s.fencedDies }
          ((s.clearCores ((List.range 64).map (fun i => 64 * d + i))).postRun (fenceEvent unit true)).did
      | .att a => ({ s with fencedAtt := insertNat a s.fencedAtt }).did
      | .none => s.deny 1) [unitDie unit]

/-- FENCE, out (R10, R391, R392). -/
def opFenceOut (m : Mgmt) (unit : BitVec 16) (s : State) : Host.Outcome State Fault Refusal :=
  manage s m 0x2A (payloadIs m 8 && decide (fenceUnit unit ≠ .none)) .admin false (fun s =>
    if s.dev ≠ .ready then s.deny 3
    else
      match fenceUnit unit with
      | .die d =>
        if !s.fencedDies.contains d then s.did
        else (({ s with fencedDies := s.fencedDies.filter (· ≠ d) }).postRun (fenceEvent unit false)).did
      | .att a => ({ s with fencedAtt := s.fencedAtt.filter (· ≠ a) }).did
      | .none => s.deny 1) [unitDie unit]

end Sys2Proof.Machine
end

