-- ==== Sys2Proof/Machine/Link.lean ====
section
/-! DEFINITION. Cetha links, ports and reduction windows (R368 to R372, R382), power and the clock (R386, R387, R392, R393),
and errors that refresh and scrub find (R296). -/

namespace Sys2Proof.Machine

/-- A link enters a state; DEGRADED, DOWN and ACTIVE post event 0x30 (R382). Host accesses that waited for a link go on. -/
def State.linkTo (s : State) (i : Nat) (l : Link) : State :=
  let old := (s.link i).st
  let s := (s.setLink i l).release
  if l.st = old ∨ l.st = .training ∨ l.st = .retraining then s
  else s.postRun (0x30 + i * 2 ^ 32 + l.st.code * 2 ^ 40)

/-- A link that carries traffic. -/
def Link.up (l : Link) : Bool := decide (l.st = .active) || decide (l.st = .degraded)

/-- A link of the package, in a device that has started its links. -/
def State.hasLink (s : State) (i : Nat) : Bool := decide (i < 32) && ((s.die (i / 8)).links.get? (i % 8)).isSome

/-- FLIT_CRC_FAILURE (R368, R371): the flit is replayed; only the counter changes. -/
def execFlitCrcFailure (link : Nat) (_lane : BitVec 4) (s : State) : Host.Outcome State Fault Refusal :=
  .next (
    let l := s.link link
    if s.hasLink link && l.up then s.setLink link { l with lcrc := l.lcrc + 1 } else s)

/-- A flit with this sequence number has been received, on whichever link it came (R370). -/
def State.flitSeen (s : State) (seq : Nat) : Bool := s.dies.any (fun d => d.2.links.any (fun l => l.2.seen.contains seq))

/-- FLIT_RECEIVE (R370): a flit with a sequence number already received, on this link or on the one it was handed over from,
is discarded. -/
def execFlitReceive (link : Nat) (seq : Nat) (s : State) : Host.Outcome State Fault Refusal :=
  .next (
    let l := s.link link
    if s.hasLink link && l.up && !s.flitSeen seq then s.setLink link { l with seen := l.seen ++ [seq] } else s)

/-- LINK_TRAINING_RESULT (R369, R371), in TRAINING or RETRAINING. A retraining reaches ACTIVE by the spare alone, which is then
in use; in training, with exactly eight good lanes of nine, it may or may not be (log 12). -/
def execLinkTrainingResult (link : Nat) (good : BitVec 9) (swid : BitVec 16) (s : State) :
    Host.Outcome State Fault Refusal :=
  .next (
    let l := s.link link
    let n := (List.range 9).countP (fun i => good.getLsbD i)
    if !s.hasLink link ∨ (l.st ≠ .training ∧ l.st ≠ .retraining) then s
    else
      let l := { l with bad := ~~~good, swid := swid, spu :=
          if n < 8 then l.spu else if l.st = LinkSt.retraining then true else if n = 9 then false else s.choice 0x369 }
      if 8 ≤ n then s.linkTo link { l with st := .active }
      else if 4 ≤ n then s.linkTo link { l with st := .degraded }
      else s.linkTo link { l with st := .down, lfail := l.lfail + 1 })

/-- LINK_TRAINING_TIMEOUT (R369): 2^24 transfer cycles have passed. -/
def execLinkTrainingTimeout (link : Nat) (s : State) : Host.Outcome State Fault Refusal :=
  .next (
    let l := s.link link
    if s.hasLink link ∧ (l.st = .training ∨ l.st = .retraining) then
      s.linkTo link { l with st := .down, lfail := l.lfail + 1 }
    else s)

/-- LINK_LANE_FAILURE (R369): a lane fails too often or loses alignment. -/
def execLinkLaneFailure (link : Nat) (lane : BitVec 4) (s : State) : Host.Outcome State Fault Refusal :=
  .next (
    let l := s.link link
    if s.hasLink link && l.up && decide (lane.toNat < 9) then
      s.linkTo link { l with st := .retraining, lrtr := l.lrtr + 1, bad := l.bad ||| (1#9 <<< lane.toNat) }
    else s)

/-- LINK_SPARE_SWAP (R369): the spare replaces the bad lane. -/
def execLinkSpareSwap (link : Nat) (lane : BitVec 4) (s : State) : Host.Outcome State Fault Refusal :=
  .next (
    let l := s.link link
    if s.hasLink link && decide (l.st = .retraining) && decide (lane.toNat < 9) && !l.spu then
      s.linkTo link { l with st := .active, spu := true, bad := l.bad ||| (1#9 <<< lane.toNat) }
    else s)

/-- PORT_CARRIER_CHANGE (R382). -/
def execPortCarrierChange (port up : Bool) (s : State) : Host.Outcome State Fault Refusal :=
  .next (if s.dev = .off ∨ s.carrier.getD port.toNat false = up then s
  else
    ({ s with carrier := s.carrier.set port.toNat up }).postRun
      (0x31 + port.toNat * 2 ^ 32 + (if up then 2 ^ 40 else 0)))

/-- A list of reduction windows that R372 allows. -/
def windowsOk (ws : List RedWindow) : Bool :=
  decide (ws.length ≤ 8) && ws.all (fun w => decide (w.base.toNat % 2 ^ 21 = 0) && decide (w.size.toNat % 2 ^ 21 = 0) &&
    decide (0 < w.size.toNat) && decide (w.base.toNat / 2 ^ 41 = (w.base.toNat + w.size.toNat - 1) / 2 ^ 41))

/-- WINDOW_LIST_ADVERTISE (R372): every die with a link in training keeps the most recent list, which takes effect once no move
is in flight to an address that it adds or removes (`State.settleWindows`). -/
def execWindowListAdvertise (ws : List RedWindow) (s : State) : Host.Outcome State Fault Refusal :=
  .next (if !windowsOk ws then s
  else { s with dies := s.dies.map (fun (d : Nat × Die) =>
      if d.2.links.any (fun l => decide (l.2.st = .training)) then (d.1, { d.2 with newWindows := some ws }) else d) })

/-! ## Power and cooling -/

/-- POWER_APPLIED (R386): the ports come up and the ROM answers. -/
def execPowerApplied (s : State) : Host.Outcome State Fault Refusal :=
  .next (if s.dev = .off then { s with dev := .rom, carrier := [true, true] } else s)

/-- The device without power (R386, R387): all state is lost but fuses and the maps of spares, retired cores and fences; other
packages keep their memory. A core that was about to be retired has lost its teams, so its spare takes its place. -/
def State.powerOff (s : State) : State :=
  let s := match s.pkg with
    | some p => s.setMem (s.mem.clear (p.toNat * 2 ^ 41) (2 ^ 41))
    | none => s
  { State.reset with
    cur := s.cur, agenda := s.agenda, tick := s.tick, outbox := s.outbox
    mem := s.mem.clear (2 ^ 48) (2 ^ 38), poison := s.poison.filter (fun l => decide (l < 2 ^ 48) && !s.isOwn l)
    fuseAdmin := s.fuseAdmin, fuseFast := s.fuseFast, floors := s.floors
    spares := s.spares, fencedDies := s.fencedDies, fencedAtt := s.fencedAtt
    spareCores := (s.cores.filter (fun c => c.2.retired)).foldl (fun (t : Tbl Nat) c => t.set (spareOf c.1) c.1) s.spareCores }

/-- POWER_REMOVED (R386). -/
def execPowerRemoved (s : State) : Host.Outcome State Fault Refusal := .next s.powerOff

/-- THERMAL_TRIP (R393). -/
def execThermalTrip (s : State) : Host.Outcome State Fault Refusal := .next s.powerOff

/-- FLOW_LOSS_TRIP (R393). -/
def execFlowLossTrip (s : State) : Host.Outcome State Fault Refusal := .next s.powerOff

/-- One step of the arithmetic clock, of 68.75 MHz (R25, R392): every die counts it, the compute dies and the transfer dies of
R8, in every state of the device (DEDUCED, log 34), and event 0x41 gives the new clock; one that is no whole number of MHz is
rounded either way (log 12). -/
def State.clockTo (s : State) (mhz : Nat) : State :=
  let v := mhz / 4 + (if mhz % 4 ≠ 0 ∧ s.choice (0x392 + mhz) then 1 else 0)
  ({ s with mhz := mhz, steps := s.steps.map (· + 1) }).postRun (0x41 + v * 2 ^ 32)

/-- Steps down to 550 MHz; `fuel` bounds them. -/
def State.clockDown : Nat → State → State
  | 0, s => s
  | n + 1, s => if s.mhz ≤ 2200 then s else State.clockDown n (s.clockTo (s.mhz - 275))

/-- THERMAL_HOLD (R393): the clock goes to its lowest step and stays there. -/
def execThermalHold (s : State) : Host.Outcome State Fault Refusal :=
  .next (if s.dev = .off then s else { s.clockDown 8 with hold := true })

/-- THERMAL_RELEASE (R393). -/
def execThermalRelease (s : State) : Host.Outcome State Fault Refusal := .next { s with hold := false }

/-- CLOCK_STEP (R392): between 550 MHz and 1.1 GHz, and not up while held. -/
def execClockStep (up : Bool) (s : State) : Host.Outcome State Fault Refusal :=
  .next (if s.dev = .off then s
  else if up then (if s.hold ∨ 4400 ≤ s.mhz then s else s.clockTo (s.mhz + 275))
  else if s.mhz ≤ 2200 then s
  else s.clockTo (s.mhz - 275))

/-! ## Refresh and scrub -/

/-- The location of an address of an array's unit. -/
def unitLoc (unit : BitVec 16) (addr : Nat) : Nat :=
  let l := (if unit.toNat / 4096 = 0 then coreLoc (unit.toNat % 4096) else 0) + addr
  l / eccSize l * eccSize l

/-- An error of no context counted and logged in an array (R296, R297). -/
def State.logScrub (s : State) (unit : BitVec 16) (arr addr : Nat) (ue : Bool) (chan : BitVec 7) (syn : Word) : State :=
  s.updArr (unitKey unit arr) (fun a =>
    let e := a.ecnt + 1
    let en : LogEntry :=
      { addr := BitVec.ofNat 48 addr, unit := unit, syn := syn, ctx := none, ue := ue, inj := false, chan := chan, cnt := e }
    { a with
      ecnt := e
      ucnt := if ue then a.ucnt + 1 else a.ucnt
      lovf := if a.log.length < 16 then a.lovf else a.lovf + 1
      log := if a.log.length < 16 then a.log ++ [en] else a.log })

/-- The entry of a parity-protected array that an error drops (R295). -/
def State.dropParity (s : State) (unit : BitVec 16) (arr i : Nat) : State :=
  match unit.toNat / 4096 with
  | 2 => s.updDie (engDie (unit.toNat % 4096)) (fun d =>
      { d with l1 := d.l1.modify (unit.toNat % 4096) (fun (t : List TlbEntry) => t.eraseIdx i) })
  | 3 => s.updDie (unit.toNat % 4096 / 8) (fun d =>
      if arr = 0 then { d with tlb := d.tlb.eraseIdx i } else { d with wcache := d.wcache.eraseIdx i })
  | _ => s

/-- SCRUB_ERROR (R295 to R297): an error found by refresh or scrub is counted and logged with no context; an uncorrectable
one poisons its word. Granules that are not live are not refreshed (R293). An error in one of two copies is corrected from
the other, and one in a parity-protected array drops the entry that the address numbers: no result changes. An error of another
package's memory poisons its line, which is what this device sees of it (R370). -/
def execScrubError (unit : BitVec 16) (arr : Nat) (addr : BitVec 48) (ue : Bool) (chan : BitVec 7) (syn : Word) (s : State) :
    Host.Outcome State Fault Refusal :=
  .next (
    let l := unitLoc unit addr.toNat
    if s.dev ≠ .ready ∨ !loggedAt unit arr then s
    else if !arrayAt unit arr then (s.dropParity unit arr addr.toNat).logScrub unit arr addr.toNat false chan syn
    else if arrKey l ≠ unitKey unit arr ∨ (l < 2 ^ 48 ∧ s.isOwn l ∧ !s.isLive l) then s
    -- a word of another package is counted there
    else if l < 2 ^ 48 ∧ !s.isOwn l then (if ue && !s.poison.contains l then { s with poison := s.poison ++ [l] } else s)
    else
      let s := s.logScrub unit arr (locAddr l) ue chan syn
      if ue && !s.poison.contains l then { s with poison := s.poison ++ [l] } else s)

end Sys2Proof.Machine
end

