-- ==== Sys2Proof/Machine/Matrix.lean ====
section
/-! DEFINITION. The matrix engine: `mm`, `mm.tri`, `wload` and `wload.ans` (R47, R48, R168 to R174). -/

namespace Sys2Proof.Machine

/-! ## Weight halves (R168, R169)

Half h holds w[k][n] as element n × K_t + k, and the side entry of block (n, k / 32) as entry n × K_t / 32 + k / 32. -/

/-- Where column n of a half starts. -/
def wtCol (core bank h : Nat) (f : BitVec 4) (n : Nat) : Nat := wtLoc core bank h + n * (kLimit f * elemW f / 8)

/-- The codes of w[0][n] to w[k − 1][n] with their side entries. -/
def State.weights (s : State) (core bank h : Nat) (f : BitVec 4) (k n : Nat) : List (Nat × (Nat × Nat)) :=
  let codes := unpackE (elemW f) k (s.mem.read (wtCol core bank h f n) (k * elemW f / 8))
  let nb := kLimit f / 32
  let sides := if isBlock f then
      (sideEntries f nb (s.mem.read (wtSide core bank h + n * nb * sideBytes f) (nb * sideBytes f))).toArray
    else #[]
  (codes.zip (List.range k)).map (fun q => (q.1, sides.getD (q.2 / 32) (0x7F, 0)))

/-! ## Sums (R47, R48) -/

/-- The sum of one group's products: nothing if annihilating mode removes them all. -/
def groupSum (ann : Bool) (ps : List (Num × Num)) : Option (Num × Flags) :=
  let ps := if ann then ps.filter (fun p => !(p.1.isZero || p.2.isZero)) else ps
  if ps.isEmpty then none
  else
    let qs := ps.map (fun p => mulN p.1 p.2)
    let inf (n : Bool) : Bool := qs.any (fun q => decide (q.1 = .inf n))
    if orFlags (qs.map (·.2)) ≠ 0 ∨ (inf true && inf false) then some (.nan false, fNV)
    else some (qs.foldl (fun a q => (addN .rne a q.1).1) (.fin false 0 0), 0)

/-- The sum of R47 over groups of `p`, from an FP32 code; `fuel` bounds the groups. -/
def floatSum (p : Nat) (ann : Bool) : Nat → List (Num × Num) → Nat → Flags → Nat × Flags
  | 0, _, acc, fl => (acc, fl)
  | n + 1, ps, acc, fl =>
    if ps.isEmpty then (acc, fl)
    else
      match groupSum ann (ps.take p) with
      | none => floatSum p ann n (ps.drop p) acc fl
      | some (x, f) =>
        let y := addN .rne (decodeE fFP32 acc) x
        let r := roundTo fFP32 .rne false y.1
        floatSum p ann n (ps.drop p) r.code (fl ||| f ||| y.2 ||| r.fl)

/-- The sum of R48, modulo 2^32. -/
def intSum (ps : List (Int × Int)) (acc : Nat) : Nat := intCode 32 (ps.foldl (fun a p => a + p.1 * p.2) (acc : Int))

/-- An integer element. -/
def intElem (f : BitVec 4) (c : Nat) : Int :=
  match ifmt f with
  | some (w, sg) => intOf w sg c
  | none => 0

/-! ## `mm` and `mm.tri` (R174) -/

/-- Whether `mm.tri` skips output (m, n). -/
def triSkips (tri : Bool) (b : DWord) (m n : Nat) : Bool := tri && decide ((n : Int) > (m : Int) + parDg b)

/-- The row of A that output row m reads: codes with their side entries, none for a fill element, which reads as +0. -/
def aRow (g : Grab) (a : Desc) (m : Option (List Byte)) (nest : List (BitVec 16)) (row k : Nat) :
    List (Option (Nat × (Nat × Nat))) :=
  (List.range k).map (fun j => (atPlace a m nest row j).map (fun p => (g.code p.1 p.2, g.side p.1 p.2)))

/-- One output element. -/
def mmElem (a : Desc) (wf : BitVec 4) (ann : Bool) (xs : List (Option (Nat × (Nat × Nat))))
    (ws : List (Nat × (Nat × Nat))) (acc : Nat) : Nat × Flags :=
  -- k from K to G × P reads +0 on the side of A
  let xs := xs ++ List.replicate (ws.length - xs.length) none
  if mmClass a.fmt = some 3 then
    (intSum ((xs.zip ws).map (fun q => (match q.1 with | some c => intElem a.fmt c.1 | none => 0, intElem wf q.2.1))) acc, 0)
  else
    let ps := (xs.zip ws).map (fun q =>
      (match q.1 with | some c => valueOf a.fmt c.2 c.1 | none => Num.fin false 0 0, valueOf wf q.2.2 q.2.1))
    floatSum (16 / elemW wf) ann (ps.length + 1) ps acc 0

/-- K rounded up to whole groups (R174). -/
def kGroups (wf : BitVec 4) (b : DWord) : Nat :=
  let p := 16 / elemW wf
  (par b 2 10 + 1 + p - 1) / p * p

/-- A sub-tile of `mm` or `mm.tri`. -/
def mmTile (tri : Bool) (i : Instr) (a : Desc) (b : DWord) (d : Desc) (e : TileEnv) (s : State) : TileOut :=
  let (i0, i1, j0, j1) := (tileGrid i).rect e.u
  let k := par b 2 10 + 1
  let r := descReg d e.core
  let g := s.grabBox e.core a e.h.mapA e.h.nest (if tri then triFrom b i0 j0 else i0) i1 0 k
  let cols := (List.range (j1 - j0)).map (fun c => s.weights e.core e.h.bank (par b 0 1) e.h.wfmt (kGroups e.h.wfmt b) (j0 + c))
  let rows := (List.range (i1 - i0)).map (fun q =>
    let m := i0 + q
    let old := leSplit 4 (j1 - j0) (s.mem.read (r.at m j0) (4 * (j1 - j0)))
    let xs := aRow g a e.h.mapA e.h.nest m k
    let out := (cols.zip (old.zip (List.range (j1 - j0)))).map (fun c =>
      if triSkips tri b m (j0 + c.2.2) then (par b 32 32, (0 : Flags))
      else mmElem a e.h.wfmt e.h.zmul xs c.1 (if par b 1 1 = 1 then c.2.1 else 0))
    ((r.at m j0, leJoin 4 (out.map (·.1))), orFlags (out.map (·.2))))
  .ok (rows.map (·.1)) (orFlags (rows.map (·.2)))

/-- The weights that a sub-tile of `mm` or `mm.tri` reads, and the side entries of their blocks. -/
def mmWeights (tri : Bool) (i : Instr) (b : DWord) (e : TileEnv) : List Span :=
  let (i0, i1, j0, j1) := (tileGrid i).rect e.u
  if tri && decide (i1 ≤ triFrom b i0 j0) then []
  else
    (List.range (j1 - j0)).flatMap (fun c =>
      let f := e.h.wfmt
      let a := wtCol e.core e.h.bank (par b 0 1) f (j0 + c)
      let z := wtSide e.core e.h.bank (par b 0 1) + (j0 + c) * (kLimit f / 32) * sideBytes f
      (a, a + kGroups f b * elemW f / 8) ::
        (if isBlock f then [(z, z + (kGroups f b + 31) / 32 * sideBytes f)] else []))

/-- MM (R172 to R174). -/
def execMm (h : TileHdr) (a : Desc) (b : DWord) (d : Desc) (s : State) : Host.Outcome State Fault Refusal :=
  tileWord s (.mm h a b d) 0 (mmWeights false (.mm h a b d) b) (mmTile false (.mm h a b d) a b d)

/-- MM_TRI (R172 to R174). -/
def execMmTri (h : TileHdr) (a : Desc) (b : DWord) (d : Desc) (s : State) : Host.Outcome State Fault Refusal :=
  tileWord s (.mmTri h a b d) 0 (mmWeights true (.mmTri h a b d) b) (mmTile true (.mmTri h a b d) a b d)

/-! ## `wload` (R169) -/

/-- The writes that fill a half: `cols` holds, for n from 0, the codes of w[·][n]; `sides` the side bytes of its blocks.
Codes not given are 0; entries not given have scale 0x7F. -/
def halfWrites (core bank h : Nat) (f : BitVec 4) (cols : List (List Nat)) (sides : List (List Byte)) :
    List (Nat × List Byte) :=
  let colBytes := kLimit f * elemW f / 8
  let row (cs : List Nat) : List Byte :=
    let bs := packE (elemW f) cs
    bs ++ List.replicate (colBytes - bs.length) 0
  let nb := kLimit f / 32
  let pad (bs : List Byte) : List Byte :=
    bs ++ (List.replicate (nb - bs.length / sideBytes f) (sideOf f 0x7F 0)).flatten
  ((List.range 256).map (fun n => (wtCol core bank h f n, row ((cols[n]?).getD [])))) ++
    (if isBlock f then
      (List.range 256).map (fun n => (wtSide core bank h + n * nb * sideBytes f, pad ((sides[n]?).getD [])))
     else [])

/-- `wload`. -/
def wloadTile (a b : Desc) (d : DWord) (e : TileEnv) (s : State) : TileOut :=
  let r := descReg a e.core
  let g := s.mem.grab { r with fmt := a.fmt } 0 r.rows
  let cols := if a.tr then (List.range r.cols).map (fun n => (List.range r.rows).map (fun k => g.code k n))
    else (List.range r.rows).map (fun n => (List.range r.cols).map (fun k => g.code n k))
  let side0 := if b.isZero then r.side else (descReg b e.core).base
  let sides := if isBlock a.fmt then (List.range r.rows).map (fun n => s.mem.read (side0 + n * r.sidePitch) r.sidePitch) else []
  .ok (halfWrites e.core e.h.bank (par d 0 1) a.fmt cols sides) 0

/-- WLOAD (R169). -/
def execWload (h : TileHdr) (a b : Desc) (d : DWord) (s : State) : Host.Outcome State Fault Refusal :=
  tileWord s (.wload h a b d) 0 (fun _ => []) (wloadTile a b d)

/-! ## `wload.ans` (R170, R171) -/

/-- The lowest offset of a field of a Dexo header that breaks R170, a field that the header's bytes do not cover
included; `want` is the latched format and `room` the length of the stream region. -/
def dexoBad (hd : List Byte) (want : BitVec 4) (room : Nat) : Option Nat :=
  let num (o n : Nat) : Nat := leNat ((hd.drop o).take n)
  let f := BitVec.ofNat 4 (num 3 1)
  let rows := num 4 2 + 1
  let cols := num 6 2 + 1
  let freq := leSplit 2 256 ((hd.drop 0x10).take 512)
  let state := leSplit 4 128 ((hd.drop 0x210).take 512)
  let side := if isBlock f then rows * (cols / 32) * sideBytes f else 0
  let has (n : Nat) : Bool := decide (n ≤ hd.length)
  let checks : List (Nat × Bool) :=
    [(0x000, has 2 && decide (num 0 2 = 0xD3C0)), (0x002, has 3 && decide (num 2 1 = 1)),
     (0x003, has 4 && decide (num 3 1 < 16) && wloadFmt f && f == want), (0x004, has 6 && decide (rows ≤ 256)),
     (0x006, has 8 && decide (cols ≤ kLimit f) && decide (cols * elemW f % 8 = 0) && (!isBlock f || decide (cols % 32 = 0))),
     (0x008, has 12 && decide (num 8 4 ≤ room)), (0x00C, has 16 && decide (num 12 4 = 0)),
     (0x010, has 0x210 && decide (freq.sum = 4096) && (decide (elemW f ≠ 4) || (freq.drop 16).all (· == 0))),
     (0x210, has 0x410 && state.all (fun x => decide (2 ^ 23 ≤ x) && decide (x < 2 ^ 31))),
     (0x410, has (0x410 + side))]
  (checks.find? (fun c => !c.2)).map (·.1)

/-- The symbol whose slots hold `slot`, with its frequency and first slot. -/
def symbolOf : List Nat → Nat → Nat → Nat → Nat × Nat × Nat
  | [], _, sym, cum => (sym, 0, cum)
  | f :: fs, slot, sym, cum => if slot < cum + f then (sym, f, cum) else symbolOf fs slot (sym + 1) (cum + f)

/-- Bytes taken into a state until it is 2^23 or more: the state and the rest of the stream, or none at its end. -/
def refill : Nat → Nat → List Byte → Option (Nat × List Byte)
  | 0, x, bs => some (x, bs)
  | n + 1, x, bs =>
    if 2 ^ 23 ≤ x then some (x, bs)
    else
      match bs with
      | [] => none
      | b :: bs => refill n (x * 256 + b.toNat) bs

/-- The decoding of R171: `n` symbols from symbol i on. The symbols, in reverse, and the states and stream left; or
none, with the bytes left, where the stream ends too soon. -/
def ansLoop (freq : List Nat) : Nat → Nat → Array Nat → List Byte → List Nat → Option (List Nat × Array Nat × List Byte)
  | 0, _, xs, bs, out => some (out, xs, bs)
  | n + 1, i, xs, bs, out =>
    let x := xs.getD (i % 128) 0
    let slot := x % 4096
    let (sym, f, cum) := symbolOf freq slot 0 0
    match refill 4 (f * (x / 4096) + slot - cum) bs with
    | none => none
    | some (x, bs) => ansLoop freq n (i + 1) (xs.setIfInBounds (i % 128) x) bs (sym :: out)

/-- Pairs of symbols joined, low byte first. -/
def pairUp : List Nat → List Nat
  | a :: b :: t => (a + 256 * b) :: pairUp t
  | _ => []

/-- `wload.ans`. -/
def ansTile (a b : Desc) (d : DWord) (e : TileEnv) (s : State) : TileOut :=
  let ra := descReg a e.core
  let rb := descReg b e.core
  let hd := s.mem.read rb.base rb.codeBytes
  let want := BitVec.ofNat 4 (par d 4 4)
  match dexoBad hd want ra.codeBytes with
  | some o => .fail 0x22 o
  | none =>
    let num (o n : Nat) : Nat := leNat ((hd.drop o).take n)
    let rows := num 4 2 + 1
    let cols := num 6 2 + 1
    let len := num 8 4
    let wide := decide (elemW want = 16)
    let stream := s.mem.read ra.base len
    match ansLoop (leSplit 2 256 ((hd.drop 0x10).take 512)) (rows * cols * (if wide then 2 else 1)) 0
        (leSplit 4 128 ((hd.drop 0x210).take 512)).toArray stream [] with
    | none => .fail 0x21 len
    | some (out, xs, rest) =>
      if !rest.isEmpty || xs.any (fun x => x != 2 ^ 23) then .fail 0x21 (len - rest.length)
      else
        let codes := if wide then pairUp out.reverse else out.reverse
        let sp := cols / 32 * sideBytes want
        .ok (halfWrites e.core e.h.bank (par d 0 1) want (chunks cols 257 codes)
          (if isBlock want then (List.range rows).map (fun n => (hd.drop (0x410 + n * sp)).take sp) else [])) 0

/-- WLOAD_ANS (R170, R171). -/
def execWloadAns (h : TileHdr) (a b : Desc) (d : DWord) (s : State) : Host.Outcome State Fault Refusal :=
  tileWord s (.wloadAns h a b d) 0 (fun _ => []) (ansTile a b d)

end Sys2Proof.Machine
end

