-- ==== Sys2Proof/Machine/Requests.lean ====
section
/-! DEFINITION. Management requests as the secured messages that carry them: the operation byte selects the operation, and the
payload is read as the operation lays it out (R308, R311, R388; log 31). -/

namespace Sys2Proof.Machine

/-! ## Payloads -/

/-- A binding as its payload (R321). -/
def bindingBytes (b : Binding) : List Byte :=
  leBytes 4 (b.qid.toNat + b.pri.toNat * 2 ^ 16 + b.wgt.toNat * 2 ^ 18 + (if b.hof then 2 ^ 22 else 0)) ++
    leBytes 4 (b.lsz.toNat + b.csz.toNat * 2 ^ 8) ++ leBytes 8 b.lva.toNat ++ leBytes 8 b.cva.toNat

/-- A binding from its payload; reserved bits are ignored (R4, R321). -/
def readBinding (bs : List Byte) : Binding :=
  let w := leNat (bs.take 4)
  let z := leNat ((bs.drop 4).take 4)
  let n := leNat ((bs.drop 8).take 8)
  let p := leNat ((bs.drop 16).take 8)
  { qid := BitVec.ofNat 12 w, pri := BitVec.ofNat 2 (w / 2 ^ 16), wgt := BitVec.ofNat 4 (w / 2 ^ 18), hof := w.testBit 22
    lsz := BitVec.ofNat 5 z, csz := BitVec.ofNat 5 (z / 2 ^ 8), lva := BitVec.ofNat 52 n, cva := BitVec.ofNat 52 p
    resZero := decide (w / 2 ^ 12 % 16 = 0 ∧ w / 2 ^ 23 = 0 ∧ z / 2 ^ 5 % 8 = 0 ∧ z / 2 ^ 13 = 0 ∧ n / 2 ^ 52 = 0 ∧ p / 2 ^ 52 = 0) }

/-- An array of a unit and the action on its log: 0 reads, 1 clears, 2 pops (log 31). -/
def arrayBytes (unit : BitVec 16) (arr act : Nat) : List Byte := leBytes 4 unit.toNat ++ leBytes 4 (arr % 256 + act * 256)

/-- The number of a row or, with bit 31, of a pseudo-channel (log 31). -/
def spareNumber (u : SpareUnit) : Nat :=
  match u with
  | .row r => r
  | .channel c => c + 2 ^ 31

/-- An image from its bytes (R384); none where there is no room for a header and a signature. -/
def readImage (bs : List Byte) : Option Image :=
  if bs.length < 128 then none
  else some
    { magic := BitVec.ofNat 32 (leNat (bs.take 4)), index := BitVec.ofNat 8 (leNat ((bs.drop 4).take 1))
      version := BitVec.ofNat 32 (leNat ((bs.drop 8).take 4)), bodyLen := BitVec.ofNat 32 (leNat ((bs.drop 12).take 4))
      body := (bs.drop 64).take (bs.length - 128), sig := bs.drop (bs.length - 64) }

/-- Words of four bytes. -/
def readWords (n : Nat) (bs : List Byte) : List Nat := leSplit 4 n bs

/-- A request that is malformed whatever its session (R309, R310). -/
def malformed (s : State) (m : Mgmt) : Host.Outcome State Fault Refusal :=
  secured s m [] (fun _ => false) (fun _ s => respond m (s.deny 1))

/-- The request that a header and a payload make, executed; malformed where the operation byte is no operation's, or the payload
none of its. -/
def operate (m : Mgmt) (bs : List Byte) (s : State) : Host.Outcome State Fault Refusal :=
  let w (i : Nat) : Nat := leNat ((bs.drop (4 * i)).take 4)
  let d (i : Nat) : DWord := BitVec.ofNat 64 (leNat ((bs.drop i).take 8))
  let n := bs.length
  if n ≠ m.len.toNat then malformed s m
  else
    match m.op.toNat with
    | 0x01 => opCreate m (BitVec.ofNat 6 (w 0)) (bs.drop 4) s
    | 0x02 => opGrant m (d 0) (d 8) s
    | 0x03 => opRelease m (d 0) (d 8) s
    | 0x04 => opWriteConfig m (w 0) ((leSplit 8 (n / 8) (bs.drop 4)).map (BitVec.ofNat 64)) s
    | 0x05 => opReadConfig m (w 0) (w 1) s
    | 0x06 => opBindQueue m (readBinding bs) s
    | 0x07 => opUnbindQueue m (BitVec.ofNat 12 (w 0)) s
    | 0x08 => opLock m s
    | 0x09 => opGetReport m bs s
    | 0x0A => opStart m s
    | 0x0B => opStop m s
    | 0x0C => opTeardown m s
    | 0x10 => opResumeOne m (w 0) (d 4).toNat s
    | 0x11 => opResumeRange m (d 0) (d 8) s
    | 0x12 => opFailCommand m (w 0) (d 4).toNat s
    | 0x13 => opReadSuspension m (w 0) (d 4).toNat s
    | 0x14 => opInvalidate m (decide (n = 0)) (d 0) (d 8) s
    | 0x20 => opSetPackage m (BitVec.ofNat 8 (w 0)) s
    | 0x21 =>
      if w 0 / 2 ^ 31 = 0 then opCountersRead m (w 0) (readWords (n / 4 - 1) (bs.drop 4)) s
      else if n % 8 ≠ 4 then malformed s m
      else opCountersWrite m (w 0 % 2 ^ 31) (readWords (n / 8) (bs.drop 4))
        ((readWords (n / 8) (bs.drop (4 + 4 * (n / 8)))).map (BitVec.ofNat 32)) s
    | 0x22 =>
      match w 1 / 256 with
      | 0 => opErrorLogRead m (BitVec.ofNat 16 (w 0)) (w 1 % 256) s
      | 1 => opErrorLogClear m (BitVec.ofNat 16 (w 0)) (w 1 % 256) s
      | 2 => opErrorLogPop m (BitVec.ofNat 16 (w 0)) (w 1 % 256) s
      | _ => malformed s m
    | 0x23 => opInject m (BitVec.ofNat 16 (w 0)) (w 1) (BitVec.ofNat 48 (d 8).toNat) ((w 4).testBit 0) ((w 4).testBit 1) s
    | 0x24 =>
      match readImage (bs.drop 4) with
      | some g => opLoadImage m (BitVec.ofNat 12 (w 0)) g s
      | none => malformed s m
    | 0x25 => opActivate m (BitVec.ofNat 12 (w 0)) (BitVec.ofNat 8 (w 1)) s
    | 0x26 =>
      match w 0 with
      | 0 => opStartDeviceCold m s
      | 1 => opStartDeviceWarm m s
      | _ => malformed s m
    | 0x27 => opRetrainLink m (w 0) s
    | 0x28 => opSpare m (BitVec.ofNat 16 (w 0)) (if w 1 < 2 ^ 31 then .row (w 1) else .channel (w 1 - 2 ^ 31)) s
    | 0x29 => opRetireCore m (BitVec.ofNat 16 (w 0)) s
    | 0x2A =>
      match w 1 with
      | 0 => opFenceOut m (BitVec.ofNat 16 (w 0)) s
      | 1 => opFenceIn m (BitVec.ofNat 16 (w 0)) s
      | _ => malformed s m
    | _ => malformed s m

/-- A request whose operation byte is not the one of its row: the message that its header and payload make as the device
reads it (R308). -/
def reread (s : State) (m : Mgmt) (payload : List Byte) : Host.Outcome State Fault Refusal :=
  match mgmtOf m.sess m.sound (requestBytes m payload) with
  | some h => operate h ((requestBytes m payload).drop 8) s
  | none => malformed s m

/-! ## The rows of the opcode table -/

/-- CREATE (R308, R17, R202, R301, R307). -/
def execCreate (m : Mgmt) (q : BitVec 6) (digest : List Byte) (s : State) : Host.Outcome State Fault Refusal :=
  if m.op = 0x01 then opCreate m q digest s else reread s m (leBytes 4 q.toNat ++ digest)

/-- GRANT (R308, R293, R300). -/
def execGrant (m : Mgmt) (base size : DWord) (s : State) : Host.Outcome State Fault Refusal :=
  if m.op = 0x02 then opGrant m base size s else reread s m (leBytes 8 base.toNat ++ leBytes 8 size.toNat)

/-- RELEASE (R308, R293, R311). -/
def execRelease (m : Mgmt) (base size : DWord) (s : State) : Host.Outcome State Fault Refusal :=
  if m.op = 0x03 then opRelease m base size s else reread s m (leBytes 8 base.toNat ++ leBytes 8 size.toNat)

/-- WRITE CONFIG (R308, R303). -/
def execWriteConfig (m : Mgmt) (off : Nat) (words : List DWord) (s : State) : Host.Outcome State Fault Refusal :=
  if m.op = 0x04 then opWriteConfig m off words s else reread s m (leBytes 4 off ++ words.flatMap (fun w => leBytes 8 w.toNat))

/-- READ CONFIG (R308, R311). -/
def execReadConfig (m : Mgmt) (off n : Nat) (s : State) : Host.Outcome State Fault Refusal :=
  if m.op = 0x05 then opReadConfig m off n s else reread s m (leBytes 4 off ++ leBytes 4 n)

/-- BIND QUEUE (R308, R321, R322). -/
def execBindQueue (m : Mgmt) (b : Binding) (s : State) : Host.Outcome State Fault Refusal :=
  if m.op = 0x06 then opBindQueue m b s else reread s m (bindingBytes b)

/-- UNBIND QUEUE (R308, R321, R322). -/
def execUnbindQueue (m : Mgmt) (qid : BitVec 12) (s : State) : Host.Outcome State Fault Refusal :=
  if m.op = 0x07 then opUnbindQueue m qid s else reread s m (leBytes 4 qid.toNat)

/-- LOCK (R308, R301, R304, R332). -/
def execLock (m : Mgmt) (s : State) : Host.Outcome State Fault Refusal :=
  if m.op = 0x08 then opLock m s else reread s m []

/-- GET REPORT (R308, R312). -/
def execGetReport (m : Mgmt) (nonce : List Byte) (s : State) : Host.Outcome State Fault Refusal :=
  if m.op = 0x09 then opGetReport m nonce s else reread s m nonce

/-- START (R308, R301, R322). -/
def execStart (m : Mgmt) (s : State) : Host.Outcome State Fault Refusal :=
  if m.op = 0x0A then opStart m s else reread s m []

/-- STOP (R308, R301, R313). -/
def execStop (m : Mgmt) (s : State) : Host.Outcome State Fault Refusal :=
  if m.op = 0x0B then opStop m s else reread s m []

/-- TEARDOWN (R308, R301, R314). -/
def execTeardown (m : Mgmt) (s : State) : Host.Outcome State Fault Refusal :=
  if m.op = 0x0C then opTeardown m s else reread s m []

/-- RESUME ONE (R308, R289). -/
def execResumeOne (m : Mgmt) (eng num : Nat) (s : State) : Host.Outcome State Fault Refusal :=
  if m.op = 0x10 then opResumeOne m eng num s else reread s m (leBytes 4 eng ++ leBytes 8 num)

/-- RESUME RANGE (R308, R289). -/
def execResumeRange (m : Mgmt) (lo hi : DWord) (s : State) : Host.Outcome State Fault Refusal :=
  if m.op = 0x11 then opResumeRange m lo hi s else reread s m (leBytes 8 lo.toNat ++ leBytes 8 hi.toNat)

/-- FAIL COMMAND (R308, R247, R289). -/
def execFailCommand (m : Mgmt) (eng num : Nat) (s : State) : Host.Outcome State Fault Refusal :=
  if m.op = 0x12 then opFailCommand m eng num s else reread s m (leBytes 4 eng ++ leBytes 8 num)

/-- READ SUSPENSION (R308, R253). -/
def execReadSuspension (m : Mgmt) (eng num : Nat) (s : State) : Host.Outcome State Fault Refusal :=
  if m.op = 0x13 then opReadSuspension m eng num s else reread s m (leBytes 4 eng ++ leBytes 8 num)

/-- INVALIDATE (R308, R287). -/
def execInvalidate (m : Mgmt) (all : Bool) (lo hi : DWord) (s : State) : Host.Outcome State Fault Refusal :=
  if m.op = 0x14 then opInvalidate m all lo hi s else reread s m (if all then [] else leBytes 8 lo.toNat ++ leBytes 8 hi.toNat)

/-- SET PACKAGE (R308, R17, R293). -/
def execSetPackage (m : Mgmt) (pkg : BitVec 8) (s : State) : Host.Outcome State Fault Refusal :=
  if m.op = 0x20 then opSetPackage m pkg s else reread s m (leBytes 4 pkg.toNat)

/-- COUNTERS, a read (R308, R290, R311). -/
def execCountersRead (m : Mgmt) (die : Nat) (offs : List Nat) (s : State) : Host.Outcome State Fault Refusal :=
  if m.op = 0x21 then opCountersRead m die offs s else reread s m (leBytes 4 die ++ offs.flatMap (leBytes 4))

/-- COUNTERS, a write (R308, R290, R311). -/
def execCountersWrite (m : Mgmt) (die : Nat) (offs : List Nat) (vs : List Word) (s : State) :
    Host.Outcome State Fault Refusal :=
  if m.op = 0x21 then opCountersWrite m die offs vs s
  else reread s m (leBytes 4 (die + 2 ^ 31) ++ offs.flatMap (leBytes 4) ++ vs.flatMap (fun v => leBytes 4 v.toNat))

/-- ERROR LOG, read (R308, R297). -/
def execErrorLogRead (m : Mgmt) (unit : BitVec 16) (arr : Nat) (s : State) : Host.Outcome State Fault Refusal :=
  if m.op = 0x22 then opErrorLogRead m unit arr s else reread s m (arrayBytes unit arr 0)

/-- ERROR LOG, clear (R308, R297). -/
def execErrorLogClear (m : Mgmt) (unit : BitVec 16) (arr : Nat) (s : State) : Host.Outcome State Fault Refusal :=
  if m.op = 0x22 then opErrorLogClear m unit arr s else reread s m (arrayBytes unit arr 1)

/-- ERROR LOG, pop (R308, R297). -/
def execErrorLogPop (m : Mgmt) (unit : BitVec 16) (arr : Nat) (s : State) : Host.Outcome State Fault Refusal :=
  if m.op = 0x22 then opErrorLogPop m unit arr s else reread s m (arrayBytes unit arr 2)

/-- INJECT (R308, R298). -/
def execInject (m : Mgmt) (unit : BitVec 16) (arr : Nat) (addr : BitVec 48) (arm iue : Bool) (s : State) :
    Host.Outcome State Fault Refusal :=
  if m.op = 0x23 then opInject m unit arr addr arm iue s
  else reread s m (leBytes 4 unit.toNat ++ leBytes 4 arr ++ leBytes 8 addr.toNat ++
      leBytes 4 ((if arm then 1 else 0) + (if iue then 2 else 0)))

/-- LOAD IMAGE (R308, R384, R386, R388). -/
def execLoadImage (m : Mgmt) (dies : BitVec 12) (img : Image) (s : State) : Host.Outcome State Fault Refusal :=
  if m.op = 0x24 then opLoadImage m dies img s else reread s m (leBytes 4 dies.toNat ++ imageBytes img ++ img.sig)

/-- ACTIVATE (R308, R389). -/
def execActivate (m : Mgmt) (dies : BitVec 12) (idx : BitVec 8) (s : State) : Host.Outcome State Fault Refusal :=
  if m.op = 0x25 then opActivate m dies idx s else reread s m (leBytes 4 dies.toNat ++ leBytes 4 idx.toNat)

/-- START DEVICE, cold (R308, R386, R387). -/
def execStartDeviceCold (m : Mgmt) (s : State) : Host.Outcome State Fault Refusal :=
  if m.op = 0x26 then opStartDeviceCold m s else reread s m (leBytes 4 0)

/-- START DEVICE, warm (R308, R386, R387). -/
def execStartDeviceWarm (m : Mgmt) (s : State) : Host.Outcome State Fault Refusal :=
  if m.op = 0x26 then opStartDeviceWarm m s else reread s m (leBytes 4 1)

/-- RETRAIN LINK (R308, R369, R388). -/
def execRetrainLink (m : Mgmt) (link : Nat) (s : State) : Host.Outcome State Fault Refusal :=
  if m.op = 0x27 then opRetrainLink m link s else reread s m (leBytes 4 link)

/-- SPARE (R308, R390). -/
def execSpare (m : Mgmt) (unit : BitVec 16) (u : SpareUnit) (s : State) : Host.Outcome State Fault Refusal :=
  if m.op = 0x28 then opSpare m unit u s else reread s m (leBytes 4 unit.toNat ++ leBytes 4 (spareNumber u))

/-- RETIRE CORE (R308, R13, R391). -/
def execRetireCore (m : Mgmt) (core : BitVec 16) (s : State) : Host.Outcome State Fault Refusal :=
  if m.op = 0x29 then opRetireCore m core s else reread s m (leBytes 4 core.toNat)

/-- FENCE, in (R308, R10, R391, R392). -/
def execFenceIn (m : Mgmt) (unit : BitVec 16) (s : State) : Host.Outcome State Fault Refusal :=
  if m.op = 0x2A then opFenceIn m unit s else reread s m (leBytes 4 unit.toNat ++ leBytes 4 1)

/-- FENCE, out (R308, R10, R391, R392). -/
def execFenceOut (m : Mgmt) (unit : BitVec 16) (s : State) : Host.Outcome State Fault Refusal :=
  if m.op = 0x2A then opFenceOut m unit s else reread s m (leBytes 4 unit.toNat ++ leBytes 4 0)

end Sys2Proof.Machine
end

