-- ==== Sys2Proof/Machine/Session.lean ====
section
/-! DEFINITION. SPDM requests and sessions (R306, R307, R376, R379, R385). The request codes that name an answer are those
of the SPDM specification (log 10). -/

namespace Sys2Proof.Machine

/-- An answer to an SPDM request on a management connection; the responder exists from power-up (R386). -/
def spdmRequest (s : State) (conn : Nat) (f : State → State) : Host.Outcome State Fault Refusal :=
  .next (if s.dev = .off ∨ (s.mgmtConns.get? conn).isNone then s else f s)

/-- The answer to a request whose bytes the SPDM specification gives. -/
def State.spdmAnswer (s : State) (conn code : Nat) : State := s.emit (.spdm conn code (Config.spdmAnswer s.tick code))

/-- GET_VERSION (R306). -/
def execGetVersion (conn : Nat) (s : State) : Host.Outcome State Fault Refusal :=
  spdmRequest s conn (fun s => s.spdmAnswer conn 0x84)

/-- GET_CAPABILITIES (R306). -/
def execGetCapabilities (conn : Nat) (s : State) : Host.Outcome State Fault Refusal :=
  spdmRequest s conn (fun s => s.spdmAnswer conn 0xE1)

/-- NEGOTIATE_ALGORITHMS (R306). -/
def execNegotiateAlgorithms (conn : Nat) (s : State) : Host.Outcome State Fault Refusal :=
  spdmRequest s conn (fun s => s.spdmAnswer conn 0xE3)

/-- GET_DIGESTS (R306). -/
def execGetDigests (conn : Nat) (s : State) : Host.Outcome State Fault Refusal :=
  spdmRequest s conn (fun s => s.spdmAnswer conn 0x81)

/-- GET_CERTIFICATE (R306). -/
def execGetCertificate (conn : Nat) (s : State) : Host.Outcome State Fault Refusal :=
  spdmRequest s conn (fun s => s.spdmAnswer conn 0x82)

/-- CHALLENGE (R306): the answer signs the nonce with the device identity key. -/
def execChallenge (conn : Nat) (nonce : List Byte) (s : State) : Host.Outcome State Fault Refusal :=
  spdmRequest s conn (fun s => s.emit (.spdm conn 0x83 (Config.spdmAnswer s.tick 0x83 ++ fit 64 (Config.deviceSign nonce))))

/-- GET_MEASUREMENTS (R306, R383): the eight blocks. -/
def execGetMeasurements (conn : Nat) (s : State) : Host.Outcome State Fault Refusal :=
  spdmRequest s conn (fun s =>
    s.emit (.spdm conn 0xE0 ((List.range 8).flatMap (fun i => fit 64 ((s.meas.get? i).getD [])))))

/-- A context of a tenant digest has a session, or one is being opened for it (R307). -/
def State.tenantBusy (s : State) (digest : List Byte) : Bool :=
  s.ctxs.any (fun c => decide (c.2.digest = digest) && (c.2.session.isSome || s.sessions.any (fun x => decide (x.2 = .opening (some digest)))))

/-- KEY_EXCHANGE (R306, R307): mutual authentication is required; a second one for a context is refused with Busy. -/
def execKeyExchange (conn : Nat) (mutualAuth : Bool) (tenant : Option (List Byte)) (s : State) :
    Host.Outcome State Fault Refusal :=
  spdmRequest s conn (fun s =>
    if !mutualAuth then s.emit (.spdmError conn 0x05)
    else if tenant.any s.tenantBusy then s.emit (.spdmError conn 0x03)
    else
      let n := s.nextConn
      ({ s with sessions := s.sessions.set n (.opening tenant), nextConn := n + 1 }).spdmAnswer conn 0xE4)

/-- A session refused in FINISH. -/
def State.refuse (s : State) (sess code : Nat) : State :=
  { s.emit (.spdmError sess code) with sessions := s.sessions.erase sess }

/-- The text of an info string. -/
def infoBytes (t : String) : List Byte := t.toList.map (fun c => BitVec.ofNat 8 c.toNat)

/-- The RoCE keys of a new session (R378): the secret of each direction, of 64 bytes, from the export master secret. -/
def Keys.start (tick sess : Nat) : Keys :=
  let ems := Config.exportSecret tick sess
  { phase := false, both := false, high := 0, answers := [], rx := Config.hkdfExpand ems (infoBytes "yelja h2d") 64
    tx := Config.hkdfExpand ems (infoBytes "yelja d2h") 64, sendPhase := false, sent := 0 }

/-- FINISH (R307, R385): the requester's key makes the session the administrator's, or the one session of a context. -/
def execFinish (sess : Nat) (keyDigest : List Byte) (sigOk : Bool) (s : State) : Host.Outcome State Fault Refusal :=
  .next (match s.sessions.get? sess with
  | some (.opening _) =>
    match s.fuseAdmin with
    | none => s.refuse sess 0x05
    | some admin =>
      if !sigOk then s.refuse sess 0x05
      else if keyDigest = admin then { s.spdmAnswer sess 0xE5 with sessions := s.sessions.set sess .admin }
      else
        match s.ctxs.find? (fun c => decide (c.2.digest = keyDigest)) with
        | none => s.refuse sess 0x05
        | some (ctx, c) =>
          if c.session.isSome then s.refuse sess 0x03
          else
            ({ s.spdmAnswer sess 0xE5 with sessions := s.sessions.set sess (.tenant ctx) }).updCtx ctx (fun c =>
              { c with session := some sess, keys := some (Keys.start s.tick sess) })
  | _ => s)

/-- A session that is established. -/
def State.inSession (s : State) (sess : Nat) : Bool :=
  match s.sessions.get? sess with
  | some .admin => true
  | some (.tenant _) => true
  | _ => false

/-- HEARTBEAT (R306). -/
def execHeartbeat (sess : Nat) (s : State) : Host.Outcome State Fault Refusal :=
  .next (if s.inSession sess then s.spdmAnswer sess 0xE8 else s)

/-- HEARTBEAT_EXPIRY (R301, R306). -/
def execHeartbeatExpiry (sess : Nat) (s : State) : Host.Outcome State Fault Refusal := .next (s.endSess sess)

/-- The keys after KEY_UPDATE (R379): each secret is replaced, the device sends in the other phase from now on, and it accepts
the phase in use until the other one begins. -/
def Keys.update (k : Keys) : Keys :=
  let up (secret : List Byte) : List Byte := Config.hkdfExpand secret (infoBytes "upd") 64
  { phase := if k.both then !k.phase else k.phase, both := true, high := if k.both then 0 else k.high
    answers := if k.both then [] else k.answers, rx := up k.rx, tx := up k.tx, sendPhase := !k.sendPhase, sent := 0 }

/-- KEY_UPDATE (R307, R379). -/
def execKeyUpdate (sess : Nat) (s : State) : Host.Outcome State Fault Refusal :=
  .next (match s.sessions.get? sess with
  | some .admin => s.spdmAnswer sess 0xE9
  | some (.tenant ctx) => (s.spdmAnswer sess 0xE9).updCtx ctx (fun c => { c with keys := c.keys.map Keys.update })
  | _ => s)

/-- END_SESSION (R301). -/
def execEndSession (sess : Nat) (s : State) : Host.Outcome State Fault Refusal :=
  .next (if s.inSession sess then (s.spdmAnswer sess 0xEC).endSess sess else s)

/-- Any other SPDM request (R306). -/
def execUnsupportedRequest (conn : Nat) (_code : BitVec 8) (s : State) : Host.Outcome State Fault Refusal :=
  spdmRequest s conn (fun s => s.emit (.spdmError conn 0x07))

end Sys2Proof.Machine
end

