-- ==== Sys2Proof/Machine/Sync.lean ====
section
/-! DEFINITION. Semaphore words and `wr.adv` (R148, R152 to R155), groups (R355) and barriers (R362 to R364). -/

namespace Sys2Proof.Machine

/-! ## Semaphores -/

/-- A semaphore word (R152): a number outside the kernel's range raises cause 12. -/
def semWord (s : State) (srcs dsts : List XReg) (n : BitVec 8) (f : Env → WordEnd) : Host.Outcome State Fault Refusal :=
  strandWord s srcs dsts (fun e =>
    if e.kn.desc.ownsSem n.toNat then f e else .trap 12 false (0x900000 + BitVec.ofNat 32 (8 * n.toNat)) e.st s)

/-- The sheaves that signal a semaphore are forced whole (R193). -/
def State.forceSignals (s : State) (e : Env) (n : Nat) : State :=
  s.stookStep e.core (fun k => k.forceWhole e.core (e.demander 0) (fun h => h.signals e.core e.tk n))

/-- A wait or try of an amount would be served at once. -/
def State.semFits (s : State) (key : Nat) (a : Word) : Bool :=
  match s.sems.get? key with
  | some q => !q.ovf && q.q.isEmpty && decide (a ≤ q.count)
  | none => false

/-- SEM_WAIT (R153). -/
def execSemWait (n : BitVec 8) (x : XReg) (s : State) : Host.Outcome State Fault Refusal :=
  semWord s [x] [] n (fun e =>
    let a := e.st.getX x
    let s := s.forceSignals e n.toNat
    if (s.core e.core).switch && !s.semFits (semKey e.tk n.toNat) a then .block (.poll e.mark) s
    else .ended ((s.setStrand e.key (s.park e.core e.st .sem)).queueWait e.tk n.toNat (.strand e.key) a.toNat))

/-- SEM_SIG (R153, R155): a release, once every pending result has arrived. -/
def execSemSig (n : BitVec 8) (x : XReg) (s : State) : Host.Outcome State Fault Refusal :=
  semWord s [x] [] n (fun e =>
    fenceEnd e s (.ended (((WordEnd.done e.st s).apply e).signal e.core e.tk n.toNat (e.st.getX x).toNat false)))

/-- SEM_TRY (R153). -/
def execSemTry (d : XReg) (n : BitVec 8) (x : XReg) (s : State) : Host.Outcome State Fault Refusal :=
  semWord s [x] [d] n (fun e =>
    let a := e.st.getX x
    let s := s.forceSignals e n.toNat
    let key := semKey e.tk n.toNat
    if s.semFits key a then
      let s := if ((s.sems.get? key).map (·.sys)).getD false then s.dropLines else s
      .done (e.st.setX d 1) { s with sems := s.sems.modify key (fun q => { q with count := q.count - a }) }
    else .done (e.st.setX d 0) s)

/-- SEM_RD (R153). -/
def execSemRd (d : XReg) (n : BitVec 8) (s : State) : Host.Outcome State Fault Refusal :=
  semWord s [] [d] n (fun e =>
    .done (e.st.setX d (((s.sems.get? (semKey e.tk n.toNat)).map (·.count)).getD 0)) s)

/-- SEM_SET (R151, R153, R155). -/
def execSemSet (n : BitVec 8) (x : XReg) (s : State) : Host.Outcome State Fault Refusal :=
  semWord s [x] [] n (fun e =>
    let key := semKey e.tk n.toNat
    fenceEnd e s (.ended ((let t := (WordEnd.done e.st s).apply e
      { t with sems := t.sems.modify key (fun q => if q.ovf then q else { q with count := e.st.getX x }) }).serveSem key)))

/-- The number and state of the enabled windrow with an arrival semaphore, the lowest-numbered one (R148, R149). -/
def Core.windrowOf (k : Core) (n : BitVec 8) : Option (Fin 8 × Windrow) :=
  (List.finRange 8).findSome? (fun i =>
    let w := k.windrows[i.val]
    if w.en && w.sem == n then some (i, w) else none)

/-- WR_ADV (R148). -/
def execWrAdv (n : BitVec 8) (x : XReg) (s : State) : Host.Outcome State Fault Refusal :=
  semWord s [x] [] n (fun e =>
    let v := e.st.getX x
    match (s.core e.core).windrowOf n with
    | none => .trap 12 false (0x900000 + BitVec.ofNat 32 (8 * n.toNat)) e.st s
    | some (i, w) =>
      if w.rows.toNat < v.toNat then .trap 12 false (0x910800 + BitVec.ofNat 32 (0x20 * i.val)) e.st s
      else if v = 0 then .done e.st s
      else if (w.arrived - w.head).toNat < v.toNat then .block (.poll e.mark) s
      else
        .done e.st (s.updCore e.core (fun k =>
          { k with windrows := k.windrows.set i.val { w with head := w.head + v } })))

/-! ## Groups (R355) -/

/-- A group word: a number above 255 raises cause 12. -/
def groupWord (s : State) (x : XReg) (dsts : List XReg) (f : Env → Nat → WordEnd) : Host.Outcome State Fault Refusal :=
  strandWord s [x] dsts (fun e =>
    let g := e.st.getX x
    if 255 < g.toNat then .trap 12 false g e.st s else f e g.toNat)

/-- GRP_JOIN (R353, R355). -/
def execGrpJoin (x : XReg) (s : State) : Host.Outcome State Fault Refusal :=
  groupWord s x [] (fun e g =>
    if (e.kn.members g).contains e.st.num then .done e.st s
    else if g ≠ 0 ∧ 16 ≤ e.kn.memberships e.st.num then .trap 12 false (0xFFFFFE00 + BitVec.ofNat 32 g) e.st s
    else .done e.st (s.setKernel e.tm.lid (e.kn.setMembers g (e.kn.members g ++ [e.st.num]))))

/-- GRP_LEAVE (R353, R355). -/
def execGrpLeave (x : XReg) (s : State) : Host.Outcome State Fault Refusal :=
  groupWord s x [] (fun e g =>
    if g = 0 then .trap 12 false 0xFFFFFE00 e.st s
    else if !(e.kn.members g).contains e.st.num then .done e.st s
    else .done e.st (s.setKernel e.tm.lid (e.kn.leave g e.st.num)))

/-- GRP_SIZE (R355). -/
def execGrpSize (d x : XReg) (s : State) : Host.Outcome State Fault Refusal :=
  groupWord s x [d] (fun e g => .done (e.st.setX d (BitVec.ofNat 32 (e.kn.members g).length)) s)

/-- GRP_RANK (R355). -/
def execGrpRank (d x : XReg) (s : State) : Host.Outcome State Fault Refusal :=
  groupWord s x [d] (fun e g =>
    .done (e.st.setX d (match (e.kn.members g).idxOf? e.st.num with
      | some i => BitVec.ofNat 32 i
      | none => 0xFFFFFFFF)) s)

/-! ## Barriers (R362 to R364) -/

/-- Misuse of a barrier (R364). -/
def barTrap (e : Env) (s : State) (m : Nat) (n : BitVec 6) : WordEnd :=
  .trap 12 false (0xFFFFFC00 + BitVec.ofNat 32 (0x40 * m + n.toNat)) e.st s

/-- BAR_INIT (R362, R363). -/
def execBarInit (n : BitVec 6) (x : XReg) (s : State) : Host.Outcome State Fault Refusal :=
  strandWord s [x] [] (fun e =>
    let w := e.st.getX x
    let put (b : Bar) : WordEnd := .done e.st (s.setKernel e.tm.lid { e.kn with bars := e.kn.bars.set n.toNat b })
    match e.kn.bars.get? n.toNat with
    | none => if barWordOk w then put { word := w, k := 0, arr := [], broken := false, results := [] } else barTrap e s 4 n
    | some b =>
      if b.broken then barTrap e s 0 n
      else if !barWordOk w then barTrap e s 4 n
      else if b.word = w then .done e.st s
      else if b.arr.isEmpty then put { b with word := w }
      else barTrap e s 4 n)

/-- What an arrival does (R363). -/
inductive Arrived where
  | trap (m : Nat)
  | wait
  /-- It has arrived: the strand and kernel after it. -/
  | ok (st : Strand) (kn : Kernel)

/-- `bar.arrive` of a strand with a contribution. -/
def barArrive (e : Env) (n : BitVec 6) (c : Word) : Arrived :=
  match e.kn.bars.get? n.toNat with
  | none => .trap 1
  | some b =>
    if b.broken then .trap 0
    else if !(e.kn.members b.grp).contains e.st.num then .trap 2
    else if (match e.st.arrivals.get? n.toNat with | some a => a.flag && decide (a.phase = b.k) | none => false) then .wait
    else
      let after : Bar := { b with arr := b.arr ++ [(e.st.num, c)] }
      .ok { e.st with arrivals := e.st.arrivals.set n.toNat { phase := b.k, flag := true } }
        { e.kn with bars := e.kn.bars.set n.toNat (after.settle (e.kn.members b.grp)) }

/-- `bar.wait` of a strand of kernel `kn`, which blocks as `bar.wait` again if its phase is open (R363). -/
def barWait (e : Env) (s : State) (st : Strand) (kn : Kernel) (n : BitVec 6) (d : XReg) (w : Wait) : WordEnd :=
  match kn.bars.get? n.toNat with
  | none => barTrap e s 1 n
  | some b =>
    match st.arrivals.get? n.toNat with
    | none => barTrap e s 3 n
    | some a =>
      if !a.flag then barTrap e s 3 n
      else if a.phase < b.k then
        .done ({ st with arrivals := st.arrivals.set n.toNat { a with flag := false } }.setX d
          ((b.results.get? a.phase).getD 0)) s
      else if b.broken then barTrap e s 0 n
      else .ended (s.setStrand e.key (s.park e.core st w))

/-- BAR_ARRIVE (R363, R366): a release. -/
def execBarArrive (n : BitVec 6) (x : XReg) (s : State) : Host.Outcome State Fault Refusal :=
  strandWord s [x] [] (fun e =>
    match barArrive e n (e.st.getX x) with
    | .trap m => barTrap e s m n
    | .wait => .block (.poll e.mark) s
    | .ok st kn => fenceEnd e s (.done st (s.setKernel e.tm.lid kn)))

/-- BAR_WAIT (R363). -/
def execBarWait (d : XReg) (n : BitVec 6) (s : State) : Host.Outcome State Fault Refusal :=
  strandWord s [] [d] (fun e => barWait e s e.st e.kn n d (.poll e.mark))

/-- BAR_SYNC (R363): an arrival, then a wait; once it has arrived it executes again as `bar.wait`. -/
def execBarSync (d : XReg) (n : BitVec 6) (x : XReg) (s : State) : Host.Outcome State Fault Refusal :=
  strandWord s [x] [d] (fun e =>
    if e.st.wait = some .synced then barWait e s e.st e.kn n d .synced
    else
      match barArrive e n (e.st.getX x) with
      | .trap m => barTrap e s m n
      | .wait => .block (.poll e.mark) s
      | .ok st kn => fenceEnd e s (barWait e (s.setKernel e.tm.lid kn) st kn n d .synced))

/-- BARRIER_TIMEOUT (R362): an open phase with arrivals breaks; a strand that waits on it raises the timeout trap when
its word executes again (log 23). -/
def execBarrierTimeout (lid : Nat) (n : BitVec 6) (s : State) : Host.Outcome State Fault Refusal :=
  .next (s.updKernel lid (fun k => { k with bars := k.bars.modify n.toNat (fun b =>
    if b.timeout ≠ 0 ∧ b.arr ≠ [] then { b with broken := true } else b) }))

end Sys2Proof.Machine
end

