-- ==== Sys2Proof/Machine/Dispatch.lean ====
section
/-! DEFINITION. The meaning of each step: one arm per constructor of `Instr`, one call of its meaning. -/

namespace Sys2Proof.Machine

def exec (i : Instr) (s : State) : Host.Outcome State Fault Refusal :=
  match i with
  | .lui d imm => Sys2Proof.Machine.execLui d imm s
  | .auipc d imm => Sys2Proof.Machine.execAuipc d imm s
  | .jal d off => Sys2Proof.Machine.execJal d off s
  | .jalr d st_ imm => Sys2Proof.Machine.execJalr d st_ imm s
  | .beq st_ t off => Sys2Proof.Machine.execBeq st_ t off s
  | .bne st_ t off => Sys2Proof.Machine.execBne st_ t off s
  | .blt st_ t off => Sys2Proof.Machine.execBlt st_ t off s
  | .bge st_ t off => Sys2Proof.Machine.execBge st_ t off s
  | .bltu st_ t off => Sys2Proof.Machine.execBltu st_ t off s
  | .bgeu st_ t off => Sys2Proof.Machine.execBgeu st_ t off s
  | .lb d st_ imm => Sys2Proof.Machine.execLb d st_ imm s
  | .lh d st_ imm => Sys2Proof.Machine.execLh d st_ imm s
  | .lw d st_ imm => Sys2Proof.Machine.execLw d st_ imm s
  | .lbu d st_ imm => Sys2Proof.Machine.execLbu d st_ imm s
  | .lhu d st_ imm => Sys2Proof.Machine.execLhu d st_ imm s
  | .sb t st_ imm => Sys2Proof.Machine.execSb t st_ imm s
  | .sh t st_ imm => Sys2Proof.Machine.execSh t st_ imm s
  | .sw t st_ imm => Sys2Proof.Machine.execSw t st_ imm s
  | .addi d st_ imm => Sys2Proof.Machine.execAddi d st_ imm s
  | .slti d st_ imm => Sys2Proof.Machine.execSlti d st_ imm s
  | .sltiu d st_ imm => Sys2Proof.Machine.execSltiu d st_ imm s
  | .xori d st_ imm => Sys2Proof.Machine.execXori d st_ imm s
  | .ori d st_ imm => Sys2Proof.Machine.execOri d st_ imm s
  | .andi d st_ imm => Sys2Proof.Machine.execAndi d st_ imm s
  | .slli d st_ sh => Sys2Proof.Machine.execSlli d st_ sh s
  | .srli d st_ sh => Sys2Proof.Machine.execSrli d st_ sh s
  | .srai d st_ sh => Sys2Proof.Machine.execSrai d st_ sh s
  | .add d st_ t => Sys2Proof.Machine.execAdd d st_ t s
  | .sub d st_ t => Sys2Proof.Machine.execSub d st_ t s
  | .sll d st_ t => Sys2Proof.Machine.execSll d st_ t s
  | .slt d st_ t => Sys2Proof.Machine.execSlt d st_ t s
  | .sltu d st_ t => Sys2Proof.Machine.execSltu d st_ t s
  | .xor d st_ t => Sys2Proof.Machine.execXor d st_ t s
  | .srl d st_ t => Sys2Proof.Machine.execSrl d st_ t s
  | .sra d st_ t => Sys2Proof.Machine.execSra d st_ t s
  | .or d st_ t => Sys2Proof.Machine.execOr d st_ t s
  | .and d st_ t => Sys2Proof.Machine.execAnd d st_ t s
  | .mul d st_ t => Sys2Proof.Machine.execMul d st_ t s
  | .mulh d st_ t => Sys2Proof.Machine.execMulh d st_ t s
  | .mulhsu d st_ t => Sys2Proof.Machine.execMulhsu d st_ t s
  | .mulhu d st_ t => Sys2Proof.Machine.execMulhu d st_ t s
  | .div d st_ t => Sys2Proof.Machine.execDiv d st_ t s
  | .divu d st_ t => Sys2Proof.Machine.execDivu d st_ t s
  | .rem d st_ t => Sys2Proof.Machine.execRem d st_ t s
  | .remu d st_ t => Sys2Proof.Machine.execRemu d st_ t s
  | .fence imm st_ d => Sys2Proof.Machine.execFence imm st_ d s
  | .fenceI imm st_ d => Sys2Proof.Machine.execFenceI imm st_ d s
  | .ecall => Sys2Proof.Machine.execEcall s
  | .ebreak => Sys2Proof.Machine.execEbreak s
  | .csrrw d csr st_ => Sys2Proof.Machine.execCsrrw d csr st_ s
  | .csrrs d csr st_ => Sys2Proof.Machine.execCsrrs d csr st_ s
  | .csrrc d csr st_ => Sys2Proof.Machine.execCsrrc d csr st_ s
  | .csrrwi d csr u => Sys2Proof.Machine.execCsrrwi d csr u s
  | .csrrsi d csr u => Sys2Proof.Machine.execCsrrsi d csr u s
  | .csrrci d csr u => Sys2Proof.Machine.execCsrrci d csr u s
  | .illegalInstruction w => Sys2Proof.Machine.execIllegalInstruction w s
  | .fetchAddressTrap a => Sys2Proof.Machine.execFetchAddressTrap a s
  | .lpBegin st_ e => Sys2Proof.Machine.execLpBegin st_ e s
  | .lpBeginRot st_ e => Sys2Proof.Machine.execLpBeginRot st_ e s
  | .lpBegini n e => Sys2Proof.Machine.execLpBegini n e s
  | .lpBeginiRot n e => Sys2Proof.Machine.execLpBeginiRot n e s
  | .lpExit => Sys2Proof.Machine.execLpExit s
  | .lpPop => Sys2Proof.Machine.execLpPop s
  | .lpIdx d lvl => Sys2Proof.Machine.execLpIdx d lvl s
  | .trap code => Sys2Proof.Machine.execTrap code s
  | .tret => Sys2Proof.Machine.execTret s
  | .sdone => Sys2Proof.Machine.execSdone s
  | .feWait st_ => Sys2Proof.Machine.execFeWait st_ s
  | .feChk d st_ => Sys2Proof.Machine.execFeChk d st_ s
  | .asyncResultArrive key r => Sys2Proof.Machine.execAsyncResultArrive key r s
  | .yield => Sys2Proof.Machine.execYield s
  | .depWait => Sys2Proof.Machine.execDepWait s
  | .depTrig => Sys2Proof.Machine.execDepTrig s
  | .tcLd st_ => Sys2Proof.Machine.execTcLd st_ s
  | .tcSet n st_ => Sys2Proof.Machine.execTcSet n st_ s
  | .tcPush d => Sys2Proof.Machine.execTcPush d s
  | .vcsLd off st_ t => Sys2Proof.Machine.execVcsLd off st_ t s
  | .tcForce st_ t => Sys2Proof.Machine.execTcForce st_ t s
  | .tcDrain => Sys2Proof.Machine.execTcDrain s
  | .semWait n st_ => Sys2Proof.Machine.execSemWait n st_ s
  | .semSig n st_ => Sys2Proof.Machine.execSemSig n st_ s
  | .semTry d n st_ => Sys2Proof.Machine.execSemTry d n st_ s
  | .semRd d n => Sys2Proof.Machine.execSemRd d n s
  | .semSet n st_ => Sys2Proof.Machine.execSemSet n st_ s
  | .wrAdv n st_ => Sys2Proof.Machine.execWrAdv n st_ s
  | .grpJoin st_ => Sys2Proof.Machine.execGrpJoin st_ s
  | .grpLeave st_ => Sys2Proof.Machine.execGrpLeave st_ s
  | .grpSize d st_ => Sys2Proof.Machine.execGrpSize d st_ s
  | .grpRank d st_ => Sys2Proof.Machine.execGrpRank d st_ s
  | .barInit n st_ => Sys2Proof.Machine.execBarInit n st_ s
  | .barArrive n st_ => Sys2Proof.Machine.execBarArrive n st_ s
  | .barWait d n => Sys2Proof.Machine.execBarWait d n s
  | .barSync d n st_ => Sys2Proof.Machine.execBarSync d n st_ s
  | .rngInit st_ t => Sys2Proof.Machine.execRngInit st_ t s
  | .rngNext d => Sys2Proof.Machine.execRngNext d s
  | .ppPush n st_ => Sys2Proof.Machine.execPpPush n st_ s
  | .ppPop d n => Sys2Proof.Machine.execPpPop d n s
  | .ppPeek d n => Sys2Proof.Machine.execPpPeek d n s
  | .grBegin rg st_ => Sys2Proof.Machine.execGrBegin rg st_ s
  | .grEnd rg => Sys2Proof.Machine.execGrEnd rg s
  | .grCfg st_ => Sys2Proof.Machine.execGrCfg st_ s
  | .grInval st_ => Sys2Proof.Machine.execGrInval st_ s
  | .vaddF d st_ t p => Sys2Proof.Machine.execVaddF d st_ t p s
  | .vsubF d st_ t p => Sys2Proof.Machine.execVsubF d st_ t p s
  | .vmulF d st_ t p => Sys2Proof.Machine.execVmulF d st_ t p s
  | .vfmaF d st_ t p => Sys2Proof.Machine.execVfmaF d st_ t p s
  | .vminF d st_ t p => Sys2Proof.Machine.execVminF d st_ t p s
  | .vmaxF d st_ t p => Sys2Proof.Machine.execVmaxF d st_ t p s
  | .vabsF d st_ p => Sys2Proof.Machine.execVabsF d st_ p s
  | .vnegF d st_ p => Sys2Proof.Machine.execVnegF d st_ p s
  | .vrcp d st_ p => Sys2Proof.Machine.execVrcp d st_ p s
  | .vsqrt d st_ p => Sys2Proof.Machine.execVsqrt d st_ p s
  | .vrsqrt d st_ p => Sys2Proof.Machine.execVrsqrt d st_ p s
  | .vexp2 d st_ p => Sys2Proof.Machine.execVexp2 d st_ p s
  | .vlog2 d st_ p => Sys2Proof.Machine.execVlog2 d st_ p s
  | .vaddI d st_ t p => Sys2Proof.Machine.execVaddI d st_ t p s
  | .vsubI d st_ t p => Sys2Proof.Machine.execVsubI d st_ t p s
  | .vmulI d st_ t p => Sys2Proof.Machine.execVmulI d st_ t p s
  | .vmulhI d st_ t p => Sys2Proof.Machine.execVmulhI d st_ t p s
  | .vminI d st_ t p => Sys2Proof.Machine.execVminI d st_ t p s
  | .vmaxI d st_ t p => Sys2Proof.Machine.execVmaxI d st_ t p s
  | .vand d st_ t p => Sys2Proof.Machine.execVand d st_ t p s
  | .vor d st_ t p => Sys2Proof.Machine.execVor d st_ t p s
  | .vxor d st_ t p => Sys2Proof.Machine.execVxor d st_ t p s
  | .vshl d st_ t p => Sys2Proof.Machine.execVshl d st_ t p s
  | .vshr d st_ t p => Sys2Proof.Machine.execVshr d st_ t p s
  | .vsra d st_ t p => Sys2Proof.Machine.execVsra d st_ t p s
  | .vcmpFEq d st_ t p => Sys2Proof.Machine.execVcmpFEq d st_ t p s
  | .vcmpFNe d st_ t p => Sys2Proof.Machine.execVcmpFNe d st_ t p s
  | .vcmpFLt d st_ t p => Sys2Proof.Machine.execVcmpFLt d st_ t p s
  | .vcmpFLe d st_ t p => Sys2Proof.Machine.execVcmpFLe d st_ t p s
  | .vcmpIEq d st_ t p => Sys2Proof.Machine.execVcmpIEq d st_ t p s
  | .vcmpINe d st_ t p => Sys2Proof.Machine.execVcmpINe d st_ t p s
  | .vcmpILt d st_ t p => Sys2Proof.Machine.execVcmpILt d st_ t p s
  | .vcmpILe d st_ t p => Sys2Proof.Machine.execVcmpILe d st_ t p s
  | .vcmpILtu d st_ t p => Sys2Proof.Machine.execVcmpILtu d st_ t p s
  | .vcmpILeu d st_ t p => Sys2Proof.Machine.execVcmpILeu d st_ t p s
  | .vsel d st_ t p => Sys2Proof.Machine.execVsel d st_ t p s
  | .vmv d st_ p => Sys2Proof.Machine.execVmv d st_ p s
  | .vbcast d st_ p => Sys2Proof.Machine.execVbcast d st_ p s
  | .vpand d st_ t => Sys2Proof.Machine.execVpand d st_ t s
  | .vpor d st_ t => Sys2Proof.Machine.execVpor d st_ t s
  | .vpnot d st_ => Sys2Proof.Machine.execVpnot d st_ s
  | .vpcnt d st_ => Sys2Proof.Machine.execVpcnt d st_ s
  | .vld d st_ p => Sys2Proof.Machine.execVld d st_ p s
  | .vst d st_ p => Sys2Proof.Machine.execVst d st_ p s
  | .vlds d st_ t p => Sys2Proof.Machine.execVlds d st_ t p s
  | .vsts d st_ t p => Sys2Proof.Machine.execVsts d st_ t p s
  | .vldx d st_ t p => Sys2Proof.Machine.execVldx d st_ t p s
  | .vperm d st_ t p => Sys2Proof.Machine.execVperm d st_ t p s
  | .vslide d st_ t p => Sys2Proof.Machine.execVslide d st_ t p s
  | .vscan d st_ p => Sys2Proof.Machine.execVscan d st_ p s
  | .vcvt d st_ fmt sat p => Sys2Proof.Machine.execVcvt d st_ fmt sat p s
  | .vredSum d st_ p => Sys2Proof.Machine.execVredSum d st_ p s
  | .vredMax d st_ p => Sys2Proof.Machine.execVredMax d st_ p s
  | .vredMin d st_ p => Sys2Proof.Machine.execVredMin d st_ p s
  | .vredAnd d st_ p => Sys2Proof.Machine.execVredAnd d st_ p s
  | .vredOr d st_ p => Sys2Proof.Machine.execVredOr d st_ p s
  | .vnz d st_ x p => Sys2Proof.Machine.execVnz d st_ x p s
  | .vcst d st_ p => Sys2Proof.Machine.execVcst d st_ p s
  | .vhist d st_ p => Sys2Proof.Machine.execVhist d st_ p s
  | .vhmerge d st_ p => Sys2Proof.Machine.execVhmerge d st_ p s
  | .mm h a b d => Sys2Proof.Machine.execMm h a b d s
  | .mmTri h a b d => Sys2Proof.Machine.execMmTri h a b d s
  | .wload h a b d => Sys2Proof.Machine.execWload h a b d s
  | .wloadAns h a b d => Sys2Proof.Machine.execWloadAns h a b d s
  | .tstore h a d => Sys2Proof.Machine.execTstore h a d s
  | .tconv h a b d => Sys2Proof.Machine.execTconv h a b d s
  | .tcopy h a d => Sys2Proof.Machine.execTcopy h a d s
  | .tfill h b d => Sys2Proof.Machine.execTfill h b d s
  | .tclr h d => Sys2Proof.Machine.execTclr h d s
  | .vtCall h a b d => Sys2Proof.Machine.execVtCall h a b d s
  | .twalk h a b d => Sys2Proof.Machine.execTwalk h a b d s
  | .xfer h a b d => Sys2Proof.Machine.execXfer h a b d s
  | .wkNop => Sys2Proof.Machine.execWkNop s
  | .wkLd d a imm => Sys2Proof.Machine.execWkLd d a imm s
  | .wkLdx d a b sz => Sys2Proof.Machine.execWkLdx d a b sz s
  | .wkMov d a => Sys2Proof.Machine.execWkMov d a s
  | .wkAdd d a b => Sys2Proof.Machine.execWkAdd d a b s
  | .wkAddi d a imm => Sys2Proof.Machine.execWkAddi d a imm s
  | .wkCmp d a b cc => Sys2Proof.Machine.execWkCmp d a b cc s
  | .wkBr a imm => Sys2Proof.Machine.execWkBr a imm s
  | .wkLoop a imm => Sys2Proof.Machine.execWkLoop a imm s
  | .wkEmit a b => Sys2Proof.Machine.execWkEmit a b s
  | .wkZero => Sys2Proof.Machine.execWkZero s
  | .wkFlush => Sys2Proof.Machine.execWkFlush s
  | .wkSkip a => Sys2Proof.Machine.execWkSkip a s
  | .wkEnd => Sys2Proof.Machine.execWkEnd s
  | .walkerIllegalWord => Sys2Proof.Machine.execWalkerIllegalWord s
  | .walkerStepLimit => Sys2Proof.Machine.execWalkerStepLimit s
  | .mvNop => Sys2Proof.Machine.execMvNop s
  | .mvLi d imm => Sys2Proof.Machine.execMvLi d imm s
  | .mvAdd d st_ t => Sys2Proof.Machine.execMvAdd d st_ t s
  | .mvAddi d st_ imm => Sys2Proof.Machine.execMvAddi d st_ imm s
  | .mvSub d st_ t => Sys2Proof.Machine.execMvSub d st_ t s
  | .mvAnd d st_ t => Sys2Proof.Machine.execMvAnd d st_ t s
  | .mvShl d st_ t => Sys2Proof.Machine.execMvShl d st_ t s
  | .mvMul d st_ t => Sys2Proof.Machine.execMvMul d st_ t s
  | .mvBr cc st_ t imm => Sys2Proof.Machine.execMvBr cc st_ t imm s
  | .mvJal d imm => Sys2Proof.Machine.execMvJal d imm s
  | .mvJalReg d st_ => Sys2Proof.Machine.execMvJalReg d st_ s
  | .mvNest k st_ => Sys2Proof.Machine.execMvNest k st_ s
  | .mvLp k imm => Sys2Proof.Machine.execMvLp k imm s
  | .mvCopy w => Sys2Proof.Machine.execMvCopy w s
  | .mvGath w => Sys2Proof.Machine.execMvGath w s
  | .mvScat w => Sys2Proof.Machine.execMvScat w s
  | .mvTpose w => Sys2Proof.Machine.execMvTpose w s
  | .mvCvt w => Sys2Proof.Machine.execMvCvt w s
  | .mvRed w => Sys2Proof.Machine.execMvRed w s
  | .mvMcast w => Sys2Proof.Machine.execMvMcast w s
  | .mvAtom d st_ t op ty ret => Sys2Proof.Machine.execMvAtom d st_ t op ty ret s
  | .mvWin w => Sys2Proof.Machine.execMvWin w s
  | .mvZip w => Sys2Proof.Machine.execMvZip w s
  | .mvUnzip w => Sys2Proof.Machine.execMvUnzip w s
  | .mvCsum d => Sys2Proof.Machine.execMvCsum d s
  | .mvCsumSrc d => Sys2Proof.Machine.execMvCsumSrc d s
  | .mvNvm d st_ t qp dir => Sys2Proof.Machine.execMvNvm d st_ t qp dir s
  | .mvSig st_ n amt scope => Sys2Proof.Machine.execMvSig st_ n amt scope s
  | .mvTw st_ t => Sys2Proof.Machine.execMvTw st_ t s
  | .mvTwSem n st_ t => Sys2Proof.Machine.execMvTwSem n st_ t s
  | .mvFence => Sys2Proof.Machine.execMvFence s
  | .mvFenceRd d => Sys2Proof.Machine.execMvFenceRd d s
  | .mvRet => Sys2Proof.Machine.execMvRet s
  | .mvTrap imm => Sys2Proof.Machine.execMvTrap imm s
  | .illegalMoveWord => Sys2Proof.Machine.execIllegalMoveWord s
  | .moveCommandStart eng num => Sys2Proof.Machine.execMoveCommandStart eng num s
  | .scoreboardRegister eng num core => Sys2Proof.Machine.execScoreboardRegister eng num core s
  | .moveCommandRetire eng num => Sys2Proof.Machine.execMoveCommandRetire eng num s
  | .moveRunRetire eng => Sys2Proof.Machine.execMoveRunRetire eng s
  | .moveUncorrectableError eng num => Sys2Proof.Machine.execMoveUncorrectableError eng num s
  | .rollbackComplete lid => Sys2Proof.Machine.execRollbackComplete lid s
  | .windrowRowArrival eng num => Sys2Proof.Machine.execWindrowRowArrival eng num s
  | .pageWalkComplete die idx => Sys2Proof.Machine.execPageWalkComplete die idx s
  | .faultEventQueue eng num => Sys2Proof.Machine.execFaultEventQueue eng num s
  | .teamPlace team core => Sys2Proof.Machine.execTeamPlace team core s
  | .teamSwitchComplete core => Sys2Proof.Machine.execTeamSwitchComplete core s
  | .loftFill core team => Sys2Proof.Machine.execLoftFill core team s
  | .spillComplete core => Sys2Proof.Machine.execSpillComplete core s
  | .launchRecordFetch qid => Sys2Proof.Machine.execLaunchRecordFetch qid s
  | .recordAdmission qid => Sys2Proof.Machine.execRecordAdmission qid s
  | .kernelLoadComplete lid => Sys2Proof.Machine.execKernelLoadComplete lid s
  | .completionRecordWrite rec => Sys2Proof.Machine.execCompletionRecordWrite rec s
  | .rangeSteal key => Sys2Proof.Machine.execRangeSteal key s
  | .eventRingPost ctx => Sys2Proof.Machine.execEventRingPost ctx s
  | .evictTeam core => Sys2Proof.Machine.execEvictTeam core s
  | .barrierTimeout lid n => Sys2Proof.Machine.execBarrierTimeout lid n s
  | .nvmeCompletion eng num status data => Sys2Proof.Machine.execNvmeCompletion eng num status data s
  | .remoteAccessTimeout eng num => Sys2Proof.Machine.execRemoteAccessTimeout eng num s
  | .rrbLineExpiry die line => Sys2Proof.Machine.execRrbLineExpiry die line s
  | .contributionAccept pkg eng num elem => Sys2Proof.Machine.execContributionAccept pkg eng num elem s
  | .contributionResend pkg eng num elem => Sys2Proof.Machine.execContributionResend pkg eng num elem s
  | .contributionDeliver pa => Sys2Proof.Machine.execContributionDeliver pa s
  | .counterLowWordRead key off => Sys2Proof.Machine.execCounterLowWordRead key off s
  | .regionFieldWrite core off v => Sys2Proof.Machine.execRegionFieldWrite core off v s
  | .windrowEnable core w => Sys2Proof.Machine.execWindrowEnable core w s
  | .registerWrite t v => Sys2Proof.Machine.execRegisterWrite t v s
  | .teamSwitchRequest core => Sys2Proof.Machine.execTeamSwitchRequest core s
  | .switchPointTimeout core => Sys2Proof.Machine.execSwitchPointTimeout core s
  | .residencyQuantumExpiry core => Sys2Proof.Machine.execResidencyQuantumExpiry core s
  | .pipeOccupancySample rec => Sys2Proof.Machine.execPipeOccupancySample rec s
  | .pipeRebalanceWindow rec => Sys2Proof.Machine.execPipeRebalanceWindow rec s
  | .recordAging qid => Sys2Proof.Machine.execRecordAging qid s
  | .tailWrite p qid v => Sys2Proof.Machine.execTailWrite p qid v s
  | .cheadWrite p qid v => Sys2Proof.Machine.execCheadWrite p qid v s
  | .queueRestart p qid => Sys2Proof.Machine.execQueueRestart p qid s
  | .eheadWrite p v => Sys2Proof.Machine.execEheadWrite p v s
  | .erestart p => Sys2Proof.Machine.execErestart p s
  | .storageConnect p h => Sys2Proof.Machine.execStorageConnect p h s
  | .storageDisconnect p h => Sys2Proof.Machine.execStorageDisconnect p h s
  | .storageConnectComplete ctx h ok nst cntlid => Sys2Proof.Machine.execStorageConnectComplete ctx h ok nst cntlid s
  | .storagePairFailure ctx h => Sys2Proof.Machine.execStoragePairFailure ctx h s
  | .create m q digest => Sys2Proof.Machine.execCreate m q digest s
  | .grant m base size => Sys2Proof.Machine.execGrant m base size s
  | .release m base size => Sys2Proof.Machine.execRelease m base size s
  | .writeConfig m off words => Sys2Proof.Machine.execWriteConfig m off words s
  | .readConfig m off n => Sys2Proof.Machine.execReadConfig m off n s
  | .bindQueue m b => Sys2Proof.Machine.execBindQueue m b s
  | .unbindQueue m qid => Sys2Proof.Machine.execUnbindQueue m qid s
  | .lock m => Sys2Proof.Machine.execLock m s
  | .getReport m nonce => Sys2Proof.Machine.execGetReport m nonce s
  | .start m => Sys2Proof.Machine.execStart m s
  | .stop m => Sys2Proof.Machine.execStop m s
  | .teardown m => Sys2Proof.Machine.execTeardown m s
  | .resumeOne m eng num => Sys2Proof.Machine.execResumeOne m eng num s
  | .resumeRange m lo hi => Sys2Proof.Machine.execResumeRange m lo hi s
  | .failCommand m eng num => Sys2Proof.Machine.execFailCommand m eng num s
  | .readSuspension m eng num => Sys2Proof.Machine.execReadSuspension m eng num s
  | .invalidate m all lo hi => Sys2Proof.Machine.execInvalidate m all lo hi s
  | .setPackage m pkg => Sys2Proof.Machine.execSetPackage m pkg s
  | .countersRead m die offs => Sys2Proof.Machine.execCountersRead m die offs s
  | .countersWrite m die offs vs => Sys2Proof.Machine.execCountersWrite m die offs vs s
  | .errorLogRead m unit arr => Sys2Proof.Machine.execErrorLogRead m unit arr s
  | .errorLogClear m unit arr => Sys2Proof.Machine.execErrorLogClear m unit arr s
  | .errorLogPop m unit arr => Sys2Proof.Machine.execErrorLogPop m unit arr s
  | .inject m unit arr addr arm iue => Sys2Proof.Machine.execInject m unit arr addr arm iue s
  | .loadImage m dies img => Sys2Proof.Machine.execLoadImage m dies img s
  | .activate m dies idx => Sys2Proof.Machine.execActivate m dies idx s
  | .imageActivationComplete idx => Sys2Proof.Machine.execImageActivationComplete idx s
  | .startDeviceCold m => Sys2Proof.Machine.execStartDeviceCold m s
  | .startDeviceWarm m => Sys2Proof.Machine.execStartDeviceWarm m s
  | .deviceStartComplete => Sys2Proof.Machine.execDeviceStartComplete s
  | .retrainLink m link => Sys2Proof.Machine.execRetrainLink m link s
  | .spare m unit u => Sys2Proof.Machine.execSpare m unit u s
  | .retireCore m core => Sys2Proof.Machine.execRetireCore m core s
  | .fenceIn m unit => Sys2Proof.Machine.execFenceIn m unit s
  | .fenceOut m unit => Sys2Proof.Machine.execFenceOut m unit s
  | .getVersion conn => Sys2Proof.Machine.execGetVersion conn s
  | .getCapabilities conn => Sys2Proof.Machine.execGetCapabilities conn s
  | .negotiateAlgorithms conn => Sys2Proof.Machine.execNegotiateAlgorithms conn s
  | .getDigests conn => Sys2Proof.Machine.execGetDigests conn s
  | .getCertificate conn => Sys2Proof.Machine.execGetCertificate conn s
  | .challenge conn nonce => Sys2Proof.Machine.execChallenge conn nonce s
  | .getMeasurements conn => Sys2Proof.Machine.execGetMeasurements conn s
  | .keyExchange conn mutualAuth tenant => Sys2Proof.Machine.execKeyExchange conn mutualAuth tenant s
  | .finish sess keyDigest sigOk => Sys2Proof.Machine.execFinish sess keyDigest sigOk s
  | .heartbeat sess => Sys2Proof.Machine.execHeartbeat sess s
  | .heartbeatExpiry sess => Sys2Proof.Machine.execHeartbeatExpiry sess s
  | .keyUpdate sess => Sys2Proof.Machine.execKeyUpdate sess s
  | .endSession sess => Sys2Proof.Machine.execEndSession sess s
  | .unsupportedRequest conn code => Sys2Proof.Machine.execUnsupportedRequest conn code s
  | .managementConnectionRequest port priv0 => Sys2Proof.Machine.execManagementConnectionRequest port priv0 s
  | .contextConnectionRequest port priv0 ctx => Sys2Proof.Machine.execContextConnectionRequest port priv0 ctx s
  | .rdmaWriteVirtual p key va data => Sys2Proof.Machine.execRdmaWriteVirtual p key va data s
  | .rdmaReadVirtual p key va n => Sys2Proof.Machine.execRdmaReadVirtual p key va n s
  | .rdmaWritePhysical p pa data => Sys2Proof.Machine.execRdmaWritePhysical p pa data s
  | .rdmaReadPhysical p pa n => Sys2Proof.Machine.execRdmaReadPhysical p pa n s
  | .invalidRequest conn => Sys2Proof.Machine.execInvalidRequest conn s
  | .flitCrcFailure link lane => Sys2Proof.Machine.execFlitCrcFailure link lane s
  | .flitReceive link seq => Sys2Proof.Machine.execFlitReceive link seq s
  | .linkTrainingResult link good swid => Sys2Proof.Machine.execLinkTrainingResult link good swid s
  | .linkTrainingTimeout link => Sys2Proof.Machine.execLinkTrainingTimeout link s
  | .linkLaneFailure link lane => Sys2Proof.Machine.execLinkLaneFailure link lane s
  | .linkSpareSwap link lane => Sys2Proof.Machine.execLinkSpareSwap link lane s
  | .portCarrierChange port up => Sys2Proof.Machine.execPortCarrierChange port up s
  | .windowListAdvertise ws => Sys2Proof.Machine.execWindowListAdvertise ws s
  | .powerApplied => Sys2Proof.Machine.execPowerApplied s
  | .powerRemoved => Sys2Proof.Machine.execPowerRemoved s
  | .thermalTrip => Sys2Proof.Machine.execThermalTrip s
  | .flowLossTrip => Sys2Proof.Machine.execFlowLossTrip s
  | .thermalHold => Sys2Proof.Machine.execThermalHold s
  | .thermalRelease => Sys2Proof.Machine.execThermalRelease s
  | .clockStep up => Sys2Proof.Machine.execClockStep up s
  | .scrubError unit arr addr ue chan syn => Sys2Proof.Machine.execScrubError unit arr addr ue chan syn s

end Sys2Proof.Machine
end

