-- ==== Sys2Proof/Machine/Step.lean ====
section
/-! DEFINITION. One step of the device: the next agent fetches its instruction and executes it. -/

namespace Sys2Proof.Machine

/-- One step: the instruction that the next agent fetches, unless the fetch meets an uncorrectable error, and what the step
counts. An agent with nothing to execute leaves the device as it is but for the model's own bookkeeping. -/
def step (s : State) : Host.Outcome State Fault Refusal :=
  let t := s.acting s.nextAgent
  match t.fetch t.cur with
  | some i =>
    match t.fetchCheck with
    | (u, true) => .next (u.count t i)
    | (t, false) =>
      match exec i t with
      | .next u => .next (u.count t i)
      | .fault f => .fault f
      | .refused r => .refused r
  | none => .next t

/-- A state whose next step executes the instruction word that the opcode table numbers as `w` (log 2). -/
def State.withFetchWord (s : State) (nbits w : Nat) : State :=
  if nbits = 256 then s.withTileWord w
  else if nbits = 64 then s.withMoveWord w
  else if (decodeStrand (BitVec.ofNat 32 w)).isNone && (decodeWalker (BitVec.ofNat 32 w)).isSome then s.withWalkerWord w
  else s.withStrandWord w

end Sys2Proof.Machine
end

