-- ==== Sys2Proof/Safety.lean ====
section
/-! DEFINITION. What counts as a safe run, and the terms that claims use for the outcome of a strand word. -/

namespace Sys2Proof

/-- `n` steps from `s` all answer a next state. -/
def Safe : Nat → Machine.State → Prop
  | 0, _ => True
  | n + 1, s => ∃ t, Machine.step s = .next t ∧ Safe n t

open Machine

/-- A strand acts, `e` is what its word sees, and none of the registers that the word reads or writes is empty, so that
the word neither stalls nor traps on one (R91, R92). -/
structure Ready (s : State) (e : Env) (srcs dsts : List XReg) : Prop where
  acts : s.env = some e
  full : ∀ r ∈ srcs ++ dsts, e.st.isEmpty r = false

/-- Nothing is left to do on any core that an access could wait for, no sub-tile, tile store or registered move, and no
byte holds an error that a read could meet. -/
structure Quiet (s : State) : Prop where
  sheaves  : ∀ c ∈ s.cores, c.2.stook = []
  stores   : ∀ c ∈ s.cores, c.2.tq = []
  board    : ∀ c ∈ s.cores, c.2.sb = []
  poison   : s.poison = []
  injected : s.injected = []

/-- The state after a word completes sequentially: `st` is the strand and `t` the rest of the state as the word's own
effect leaves them; then come the loop-end event (R97) and the word boundary (R109). -/
def completed (e : Env) (st : Strand) (t : State) : State :=
  t.setStrand e.key (t.boundary e.core (st.loopEnd e.st.pc) (st.atEnd e.st.pc))

/-- The state after a word that passes control to `pc`: no loop-end event (R97). -/
def jumped (e : Env) (st : Strand) (t : State) (pc : Word) : State :=
  t.setStrand e.key (t.boundary e.core { st with pc := pc } false)

/-- The state after a word that must wait: its strand is BLOCKED in it, or stops at the boundary before it if a team
switch is pending (R83, R317), and `t` holds what its demands and forces have begun. -/
def blocked (e : Env) (t : State) (w : Wait) : State := t.setStrand e.key (t.park e.core e.st w)

/-- A rotation (R117): `rrb` falls by one modulo 16, and p5, p6, p7, p4 take the old p4, p5, p6, p7. -/
def rotated (st : Strand) : Strand :=
  { st with rrb := BitVec.ofNat 4 ((st.rrb.toNat + 15) % 16)
            p := #v[st.p[0], st.p[1], st.p[2], st.p[3], st.p[7], st.p[4], st.p[5], st.p[6]] }

/-- A strand just after it has taken an in-kernel trap (R101): every pending result has arrived, the saved registers
are written, the loop stack is set aside and the handler's address is in pc. -/
def trapped (st : Strand) (cause : Nat) (done : Bool) (info : Word) : Strand :=
  { st.deliverAll with
    kepc := st.pc, kcode := BitVec.ofNat 5 cause, kdone := done, kinfo := info
    saved := st.loops, loops := [], hflag := true, pc := st.ktvec }

/-- What a fatal trap of the strand of `e` leaves (R106, R348, R349): its kernel FAILED with the record of the trap, no
strand of it left to run. -/
structure KernelFailed (e : Env) (cause : Nat) (info : Word) (t : State) : Prop where
  record : ∃ k, t.kernels.get? e.tm.lid = some k ∧ k.st = .failed ∧ k.fl.fk = 1 ∧ k.fl.fm = e.kn.member ∧
    k.fl.cause = cause ∧ k.fl.info = info ∧ k.fl.pc = e.st.pc ∧ k.fl.sid = strandNum e.key
  strands : ∀ key st, t.strands.get? key = some st → st.lid = e.tm.lid → st.st = .ended

/-- A vector word issues and acts: it is ready as a strand word, and the vector engine holds no word of another strand that
has issued before it (R84, R119). -/
structure VReady (s : State) (e : Env) (srcs dsts : List XReg) : Prop where
  ready : Ready s e srcs dsts
  engine : ∀ sl < 4, sl ≠ e.slot → ∀ st, s.strands.get? (strandKey e.tm.lid (e.tm.num * 4 + sl)) = some st →
    st.waitsIn vectorWord = false

/-- A vector word of the strand of `e` may act on the accumulator rows `rd` and `wr`, of which it writes the runs `put`, and
on the runs `mrd` and `mwr` beside them: its kernel's teams own the rows (R116), the work that it demands and forces has run
(R120, R130), and neither what it reads nor an ECC word that it writes in part holds an uncorrectable error (R257, R295).
`u` is the state in which it acts. -/
structure RowsReady (s : State) (e : Env) (rd wr : List Nat) (mrd mwr put : List Span) (u : State) : Prop where
  owned : ∀ r ∈ rd ++ wr, e.kn.desc.accRows.1 ≤ r ∧ r < e.kn.desc.accRows.2
  reach : ∃ s1, s.reachAll e.core e.mark (e.demander 0) (rd.map (rowSpan e.core) ++ mrd)
      (wr.map (rowSpan e.core) ++ mwr) = (s1, false) ∧
    s1.checkSpans e.kn.ctx (rd.map (rowSpan e.core) ++ mrd ++ partWords (put ++ mwr)) = (u, none)

/-- Lane `i` of a row, as a number (R112). -/
def laneAt (f : BitVec 4) (r : Row) (i : Nat) : Nat := leNat ((r.drop (i * (elemW f / 8))).take (elemW f / 8))

/-- The state after a word that raised the flags `fl`: they are sticky, and one whose enable is set raises cause 3 after
the results are written (R34, R100, R123). -/
def flagged (e : Env) (st : Strand) (t : State) (fl : Flags) : State :=
  let st' : Strand := { st with vfflags := st.vfflags ||| fl }
  let on : Flags := fl &&& BitVec.ofNat 5 (st.vfrm.toNat / 32)
  if on = 0 then completed e st' t else t.trap e.core e.key st' 3 true (on.zeroExtend 32)

/-- Every byte outside a run of locations reads as before. -/
def sameOutside (s t : State) (lo n : Nat) : Prop := ∀ z, ¬(lo ≤ z ∧ z < lo + n) → t.mem.get z = s.mem.get z

end Sys2Proof
end

