-- ==== Sys2Proof/Certificates/Slice0/Obligations.lean ====
section
/-! DEFINITION. The statements for the provers, from the numbered rules of the manual. A statement about a word of a
strand takes the environment `e` of the strand that acts, and says the next state outright. A statement with several
clauses names each as a definition of its own. -/

section

open Sys2Proof Sys2Proof.Machine

/-! ## Numbers (R26 to R46, R51) -/

/-- The rational ± m × 2^e. -/
def dyadic (neg : Bool) (m : Nat) (e : Int) : ℚ := (if neg then -(m : ℚ) else (m : ℚ)) * 2 ^ e

/-- A value is finite and equal to a rational (R42). -/
def hasValue (x : Machine.Num) (q : ℚ) : Prop := ∃ n m e, x = .fin n m e ∧ dyadic n m e = q

/-- A code of a format decodes to the magnitude `y` with a sign. -/
def codeIs (f : BitVec 4) (code : Nat) (neg : Bool) (y : ℚ) : Prop :=
  code < 2 ^ elemW f ∧ ∃ m e, decodeE f code = .fin neg m e ∧ dyadic false m e = y

/-- A magnitude that the precision of a format holds with no bound on its exponent, with the subnormal spacing below (R39). -/
def onGrid (F : FFmt) (y : ℚ) : Prop :=
  ∃ (k : Nat) (q : Int), k < 2 ^ (F.mb + 1) ∧ 1 - F.bias - F.mb ≤ q ∧ y = k * 2 ^ q

/-- A magnitude of the grid whose last mantissa bit is 0. -/
def evenOnGrid (F : FFmt) (y : ℚ) : Prop :=
  ∃ (k : Nat) (q : Int), k % 2 = 0 ∧ k < 2 ^ (F.mb + 1) ∧ 1 - F.bias - F.mb ≤ q ∧
    (2 ^ F.mb ≤ k ∨ q = 1 - F.bias - F.mb) ∧ y = k * 2 ^ q

/-- R33 and R37: the neighbour that a mode chooses for a magnitude `x` between `lo` and `hi`. -/
def chooses (rm : Rm) (neg : Bool) (x lo hi : ℚ) (loEven : Prop) (y : ℚ) : Prop :=
  (x = lo → y = lo) ∧ (lo < x →
    match rm with
    | .rtz => y = lo
    | .rdn => y = if neg then hi else lo
    | .rup => y = if neg then lo else hi
    | .rne => (x - lo < hi - x → y = lo) ∧ (hi - x < x - lo → y = hi) ∧
        (x - lo = hi - x → (loEven → y = lo) ∧ (¬loEven → y = hi))
    | .rmm => (x - lo < hi - x → y = lo) ∧ (hi - x ≤ x - lo → y = hi)
    | .sto u => ((u.toNat : ℚ) < (x - lo) / (hi - lo) * 2 ^ 32 → y = hi) ∧
        ((x - lo) / (hi - lo) * 2 ^ 32 ≤ (u.toNat : ℚ) → y = lo))

/-- R39: the magnitude `x` rounded to the precision of a format with unbounded exponent is `y`. -/
def roundsTo (F : FFmt) (rm : Rm) (neg : Bool) (x y : ℚ) : Prop :=
  ∃ lo hi, onGrid F lo ∧ onGrid F hi ∧ lo ≤ x ∧ x ≤ hi ∧ (∀ z, onGrid F z → (z ≤ x → z ≤ lo) ∧ (x ≤ z → hi ≤ z)) ∧
    chooses rm neg x lo hi (evenOnGrid F lo) y

/-- R39 and R40: `r` is the result of rounding the value of magnitude `x` and a sign to the floating-point format `f`. -/
def correct (f : BitVec 4) (F : FFmt) (rm : Rm) (sat neg : Bool) (x : ℚ) (r : Rnd) : Prop :=
  ∃ y big, roundsTo F rm neg x y ∧ hasValue (decodeE f (maxCode F)) big ∧
    let ovf : Prop := big < y ∨ ((∃ u, rm = .sto u) ∧ big < x)
    let toInf : Prop := rm = .rne ∨ rm = .rmm ∨ (∃ u, rm = .sto u) ∨ (rm = .rup ∧ neg = false) ∨ (rm = .rdn ∧ neg = true)
    (¬ovf → codeIs f r.code neg y ∧
      r.fl = (if y = x then 0 else fNX) ||| (if y ≠ x ∧ y < 2 ^ (1 - F.bias) then fUF else 0)) ∧
    (ovf → r.fl = fOF ||| fNX ∧
      (toInf → sat = false → F.sp = .ieee → decodeE f r.code = .inf neg) ∧
      (toInf → sat = false → F.sp = .e4m3 → r.code = if neg then 0xFF else 0x7F) ∧
      (¬toInf ∨ sat = true ∨ F.sp = .none → codeIs f r.code neg big))

/-- R26 to R28, R30: the parameters of the formats and the values of their codes. -/
def clauseCodesHaveTheirValues : Prop :=
  ([0, 1, 2, 3, 4, 5].map (fun f => ffmt (BitVec.ofNat 4 f)) = [some ⟨8, 23, 127, .ieee⟩, some ⟨8, 7, 127, .ieee⟩,
    some ⟨5, 10, 15, .ieee⟩, some ⟨4, 3, 7, .e4m3⟩, some ⟨5, 2, 15, .ieee⟩, some ⟨2, 1, 1, .none⟩]) ∧
  ([6, 7, 8, 9].map (fun f => ffmt (BitVec.ofNat 4 f)) = [3, 4, 5, 5].map (fun f => ffmt (BitVec.ofNat 4 f))) ∧
  ([10, 11, 12, 13].map (fun f => ifmt (BitVec.ofNat 4 f)) = [some (8, true), some (32, true), some (16, true), some (8, false)]) ∧
  (List.range 15).map (fun f => elemW (BitVec.ofNat 4 f)) = [32, 16, 16, 8, 8, 4, 8, 8, 4, 4, 8, 32, 16, 8, 1] ∧
  (hasValue (decodeE fE4M3 (maxCode ⟨4, 3, 7, .e4m3⟩)) 448 ∧ hasValue (decodeE fE2M1 (maxCode ⟨2, 1, 1, .none⟩)) 6 ∧
    hasValue (decodeE fFP16 (maxCode ⟨5, 10, 15, .ieee⟩)) 65504 ∧ hasValue (decodeE fE5M2 (maxCode ⟨5, 2, 15, .ieee⟩)) 57344) ∧
  (∀ (f : BitVec 4) (F : FFmt) (c : Nat), ffmt f = some F → c < 2 ^ elemW f →
    let neg := decide (2 ^ (F.eb + F.mb) ≤ c)
    let ex := c / 2 ^ F.mb % 2 ^ F.eb
    let ma := c % 2 ^ F.mb
    let top : Prop := ex = 2 ^ F.eb - 1
    (¬(F.sp = .ieee ∧ top) → ¬(F.sp = .e4m3 ∧ top ∧ ma = 2 ^ F.mb - 1) →
      codeIs f c neg (if ex = 0 then (ma : ℚ) * 2 ^ (1 - F.bias - F.mb)
        else ((2 ^ F.mb + ma : Nat) : ℚ) * 2 ^ ((ex : Int) - F.bias - F.mb))) ∧
    (F.sp = .ieee → top → decodeE f c = if ma = 0 then .inf neg else .nan (decide (ma < 2 ^ (F.mb - 1)))) ∧
    (F.sp = .e4m3 → top → ma = 2 ^ F.mb - 1 → decodeE f c = .nan false)) ∧
  (∀ (f : BitVec 4) (w : Nat) (sg : Bool) (c : Nat), ifmt f = some (w, sg) → c < 2 ^ w →
    hasValue (decodeE f c) (if sg = true ∧ 2 ^ (w - 1) ≤ c then (c : ℚ) - 2 ^ w else c)) ∧
  hasValue (decodeE fSIGN 0) 1 ∧ hasValue (decodeE fSIGN 1) (-1)

/-- R39 to R41: every finite nonzero value is rounded to the neighbour that the mode names, in a floating-point format and in an
integer format, with the flags of R34; a zero keeps its sign. -/
def clauseFiniteValuesRoundToTheChosenNeighbour : Prop :=
  ∀ (f : BitVec 4) (rm : Rm) (sat n : Bool) (m : Nat) (e : Int),
    let x : ℚ := dyadic false m e
    let r := roundTo f rm sat (.fin n m e)
    (∀ F, ffmt f = some F → (m = 0 → codeIs f r.code n 0 ∧ r.fl = 0) ∧ (m ≠ 0 → correct f F rm sat n x r)) ∧
    (∀ w sg, ifmt f = some (w, sg) →
      let lo : Int := if sg then -(2 ^ (w - 1)) else 0
      let hi : Int := if sg then 2 ^ (w - 1) - 1 else 2 ^ w - 1
      ∃ y : Nat, chooses rm n x ⌊x⌋ ⌈x⌉ (⌊x⌋ % 2 = 0) y ∧
        let v : Int := if n then -(y : Int) else y
        let out : Prop := v < lo ∨ hi < v ∨ ((∃ u, rm = .sto u) ∧ (dyadic n m e < lo ∨ (hi : ℚ) < dyadic n m e))
        (¬out → (r.code : Int) = v % 2 ^ w ∧ r.fl = if (y : ℚ) = x then 0 else fNX) ∧
        (out → r.fl = fNV ∧ (r.code : Int) = if sat then (if n then lo else hi) % 2 ^ w else 2 ^ (w - 1)))

/-- R39 to R41: what a NaN and an infinity become in a format. -/
def clauseSpecialValuesConvertByTheTable : Prop :=
  ∀ (f : BitVec 4) (rm : Rm) (sat sg n : Bool),
    let nan := roundTo f rm sat (.nan sg)
    let inf := roundTo f rm sat (.inf n)
    (∀ F, ffmt f = some F →
      (F.sp = .ieee → decodeE f nan.code = .nan false ∧ nan.fl = (if sg then fNV else 0) ∧ decodeE f inf.code = .inf n ∧ inf.fl = 0) ∧
      (F.sp = .e4m3 → nan = ⟨0x7F, if sg then fNV else 0⟩ ∧
        inf = ⟨(if sat then 0x7E else 0x7F) + (if n then 0x80 else 0), fNV⟩) ∧
      (F.sp = .none → nan = ⟨0, fNV⟩ ∧ codeIs f inf.code n 6 ∧ inf.fl = fNV)) ∧
    (∀ w s, ifmt f = some (w, s) →
      let lo : Int := if s then -(2 ^ (w - 1)) else 0
      let hi : Int := if s then 2 ^ (w - 1) - 1 else 2 ^ w - 1
      nan = ⟨if sat then 0 else 2 ^ (w - 1), fNV⟩ ∧ inf.fl = fNV ∧
        (inf.code : Int) = if sat then (if n then lo else hi) % 2 ^ w else 2 ^ (w - 1))

/-- A code of a floating-point format whose magnitude is not zero and lies below the least normal one. -/
def tiny (f : BitVec 4) (c : Nat) : Prop :=
  ∃ F q, ffmt f = some F ∧ hasValue (decodeE f c) q ∧ q ≠ 0 ∧ |q| < 2 ^ (1 - F.bias)

/-- R33, R39: what `daz` reads and what `ftz` leaves. -/
def clauseSubnormalsAreFlushedWhereAsked : Prop :=
  ∀ (on : Bool) (f : BitVec 4) (c : Nat) (fl : Flags), c < 2 ^ elemW f →
    (on = true ∧ tiny f c → codeIs f (dazE on f c) (codeNeg f c) 0 ∧
      codeIs f (ftzR on f ⟨c, fl⟩).code (codeNeg f c) 0 ∧ (ftzR on f ⟨c, fl⟩).fl = fl ||| fUF ||| fNX) ∧
    (¬(on = true ∧ tiny f c) → dazE on f c = c ∧ ftzR on f ⟨c, fl⟩ = ⟨c, fl⟩)

/-- R40 to R42: a conversion between formats without blocks reads its source exactly, after `daz`, rounds it once to the target,
and applies `ftz`; between integer formats it clamps or keeps the low bits with no flag, and to SIGNBIT it keeps the sign. That
a SIGNBIT source counts as an integer format here, and that a conversion of a format to itself applies both, are the model's
choices (logs 15, 18). -/
def clauseElementsConvertByTheTable : Prop :=
  ∀ (src dst : BitVec 4) (rm : Rm) (sat daz ftz : Bool) (c : Nat), isBlock src = false → isBlock dst = false →
    src ≠ 15 → dst ≠ 15 → c < 2 ^ elemW src →
    let int (f : BitVec 4) : Prop := (ifmt f).isSome = true
    let r := convE src dst rm sat daz ftz c
    (dst ≠ fSIGN → ¬((int src ∨ src = fSIGN) ∧ int dst) →
      r = ftzR ftz dst (roundTo dst rm sat (decodeE src (dazE daz src c)))) ∧
    (dst = fSIGN → r = ⟨if src ≠ fU8 ∧ c / 2 ^ (elemW src - 1) % 2 = 1 then 1 else 0, 0⟩) ∧
    (∀ w sg (v : Int), (int src ∨ src = fSIGN) → ifmt dst = some (w, sg) → hasValue (decodeE src c) v →
      let lo : Int := if sg then -(2 ^ (w - 1)) else 0
      let hi : Int := if sg then 2 ^ (w - 1) - 1 else 2 ^ w - 1
      r.fl = 0 ∧ (r.code : Int) = (if sat then max lo (min hi v) else v) % 2 ^ w)

/-- R39 to R42: rounding and conversion of elements. -/
def clauseConversionsRoundOnce : Prop :=
  clauseFiniteValuesRoundToTheChosenNeighbour ∧ clauseSpecialValuesConvertByTheTable ∧ clauseSubnormalsAreFlushedWhereAsked ∧
    clauseElementsConvertByTheTable

/-- R43, R45: the value of an element of a block. -/
def clauseBlocksDecodeByTheirScale : Prop :=
  ∀ (f : BitVec 4) (scale spare c : Nat), isBlock f = true →
    let spares : Prop := f = fYF4 ∧ c = 8
    let part := if f = fYF4 ∧ c = 8 then decodeE fE4M3 spare else decodeE f c
    (scale = 0xFF → decodeB f scale spare c = .nan false) ∧
    (scale ≠ 0xFF → (∀ q, hasValue part q → hasValue (decodeB f scale spare c) (q * 2 ^ ((scale : Int) - 127))) ∧
      (part.isNaN = true → (decodeB f scale spare c).isNaN = true) ∧
      (∀ n, part = .inf n → ¬spares → decodeB f scale spare c = .inf n))

/-- R44, `to_mx`: the code of a scaled element `e` is the rounding of its value clamped to the format. -/
def mxCode (f : BitVec 4) (F : FFmt) (rm : Rm) (neg : Bool) (e : ℚ) (code : Nat) (y : ℚ) : Prop :=
  ∃ big, hasValue (decodeE f (maxCode F)) big ∧ roundsTo F rm neg (min |e| big) y ∧ codeIs f code neg y

/-- R46, `pick`: the candidate `w` of code `c` chosen for a scaled element `e`, the signed spare value being `s`, and whether it
is one of the last clauses of RDN and RUP. -/
def picks (rm : Rm) (e s : ℚ) (c : Nat) (w : ℚ) (last : Prop) : Prop :=
  let e2 (k : Nat) (v : ℚ) : Prop := k < 16 ∧ k ≠ 8 ∧ hasValue (decodeE fE2M1 k) v
  let cand (k : Nat) (v : ℚ) : Prop := e2 k v ∨ (k = 8 ∧ v = s)
  let fits (v : ℚ) : Prop := |v| ≤ |e| ∧ (v = 0 ∨ 0 < v * e)
  cand c w ∧ (c = 8 → ∀ k, ¬e2 k s) ∧
    match rm with
    | .rtz => ¬last ∧ fits w ∧ ∀ k v, cand k v → fits v → |v| ≤ |w|
    | .rdn => (last ↔ ∀ k v, cand k v → e < v) ∧ (last → ∀ k v, cand k v → w ≤ v) ∧
        (¬last → w ≤ e ∧ ∀ k v, cand k v → v ≤ e → v ≤ w)
    | .rup => (last ↔ ∀ k v, cand k v → v < e) ∧ (last → ∀ k v, cand k v → v ≤ w) ∧
        (¬last → e ≤ w ∧ ∀ k v, cand k v → e ≤ v → w ≤ v)
    | _ => ¬last ∧ (∀ k v, cand k v → |w - e| ≤ |v - e|) ∧
        ∀ k v, cand k v → v ≠ w → |v - e| = |w - e| → c ≠ 8 ∧
          (k ≠ 8 → if rm = .rmm then |v| ≤ |w| else c % 2 = 0)

/-- R39, R44 and R46: a block of 32 values in a block format: its scale, the spare of YF4, every code, and the flags. -/
def clauseBlocksAreEncodedByTheirPseudocode : Prop :=
  ∀ (f : BitVec 4) (F : FFmt) (rm : Rm) (xs : List Machine.Num), isBlock f = true → ffmt f = some F → xs.length = 32 →
    let b := encodeBlock f rm xs
    let special (x : Machine.Num) : Prop := x.isNaN = true ∨ x.isInf = true
    let emax : Int := if F.eb = 4 then 8 else if F.eb = 5 then 15 else 2
    ((∃ x ∈ xs, special x) → b.codes = List.replicate 32 0 ∧ b.scale = 0xFF ∧ b.spare = 0 ∧
      b.fl = if .nan true ∈ xs then fNV else 0) ∧
    ∀ (vs : List ℚ) (top : ℚ), List.Forall₂ hasValue xs vs → (∀ v ∈ vs, |v| ≤ top) → (∃ v ∈ vs, |v| = top) →
      let e (v : ℚ) : ℚ := v * 2 ^ (127 - (b.scale : Int))
      (top = 0 → b.scale = 0) ∧
      (top ≠ 0 → ∃ l : Int, (2 : ℚ) ^ l ≤ top ∧ top < 2 ^ (l + 1) ∧ (b.scale : Int) = max (l - emax) (-127) + 127) ∧
      b.codes.length = 32 ∧
      (f ≠ fYF4 → b.spare = 0 ∧ ∃ ys : List ℚ, ys.length = 32 ∧
        (∀ (i : Nat) (x : Machine.Num) (v y : ℚ) (c : Nat), xs[i]? = some x → vs[i]? = some v → ys[i]? = some y → b.codes[i]? = some c →
          mxCode f F rm.det x.neg (e v) c y) ∧
        let off (p : ℚ → ℚ → Prop) : Prop := ∃ (i : Nat) (v y : ℚ), vs[i]? = some v ∧ ys[i]? = some y ∧ p (|e v|) y
        (b.fl.getLsbD 0 = true ↔ off (fun x y => y ≠ x)) ∧
        (b.fl.getLsbD 1 = true ↔ off (fun x y => y ≠ x ∧ y < 2 ^ (1 - F.bias))) ∧
        (b.fl.getLsbD 2 = true ↔ off (fun x _ => ∃ big, hasValue (decodeE f (maxCode F)) big ∧ big < x)) ∧
        b.fl.getLsbD 3 = false ∧ b.fl.getLsbD 4 = false) ∧
      (f = fYF4 → top = 0 → b.spare = 0 ∧ b.codes = List.replicate 32 0 ∧ b.fl = 0) ∧
      (f = fYF4 → top ≠ 0 → ∃ (j : Nat) (x : Machine.Num) (t s : ℚ) (ws : List ℚ) (last : Nat → Prop), ws.length = 32 ∧
        vs[j]? = some t ∧ xs[j]? = some x ∧ |t| = top ∧ (∀ (i : Nat) (v : ℚ), i < j → vs[i]? = some v → |v| ≠ top) ∧
        roundsTo ⟨4, 3, 7, .e4m3⟩ .rne x.neg |e t| |s| ∧ codeIs fE4M3 b.spare x.neg |s| ∧ 0 ≤ s * t ∧
        (∀ (i : Nat) (v w : ℚ) (c : Nat), vs[i]? = some v → ws[i]? = some w → b.codes[i]? = some c →
          picks rm.det (e v) s c w (last i)) ∧
        (b.fl.getLsbD 0 = true ↔ |s| ≠ |e t| ∨ ∃ (i : Nat) (v w : ℚ), vs[i]? = some v ∧ ws[i]? = some w ∧ w ≠ e v) ∧
        (b.fl.getLsbD 1 = true ↔ |s| ≠ |e t| ∧ |s| < 2 ^ (-6 : Int)) ∧
        (b.fl.getLsbD 2 = true ↔ ∃ i, i < 32 ∧ last i) ∧ b.fl.getLsbD 3 = false ∧ b.fl.getLsbD 4 = false)

/-- R42 to R46: an element of any format read, converted to any other, and encoded in a block. -/
def clauseStoredElementsConvertByTheTable : Prop :=
  clauseConversionsRoundOnce ∧ clauseBlocksDecodeByTheirScale ∧ clauseBlocksAreEncodedByTheirPseudocode ∧
    ∀ (src dst : BitVec 4) (rm : Rm) (sat : Bool) (side : Nat × Nat) (c : Nat),
      (isBlock src = false → convElem src dst rm sat side c = convE src dst rm sat false false c) ∧
      (isBlock src = true → dst ≠ fSIGN → convElem src dst rm sat side c = roundTo dst rm sat (decodeB src side.1 side.2 c))

/-! ## The base instructions (R85 to R90) -/

/-- R85, the OP-IMM, LUI and AUIPC rows: the value of each word is written to x[d] and the word completes. -/
def Obligations.ImmediateWordsWriteTheirValue : Prop :=
  ∀ (s : State) (e : Env) (d a : XReg) (imm : BitVec 12) (up : BitVec 20) (sh : BitVec 5),
    let ext : Word := imm.signExtend 32
    (Ready s e [] [d] →
      exec (.lui d up) s = .next (completed e (e.st.setX d (up.zeroExtend 32 <<< 12)) s) ∧
      exec (.auipc d up) s = .next (completed e (e.st.setX d (e.st.pc + (up.zeroExtend 32 <<< 12))) s)) ∧
    (Ready s e [a] [d] →
      exec (.addi d a imm) s = .next (completed e (e.st.setX d (e.st.getX a + ext)) s) ∧
      exec (.slti d a imm) s =
        .next (completed e (e.st.setX d (if (e.st.getX a).toInt < ext.toInt then 1 else 0)) s) ∧
      exec (.sltiu d a imm) s =
        .next (completed e (e.st.setX d (if (e.st.getX a).toNat < ext.toNat then 1 else 0)) s) ∧
      exec (.xori d a imm) s = .next (completed e (e.st.setX d (e.st.getX a ^^^ ext)) s) ∧
      exec (.ori d a imm) s = .next (completed e (e.st.setX d (e.st.getX a ||| ext)) s) ∧
      exec (.andi d a imm) s = .next (completed e (e.st.setX d (e.st.getX a &&& ext)) s) ∧
      exec (.slli d a sh) s = .next (completed e (e.st.setX d (e.st.getX a <<< sh.toNat)) s) ∧
      exec (.srli d a sh) s = .next (completed e (e.st.setX d (e.st.getX a >>> sh.toNat)) s) ∧
      exec (.srai d a sh) s =
        .next (completed e (e.st.setX d (BitVec.ofInt 32 ((e.st.getX a).toInt / 2 ^ sh.toNat))) s))

/-- R85, the OP rows but for the divisions: shifts use the low five bits, and the high halves are those of the signed by
signed, signed by unsigned and unsigned by unsigned products. -/
def clauseRegisterWordsWriteTheirValue : Prop :=
  ∀ (s : State) (e : Env) (d a b : XReg), Ready s e [a, b] [d] →
    let x := e.st.getX a
    let y := e.st.getX b
    let n := y.toNat % 32
    exec (.add d a b) s = .next (completed e (e.st.setX d (x + y)) s) ∧
    exec (.sub d a b) s = .next (completed e (e.st.setX d (x - y)) s) ∧
    exec (.sll d a b) s = .next (completed e (e.st.setX d (x <<< n)) s) ∧
    exec (.slt d a b) s = .next (completed e (e.st.setX d (if x.toInt < y.toInt then 1 else 0)) s) ∧
    exec (.sltu d a b) s = .next (completed e (e.st.setX d (if x.toNat < y.toNat then 1 else 0)) s) ∧
    exec (.xor d a b) s = .next (completed e (e.st.setX d (x ^^^ y)) s) ∧
    exec (.srl d a b) s = .next (completed e (e.st.setX d (x >>> n)) s) ∧
    exec (.sra d a b) s = .next (completed e (e.st.setX d (BitVec.ofInt 32 (x.toInt / 2 ^ n))) s) ∧
    exec (.or d a b) s = .next (completed e (e.st.setX d (x ||| y)) s) ∧
    exec (.and d a b) s = .next (completed e (e.st.setX d (x &&& y)) s) ∧
    exec (.mul d a b) s = .next (completed e (e.st.setX d (x * y)) s) ∧
    exec (.mulh d a b) s =
      .next (completed e (e.st.setX d (((x.signExtend 64 * y.signExtend 64 : DWord) >>> 32).truncate 32)) s) ∧
    exec (.mulhsu d a b) s =
      .next (completed e (e.st.setX d (((x.signExtend 64 * y.zeroExtend 64 : DWord) >>> 32).truncate 32)) s) ∧
    exec (.mulhu d a b) s =
      .next (completed e (e.st.setX d (((x.zeroExtend 64 * y.zeroExtend 64 : DWord) >>> 32).truncate 32)) s)

/-- R87: division by zero and the overflow corner; otherwise the quotient is rounded toward zero and the remainder has
the sign of the dividend (R85). The result is on its way: the word completes and its register is empty (R91). -/
def clauseDivisionsGiveTheirResult : Prop :=
  ∀ (s : State) (e : Env) (d a b : XReg), Ready s e [a, b] [d] →
    let x := e.st.getX a
    let y := e.st.getX b
    ∃ q r qu ru : Word,
      exec (.div d a b) s = .next (completed e (e.st.later d q) s) ∧
      exec (.rem d a b) s = .next (completed e (e.st.later d r) s) ∧
      exec (.divu d a b) s = .next (completed e (e.st.later d qu) s) ∧
      exec (.remu d a b) s = .next (completed e (e.st.later d ru) s) ∧
      (y = 0 → q = 0xFFFFFFFF ∧ r = x ∧ qu = 0xFFFFFFFF ∧ ru = x) ∧
      (x = 0x80000000 → y = 0xFFFFFFFF → q = 0x80000000 ∧ r = 0) ∧
      (y ≠ 0 → qu.toNat = x.toNat / y.toNat ∧ ru.toNat = x.toNat % y.toNat) ∧
      (y ≠ 0 → ¬(x = 0x80000000 ∧ y = 0xFFFFFFFF) →
        q.toInt * y.toInt + r.toInt = x.toInt ∧ r.toInt.natAbs < y.toInt.natAbs ∧
        (r = 0 ∨ (r.toInt < 0 ↔ x.toInt < 0)))

/-- The empty register of an asynchronous word becomes full when its result arrives (R91). -/
def clausePendingResultArrives : Prop :=
  ∀ (s : State) (key : Nat) (st : Strand) (r : XReg) (v : Word),
    s.strands.get? key = some st → st.st ≠ .ended → r ≠ 0 → st.isEmpty r = false →
    let u := s.setStrand key (st.later r v)
    (st.later r v).isEmpty r = true ∧
    ∃ t st', exec (.asyncResultArrive key r) u = .next t ∧ t.strands.get? key = some st' ∧
      (∀ k, k ≠ key → t.strands.get? k = s.strands.get? k) ∧ { t with strands := s.strands } = s ∧
      st'.getX r = v ∧ st'.isEmpty r = false ∧ (∀ q, q ≠ r → st'.getX q = st.getX q) ∧
      { st' with x := st.x } = st

/-- R85 and R56, jumps and branches: the target takes control, x[d] receives the address of the next word, and no
loop-end event follows; a target that is not a multiple of 4 raises cause 10 and nothing is written. -/
def Obligations.JumpsAndBranchesPassControl : Prop :=
  ∀ (s : State) (e : Env) (d a b : XReg) (imm : BitVec 12) (off : BitVec 20) (bo : BitVec 12),
    let tJal : Word := e.st.pc + (off ++ (0 : BitVec 1)).signExtend 32
    let tJalr : Word := (e.st.getX a + imm.signExtend 32) &&& 0xFFFFFFFE
    let tBr : Word := e.st.pc + (bo ++ (0 : BitVec 1)).signExtend 32
    let x := e.st.getX a
    let y := e.st.getX b
    let goes (t : Word) (link : Strand) : State :=
      if t.toNat % 4 = 0 then jumped e link s t else s.trap e.core e.key e.st 10 false t
    let branch (c : Bool) : State := if c then goes tBr e.st else completed e e.st s
    (Ready s e [] [d] → exec (.jal d off) s = .next (goes tJal (e.st.setX d (e.st.pc + 4)))) ∧
    (Ready s e [a] [d] → exec (.jalr d a imm) s = .next (goes tJalr (e.st.setX d (e.st.pc + 4)))) ∧
    (Ready s e [a, b] [] →
      exec (.beq a b bo) s = .next (branch (decide (x = y))) ∧
      exec (.bne a b bo) s = .next (branch (decide (x ≠ y))) ∧
      exec (.blt a b bo) s = .next (branch (decide (x.toInt < y.toInt))) ∧
      exec (.bge a b bo) s = .next (branch (decide (y.toInt ≤ x.toInt))) ∧
      exec (.bltu a b bo) s = .next (branch (decide (x.toNat < y.toNat))) ∧
      exec (.bgeu a b bo) s = .next (branch (decide (y.toNat ≤ x.toNat))))

/-- R92 and R83: a word that reads an empty register waits in front of its effect, not issued (R84), or with `femode` 1 raises
cause 4; it names the first such register in the order of the operands, which is the model's choice where several are empty (log
42). A word whose destination is empty waits. Stated of one word of each operand form. -/
def clauseEmptyRegisterStallsOrTraps : Prop :=
  ∀ (s : State) (e : Env) (d a b : XReg) (imm : BitVec 12) (bo : BitVec 12), s.env = some e →
    let w := blocked e s (.poll e.mark)
    let stall (r : XReg) : State :=
      if e.st.femode then s.trap e.core e.key e.st 4 false (r.zeroExtend 32) else blocked e s (.full r)
    (e.st.isEmpty a = true →
      exec (.addi d a imm) s = .next (stall a) ∧ exec (.add d a b) s = .next (stall a) ∧
      exec (.lw d a imm) s = .next (stall a) ∧ exec (.sw b a imm) s = .next (stall a) ∧
      exec (.beq a b bo) s = .next (stall a) ∧ exec (.jalr d a imm) s = .next (stall a)) ∧
    (e.st.isEmpty a = false → e.st.isEmpty b = true →
      exec (.add d a b) s = .next (stall b) ∧ exec (.sw b a imm) s = .next (stall b)) ∧
    (e.st.isEmpty a = false → e.st.isEmpty d = true →
      exec (.addi d a imm) s = .next w ∧ exec (.lw d a imm) s = .next w ∧
      exec (.jal d 0) s = .next w ∧ exec (.csrrw d 0x800 a) s = .next w)

/-- The registers that a register-only word of the base set reads, and the one it writes. -/
def registerWord : Instr → Option (List XReg × XReg)
  | .lui d _ | .auipc d _ => some ([], d)
  | .addi d a _ | .slti d a _ | .sltiu d a _ | .xori d a _ | .ori d a _ | .andi d a _ => some ([a], d)
  | .slli d a _ | .srli d a _ | .srai d a _ => some ([a], d)
  | .add d a b | .sub d a b | .sll d a b | .slt d a b | .sltu d a b | .xor d a b | .srl d a b | .sra d a b
  | .or d a b | .and d a b | .mul d a b | .mulh d a b | .mulhsu d a b | .mulhu d a b
  | .div d a b | .divu d a b | .rem d a b | .remu d a b => some ([a, b], d)
  | _ => none

/-- The frame of the register-only words of the base set: every register but x[d], every CSR field, the predicates
(but for the rotation of a loop-end event), all other strands, all of memory and every other table stay. -/
def Obligations.RegisterWordFrame : Prop :=
  ∀ (s t : State) (e : Env) (i : Instr) (srcs : List XReg) (d : XReg), registerWord i = some (srcs, d) →
    Ready s e srcs [d] → exec i s = .next t →
    (∀ a, t.mem.get a = s.mem.get a) ∧
    { t with strands := s.strands } = s ∧
    (∀ k, k ≠ e.key → t.strands.get? k = s.strands.get? k) ∧
    ∃ st', t.strands.get? e.key = some st' ∧
      (∀ r, r ≠ d → st'.getX r = e.st.getX r ∧ st'.isEmpty r = e.st.isEmpty r) ∧
      { st' with x := e.st.x, pend := e.st.pend, pc := e.st.pc, loops := e.st.loops, st := e.st.st, wait := e.st.wait,
                 rrb := e.st.rrb, p := e.st.p } = e.st ∧
      (e.st.atEnd e.st.pc = false →
        st'.loops = e.st.loops ∧ st'.rrb = e.st.rrb ∧ st'.p = e.st.p ∧ st'.pc = e.st.pc + 4)

/-- R88 and R89: a fence waits until every pending result of the strand has arrived and then completes with no other
effect; `fence.i` also discards what the core has fetched, so that the next fetch reads the scratchpad as it stands. -/
def clauseFencesWaitForPendingResults : Prop :=
  ∀ (s : State) (e : Env) (imm : BitVec 12) (a d : XReg), s.env = some e →
    let t := s.updCore e.core (fun k => { k with stale := [] })
    (e.st.pend = [] →
      exec (.fence imm a d) s = .next (completed e e.st s) ∧
      exec (.fenceI imm a d) s = .next (completed e e.st t) ∧
      ∀ off, t.fetchWord e.core off = BitVec.ofNat 32 (s.mem.num (ispLoc e.core off) 4)) ∧
    (e.st.pend ≠ [] →
      exec (.fence imm a d) s = .next (blocked e s (.poll e.mark)) ∧
      exec (.fenceI imm a d) s = .next (blocked e s (.poll e.mark)))

/-- R90: a Zicsr word reads the CSR before it writes; the forms with x0 or with uimm5 = 0 do not write it. -/
def clauseCsrWordsReadThenWrite : Prop :=
  ∀ (s : State) (e : Env) (d a : XReg) (csr : BitVec 12) (u : BitVec 5),
    let n := csr.toNat
    let old := e.st.csr e.core n
    let x := e.st.getX a
    let ui : Word := u.zeroExtend 32
    (Ready s e [a] [d] →
      exec (.csrrw d csr a) s = .next (completed e ((e.st.setCsr n x).setX d old) s) ∧
      exec (.csrrs d csr a) s =
        .next (completed e ((if a = 0 then e.st else e.st.setCsr n (old ||| x)).setX d old) s) ∧
      exec (.csrrc d csr a) s =
        .next (completed e ((if a = 0 then e.st else e.st.setCsr n (old &&& ~~~x)).setX d old) s)) ∧
    (Ready s e [] [d] →
      exec (.csrrwi d csr u) s = .next (completed e ((e.st.setCsr n ui).setX d old) s) ∧
      exec (.csrrsi d csr u) s =
        .next (completed e ((if u = 0 then e.st else e.st.setCsr n (old ||| ui)).setX d old) s) ∧
      exec (.csrrci d csr u) s =
        .next (completed e ((if u = 0 then e.st else e.st.setCsr n (old &&& ~~~ui)).setX d old) s))

/-- R92, R102, R103, R111, R114, R115, R33, R37: what a write of each CSR stores and what it reads back; read-only CSRs
and unlisted codes are ignored (R4). -/
def clauseCsrFieldsKeepTheirRules : Prop :=
  ∀ (st : Strand) (core : Nat) (v : Word),
    let rd (n : Nat) : Word := (st.setCsr n v).csr core n
    rd 0x801 = v &&& 0x1FF ∧ rd 0x802 = v &&& 0xF ∧ rd 0x803 = v &&& 1 ∧ rd 0x804 = v &&& 0x1F ∧
    rd 0x805 = (if 6 ≤ v.toNat % 8 then (v &&& 0x3F8) ||| (st.csr core 0x805 &&& 7) else v &&& 0x3FF) ∧
    rd 0x806 = v &&& 1 ∧ rd 0x807 = v ∧ (st.setCsr 0x807 v).gens = [] ∧
    rd 0x808 = v &&& 0xFFFFFFFC ∧ rd 0x809 = v &&& 0xFFFFFFFC ∧
    rd 0x80A = (st.csr core 0x80A &&& 0x7FFFFFFF) ||| (v &&& 0x80000000) ∧
    (∀ n, n = 0x80B ∨ n = 0x820 ∨ n = 0x821 → st.setCsr n v = st) ∧
    (∀ n, 0x810 ≤ n → n ≤ 0x815 → st.hflag = false → st.setCsr n v = st) ∧
    rd 0x800 &&& 0x40 = v &&& 0x40 ∧
    (rd 0x800).toNat % 16 = (if v.toNat % 16 ∈ [0, 1, 2, 11, 12] then v.toNat % 16 else st.fmt.toNat) ∧
    (rd 0x800).toNat / 16 % 4 = (if v.toNat / 16 % 4 = 3 then st.wg.toNat else v.toNat / 16 % 4) ∧
    (∀ n : Nat, n < 6 → (rd (0x830 + n)).toNat / 2 ^ 16 = v.toNat / 2 ^ 16)

/-- R85: the words that compute a register from two registers, the divisions among them. -/
def Obligations.RegisterWordsComputeTheirValue : Prop := clauseRegisterWordsWriteTheirValue ∧ clauseDivisionsGiveTheirResult

/-! ## Loops, traps and the end of a strand (R93 to R110) -/

/-- R97: the loop-end event of a word, by the innermost live level, with the rotation of R117. -/
def clauseLoopEndEventFollowsTheInnermostLevel : Prop :=
  ∀ (st : Strand) (a : Word),
    ((st.loops = [] ∨ ∃ l ls, st.loops = l :: ls ∧ l.stop ≠ a) → st.loopEnd a = { st with pc := a + 4 }) ∧
    ∀ l ls, st.loops = l :: ls → l.stop = a →
      let st' := if l.rot then rotated st else st
      (l.index.toNat + 1 < l.count.toNat →
        st.loopEnd a = { st' with loops := { l with index := l.index + 1 } :: ls, pc := l.start }) ∧
      (l.count.toNat ≤ l.index.toNat + 1 → st.loopEnd a = ({ st' with loops := ls } : Strand).loopEnd a)

/-- R96, R99: the four loop-begin forms. A count of zero skips the body; a level is pushed if the count and the depth
allow it and the body lies inside the enclosing one; every other case is a loop fault with its subcode. -/
def clauseLoopBeginPushesOneLevel : Prop :=
  ∀ (s : State) (e : Env) (x : XReg) (n : BitVec 10) (off : BitVec 11),
    let a := e.st.pc
    let last : Word := a + 4 * off.zeroExtend 32
    let fault (sub : Word) : State := s.trap e.core e.key e.st 13 false sub
    let outside : Prop := ∃ l ls, e.st.loops = l :: ls ∧ ((a + 4).toNat < l.start.toNat ∨ l.stop.toNat < last.toNat)
    ∀ (rot : Bool) (word : Instr) (count : Nat),
      (word = (if rot then .lpBeginRot x off else .lpBegin x off) ∧ count = (e.st.getX x).toNat ∧ Ready s e [x] [] ∨
        word = (if rot then .lpBeginiRot n off else .lpBegini n off) ∧ count = n.toNat ∧ s.env = some e) →
      (count = 0 → 0x800000 ≤ (last + 4).toNat → (last + 4).toNat < 0x840000 →
        exec word s = .next (jumped e e.st s (last + 4))) ∧
      (count = 0 → ¬(0x800000 ≤ (last + 4).toNat ∧ (last + 4).toNat < 0x840000) →
        exec word s = .next (s.trap e.core e.key e.st 9 false (last + 4))) ∧
      (65535 < count → exec word s = .next (fault 4)) ∧
      (0 < count → count ≤ 65535 → e.st.loops.length = 6 → exec word s = .next (fault 1)) ∧
      (0 < count → count ≤ 65535 → e.st.loops.length ≠ 6 → outside → exec word s = .next (fault 3)) ∧
      (0 < count → count ≤ 65535 → e.st.loops.length ≠ 6 → ¬outside →
        exec word s = .next (completed e { e.st with loops :=
          { start := a + 4, stop := last, count := BitVec.ofNat 16 count, index := 0, rot := rot } :: e.st.loops } s))

/-- R98: `lp.exit` ends the last iteration of the innermost level, `lp.pop` removes the level without rotating, `lp.idx`
reads an index counted from the innermost level; a level that does not exist is a loop fault with subcode 2, and a level
of 6 to 31 makes the word illegal. -/
def clauseLoopStackWordsActOnNamedLevel : Prop :=
  ∀ (s : State) (e : Env) (d : XReg) (lvl : BitVec 5),
    let fault : Host.Outcome State Fault Refusal := .next (s.trap e.core e.key e.st 13 false 2)
    (s.env = some e → e.st.loops = [] → exec .lpExit s = fault ∧ exec .lpPop s = fault) ∧
    (∀ l ls, s.env = some e → e.st.loops = l :: ls →
      exec .lpExit s =
        .next (s.setStrand e.key (s.boundary e.core
          (({ e.st with loops := { l with index := l.count - 1 } :: ls } : Strand).loopEnd l.stop) true)) ∧
      exec .lpPop s = .next (completed e { e.st with loops := ls } s)) ∧
    (Ready s e [] [d] →
      (e.st.loops.length ≤ lvl.toNat → exec (.lpIdx d lvl) s = fault) ∧
      ∀ l, e.st.loops[lvl.toNat]? = some l →
        exec (.lpIdx d lvl) s = .next (completed e (e.st.setX d (l.index.zeroExtend 32)) s)) ∧
    (6 ≤ lvl.toNat → decodeStrand (BitVec.ofNat 32 (0x0400200B + d.toNat * 2 ^ 7 + lvl.toNat * 2 ^ 20)) = none)

/-- R100 and R105: which words raise a trap, with its cause, its done value and its information. `tret` does so only
with the handler flag clear (R104). -/
def clauseTrapWordsRaiseTheirCause : Prop :=
  ∀ (s : State) (e : Env) (code : BitVec 5) (w : Word), s.env = some e →
    let raises (cause : Nat) (done : Bool) (info : Word) : Host.Outcome State Fault Refusal :=
      .next (s.trap e.core e.key e.st cause done info)
    exec .ecall s = raises 0 true 0 ∧ exec .ebreak s = raises 1 true 0 ∧
    exec (.trap code) s = raises 2 true (code.zeroExtend 32) ∧
    decodeStrand (BitVec.ofNat 32 (0x0600200B + code.toNat * 2 ^ 20)) = some (.trap code) ∧
    decodeStrand 0x0800200B = some .tret ∧
    exec (.illegalInstruction w) s = raises 8 false w ∧ exec (.fetchAddressTrap w) s = raises 9 false w ∧
    (e.st.hflag = false → exec .tret s = raises 14 false 0)

/-- R101: an in-kernel trap outside a handler, with `ktvec` set, enters the handler; nothing but the strand changes,
every register is full, and a register with one pending result holds it. -/
def clauseInKernelTrapEntersTheHandler : Prop :=
  ∀ (s : State) (core key : Nat) (st : Strand) (cause : Nat) (done : Bool) (info : Word),
    st.hflag = false → cause ≤ 4 → st.ktvec ≠ 0 →
    let st' := s.boundary core (trapped st cause done info) false
    let t := s.trap core key st cause done info
    t.strands.get? key = some st' ∧ (∀ k, k ≠ key → t.strands.get? k = s.strands.get? k) ∧
    { t with strands := s.strands } = s ∧
    st'.pc = st.ktvec ∧ st'.kepc = st.pc ∧ st'.kcode.toNat = cause ∧ st'.kdone = done ∧ st'.kinfo = info ∧
    st'.saved = st.loops ∧ st'.loops = [] ∧ st'.hflag = true ∧ (∀ r, st'.isEmpty r = false) ∧
    (∀ r, st.isEmpty r = false → st'.getX r = st.getX r) ∧
    (∀ r v, r ≠ 0 → st.pend.filter (fun p => p.1 == r) = [(r, v)] → st'.getX r = v)

/-- R100, R106, R348, R349: a trap that is fatal (of a fatal cause, with `ktvec` zero, or inside a handler, where the
record carries cause 15 and the code of the second trap) fails the kernel and ends every strand of it. -/
def clauseFatalTrapFailsTheKernel : Prop :=
  ∀ (s : State) (e : Env) (cause : Nat) (done : Bool) (info : Word),
    s.env = some e → e.tm.num < 512 → e.kn.st.live = true → e.kn.fl.fk = 0 →
    let t := s.trap e.core e.key e.st cause done info
    (e.st.hflag = false → 4 < cause ∨ e.st.ktvec = 0 → KernelFailed e cause info t) ∧
    (e.st.hflag = true → KernelFailed e 15 (BitVec.ofNat 32 cause) t)

/-- R104: `tret` discards the handler's levels, restores the saved ones and clears the handler flag; then the word at
`kepc` is executed again, or counts as completed with its loop-end event. -/
def clauseTrapReturnRestoresTheLoops : Prop :=
  ∀ (s : State) (e : Env), s.env = some e → e.st.hflag = true →
    let back : Strand := { e.st with loops := e.st.saved, saved := [], hflag := false }
    (e.st.kdone = false →
      exec .tret s = .next (s.setStrand e.key (s.boundary e.core { back with pc := e.st.kepc } false))) ∧
    (e.st.kdone = true →
      exec .tret s =
        .next (s.setStrand e.key (s.boundary e.core (back.loopEnd e.st.kepc) (back.atEnd e.st.kepc))))

/-- R103: with the handler flag set, lpsvN reads level N of the saved stack, counted from the outermost, and a write sets
its index to the value of bits [31:16], or to count - 1 if that is no smaller; with it clear, lpsvN reads the live stack. A level
that is not there reads as zero. -/
def clauseSavedLevelsReadAndWriteTheirIndex : Prop :=
  ∀ (st : Strand) (core n : Nat) (v : Word), n ≤ 5 →
    let ls := if st.hflag then st.saved else st.loops
    (∀ l, ls.reverse[n]? = some l → st.csr core (0x810 + n) = l.index ++ l.count) ∧
    (ls.length ≤ n → st.csr core (0x810 + n) = 0 ∧ st.setCsr (0x810 + n) v = st) ∧
    (st.hflag = true → ∀ l, st.saved.reverse[n]? = some l →
      let st' := st.setCsr (0x810 + n) v
      let idx := v.toNat / 2 ^ 16
      ∃ l', st'.saved.reverse[n]? = some l' ∧ l'.count = l.count ∧ l'.start = l.start ∧ l'.stop = l.stop ∧
        l'.rot = l.rot ∧ (idx < l.count.toNat → l'.index.toNat = idx) ∧
        (l.count.toNat ≤ idx → l'.index = l.count - 1) ∧
        (∀ m, m ≠ n → st'.saved.reverse[m]? = st.saved.reverse[m]?) ∧ { st' with saved := st.saved } = st)

/-- R107, R358: `sdone` ends the strand: no word, loop level, handler state or pending result of it is left, and it
belongs to no group of its kernel; if its kernel leaves draining with it, its arrival flags are cleared too (R362). -/
def clauseStrandDoneEndsTheStrand : Prop :=
  ∀ (s : State) (e : Env), s.env = some e →
    ∃ t, exec .sdone s = .next t ∧
      (∃ st', t.strands.get? e.key = some st' ∧ (st'.arrivals = e.st.arrivals ∨ st'.arrivals = []) ∧
        { st' with arrivals := e.st.arrivals } = { e.st with
          st := .ended, wait := none, pend := [], loops := [], saved := [], hflag := false }) ∧
      (∀ k, t.kernels.get? e.tm.lid = some k → ∀ g, e.st.num ∉ k.members g)

/-- R93: `fe.wait` completes with no effect once its register is full and stalls until then; that `femode` makes no difference to
it is the model's reading (log 22). `fe.chk` reads the full/empty bit and never stalls on it. -/
def clauseFullEmptyWordsReadTheBit : Prop :=
  ∀ (s : State) (e : Env) (d x : XReg), s.env = some e →
    (e.st.isEmpty x = false → exec (.feWait x) s = .next (completed e e.st s)) ∧
    (e.st.isEmpty x = true → exec (.feWait x) s = .next (blocked e s (.poll e.mark))) ∧
    (e.st.isEmpty d = false →
      exec (.feChk d x) s = .next (completed e (e.st.setX d (if e.st.isEmpty x then 0 else 1)) s))

/-- R88, R89, R91 to R93: what an empty register does to the words that name it, how its result arrives, and the words that read
or await it. Two clauses state choices of the model and no rule: which of several empty sources a trap names (log 42), and that
`fe.wait` stalls whatever `femode` says (log 22). -/
def Obligations.EmptyRegistersStallTrapAndFill : Prop :=
  clausePendingResultArrives ∧ clauseEmptyRegisterStallsOrTraps ∧ clauseFencesWaitForPendingResults ∧
    clauseFullEmptyWordsReadTheBit

/-- R57, R87, R94, R103: the six CSR words, what each CSR keeps of a write, and the saved loop levels. -/
def Obligations.CsrWordsFollowTheirRules : Prop :=
  clauseCsrWordsReadThenWrite ∧ clauseCsrFieldsKeepTheirRules ∧ clauseSavedLevelsReadAndWriteTheirIndex

/-- R95 to R99: the loop-end event, the words that begin a loop, and the words that act on the stack. -/
def Obligations.LoopsFollowTheirLevels : Prop :=
  clauseLoopEndEventFollowsTheInnermostLevel ∧ clauseLoopBeginPushesOneLevel ∧ clauseLoopStackWordsActOnNamedLevel

/-- R64, R100 to R106: the words that trap, the entry into a handler, the return from it, and the trap that is fatal. -/
def Obligations.TrapsEnterTheHandlerAndReturn : Prop :=
  clauseTrapWordsRaiseTheirCause ∧ clauseInKernelTrapEntersTheHandler ∧ clauseFatalTrapFailsTheKernel ∧
    clauseTrapReturnRestoresTheLoops

/-! ## Scalar loads and stores (R86, R137 to R149) -/

/-- R137: what each range of local space names for core `c`. -/
def clauseLocalMapFollowsTheTable : Prop :=
  ∀ (c a : Nat), c < 512 →
    (a < 0x800000 → localTo c a = .dsp a) ∧
    (0x800000 ≤ a → a < 0x840000 → localTo c a = .isp (a - 0x800000)) ∧
    (0x900000 ≤ a → a < 0x900800 → localTo c a = .sem ((a - 0x900000) / 8) (decide (4 ≤ (a - 0x900000) % 8))) ∧
    (0x910000 ≤ a → a < 0x911000 → localTo c a = .reg (a - 0x910000)) ∧
    (∀ p o, p < 8 → o < 0x800000 → a = 0x10000000 + p * 0x1000000 + o →
      localTo c a = if c % 8 = p then .dsp o else .peer (c / 8 * 8 + p) o) ∧
    (0x840000 ≤ a → a < 0x900000 → localTo c a = .unmapped) ∧
    (0x900800 ≤ a → a < 0x910000 → localTo c a = .unmapped) ∧
    (0x911000 ≤ a → a < 0x10000000 → localTo c a = .unmapped) ∧
    (∀ p o, p < 8 → 0x800000 ≤ o → o < 0x1000000 → a = 0x10000000 + p * 0x1000000 + o → localTo c a = .unmapped) ∧
    (0x18000000 ≤ a → localTo c a = .unmapped)

/-- A scalar access: the registers it reads and writes, its base register and offset, its size, and whether it stores. -/
structure ScalarAccess where
  srcs  : List XReg
  dsts  : List XReg
  base  : XReg
  off   : BitVec 12
  size  : Nat
  store : Bool

/-- The scalar loads and stores. -/
def scalarAccess : Instr → Option ScalarAccess
  | .lb d b o | .lbu d b o => some ⟨[b], [d], b, o, 1, false⟩
  | .lh d b o | .lhu d b o => some ⟨[b], [d], b, o, 2, false⟩
  | .lw d b o => some ⟨[b], [d], b, o, 4, false⟩
  | .sb v b o => some ⟨[b, v], [], b, o, 1, true⟩
  | .sh v b o => some ⟨[b, v], [], b, o, 2, true⟩
  | .sw v b o => some ⟨[b, v], [], b, o, 4, true⟩
  | _ => none

/-- R86 and R137: a misaligned access raises cause 11, and otherwise an access that the table does not allow raises
cause 12, with the address; the access does not take place. -/
def clauseScalarAccessFaultsArePrecise : Prop :=
  ∀ (s : State) (e : Env) (i : Instr) (w : ScalarAccess), scalarAccess i = some w → Ready s e w.srcs w.dsts →
    let a : Word := e.st.getX w.base + w.off.signExtend 32
    let bad (cause : Nat) : Prop := exec i s = .next (s.trap e.core e.key e.st cause false a)
    let at_ := localTo e.core a.toNat
    (a.toNat % w.size ≠ 0 → bad 11) ∧
    (a.toNat % w.size = 0 →
      (at_ = .unmapped → bad 12) ∧
      (∀ o, at_ = .dsp o → (e.tm.firstUnowned o (o + w.size)).isSome → bad 12) ∧
      (∀ p o, at_ = .peer p o → s.peerCase e.tm.lid p = .fails → bad 12) ∧
      (∀ p o tk t, at_ = .peer p o → s.peerCase e.tm.lid p = .served tk → s.teams.get? tk = some t →
        (t.firstUnowned o (o + w.size)).isSome → bad 12) ∧
      (∀ o, at_ = .isp o → w.store = true → e.kn.desc.tw = false → bad 12) ∧
      (∀ k hi, at_ = .sem k hi → (w.store = true ∨ w.size ≠ 4 ∨ e.kn.desc.ownsSem k = false) → bad 12) ∧
      (∀ o, at_ = .reg o → (w.size ≠ 4 ∨ regMapped o = false) → bad 12))

/-- The scalar loads: destination, base, offset, size and whether the value is sign-extended. -/
def scalarLoad : Instr → Option (XReg × XReg × BitVec 12 × Nat × Bool)
  | .lb d b o => some (d, b, o, 1, true)
  | .lh d b o => some (d, b, o, 2, true)
  | .lw d b o => some (d, b, o, 4, false)
  | .lbu d b o => some (d, b, o, 1, false)
  | .lhu d b o => some (d, b, o, 2, false)
  | _ => none

/-- The little-endian value of `n` bytes of memory at `l`, extended to 32 bits. -/
def bytesValue (m : Mem) (l n : Nat) (signed : Bool) : Word :=
  let v := leNat ((List.range n).map (fun k => m.get (l + k)))
  if signed then (BitVec.ofNat (8 * n) v).signExtend 32 else BitVec.ofNat 32 v

/-- R85 and R86, loads: the value on its way to x[d] is that of the bytes at the address, in a scratchpad, through a
peer window or in the instruction scratchpad; `s1` is the state after the demand of the read, and no byte of memory
changes. While demanded work has not run, the word waits. -/
def clauseScalarLoadsGiveTheBytesOfMemory : Prop :=
  ∀ (s s1 s2 : State) (e : Env) (i : Instr) (d b : XReg) (off : BitVec 12) (n : Nat) (sg : Bool) (l : Nat),
    scalarLoad i = some (d, b, off, n, sg) → Ready s e [b] [d] → s.mem.wf = true →
    let a : Word := e.st.getX b + off.signExtend 32
    a.toNat % n = 0 →
    (s.dataAt e a.toNat n = .loc l →
      (s.reachAll e.core e.mark (e.demander 0) [(l, l + n)] [] = (s1, false) →
        s1.readCheck (some e.kn.ctx) l n = (s2, none) →
        exec i s = .next (completed e (e.st.later d (bytesValue s.mem l n sg)) s2) ∧ s2.mem = s.mem) ∧
      (s.reachAll e.core e.mark (e.demander 0) [(l, l + n)] [] = (s1, true) →
        exec i s = .next (blocked e s1 (.poll e.mark)) ∧ s1.mem = s.mem)) ∧
    (s.dataAt e a.toNat n = .wait → exec i s = .next (blocked e s (.poll e.mark))) ∧
    (∀ o, localTo e.core a.toNat = .isp o → s.readCheck (some e.kn.ctx) (ispLoc e.core o) n = (s2, none) →
      exec i s = .next (completed e (e.st.later d (bytesValue s.mem (ispLoc e.core o) n sg)) s2) ∧ s2.mem = s.mem)

/-- R150 and R139: `lw` of a semaphore of the kernel's range gives its count, or its overflow bit and the length of its
queue; `lw` of a mapped core register gives the register's word. -/
def clauseRegisterLoadsGiveTheRegister : Prop :=
  ∀ (s : State) (e : Env) (d b : XReg) (off : BitVec 12), Ready s e [b] [d] →
    let a : Word := e.st.getX b + off.signExtend 32
    a.toNat % 4 = 0 →
    (∀ k hi q, localTo e.core a.toNat = .sem k hi → e.kn.desc.ownsSem k = true →
      s.sems.get? (semKey e.tk k) = some q →
      exec (.lw d b off) s = .next (completed e (e.st.later d
        (if hi then BitVec.ofNat 32 ((if q.ovf then 1 else 0) + 256 * min 255 q.q.length) else q.count)) s)) ∧
    (∀ o, localTo e.core a.toNat = .reg o → regMapped o = true →
      exec (.lw d b off) s =
        .next (completed e ((s.regRead e.core e.tm e.st o).1.later d (s.regRead e.core e.tm e.st o).2) s))

/-- The scalar stores: value, base, offset and size. -/
def scalarStore : Instr → Option (XReg × XReg × BitVec 12 × Nat)
  | .sb v b o => some (v, b, o, 1)
  | .sh v b o => some (v, b, o, 2)
  | .sw v b o => some (v, b, o, 4)
  | _ => none

/-- R85 and R86, stores: the low bytes of the register are written at the address and every other byte of memory stays,
once the work that the store forces has run; `l` is the location that the word's own address resolves to. An ECC word that the
store covers in part is read first (R257), and an uncorrectable error in it ends the word unwritten (R296). -/
def clauseScalarStoresWriteOnlyTheirBytes : Prop :=
  ∀ (s s1 s2 : State) (e : Env) (i : Instr) (v b : XReg) (off : BitVec 12) (n l : Nat),
    scalarStore i = some (v, b, off, n) → Ready s e [b, v] [] → s.mem.wf = true →
    let a : Word := e.st.getX b + off.signExtend 32
    a.toNat % n = 0 → s.dataAt e a.toNat n = .loc l →
    (s.reachAll e.core e.mark (e.demander 0) [] [(l, l + n)] = (s1, false) →
      s1.checkSpans e.kn.ctx (partWords [(l, l + n)]) = (s2, none) →
      ∃ t, exec i s = .next (completed e e.st t) ∧
        (∀ k, k < n → t.mem.get (l + k) = (e.st.getX v >>> (8 * k)).truncate 8) ∧
        (∀ x, ¬(l ≤ x ∧ x < l + n) → t.mem.get x = s.mem.get x) ∧ t.mem.wf = true ∧
        { t with mem := s1.mem, poison := s1.poison, injected := s1.injected, arrays := s1.arrays } = s1) ∧
    (∀ p, s.reachAll e.core e.mark (e.demander 0) [] [(l, l + n)] = (s1, false) →
      s1.checkSpans e.kn.ctx (partWords [(l, l + n)]) = (s2, some p) →
      exec i s = .next (s2.memError e.tm.lid p) ∧ s2.mem = s.mem) ∧
    (s.reachAll e.core e.mark (e.demander 0) [] [(l, l + n)] = (s1, true) →
      exec i s = .next (blocked e s1 (.poll e.mark)) ∧ s1.mem = s.mem)

/-- R320 and R89: a kernel whose descriptor sets tw stores into the instruction scratchpad; until a `fence.i` of the
core, a fetch gives the new word or the word that was there. -/
def clauseTextStoresChangeTheText : Prop :=
  ∀ (s s1 : State) (e : Env) (v b : XReg) (off : BitVec 12) (o : Nat), Ready s e [b, v] [] → s.mem.wf = true →
    let a : Word := e.st.getX b + off.signExtend 32
    a.toNat % 4 = 0 → localTo e.core a.toNat = .isp o → e.kn.desc.tw = true → (s.core e.core).stale = [] →
    s.checkSpans e.kn.ctx (partWords [(ispLoc e.core o, ispLoc e.core o + 4)]) = (s1, none) →
    ∃ t, exec (.sw v b off) s = .next (completed e e.st t) ∧
      t.mem.num (ispLoc e.core o) 4 = (e.st.getX v).toNat ∧
      (∀ x, ¬(ispLoc e.core o ≤ x ∧ x < ispLoc e.core o + 4) → t.mem.get x = s.mem.get x) ∧
      (t.fetchWord e.core o = e.st.getX v ∨
        t.fetchWord e.core o = BitVec.ofNat 32 (s.mem.num (ispLoc e.core o) 4))

/-- R139: a read of the low word of a 64-bit counter latches its high word for the strand, and the next read of the high
word by the same strand gives what was latched and drops it; the latches of other counters stay. -/
def clauseCounterReadLatchesTheHighWord : Prop :=
  ∀ (s : State) (core key : Nat) (tk : Nat) (tm : Team) (st : Strand) (off : BitVec 12), counterLow.contains off.toNat = true →
    let v := s.counter64 core off.toNat
    let r := s.regRead core tm st off.toNat
    r.2 = v.truncate 32 ∧ { r.1 with latch := st.latch } = st ∧
    (∀ s' : State, (s'.regRead core tm r.1 (off.toNat + 4)).2 = (v >>> 32).truncate 32 ∧
      (s'.regRead core tm r.1 (off.toNat + 4)).1 = { st with latch := (st.latch.set (off.toNat + 4) ((v >>> 32).truncate 32)).erase (off.toNat + 4) }) ∧
    (s.teamCore (strandTeam key) = core → s.activeTeam core = some (tk, tm) → tk = strandTeam key →
      s.strands.get? key = some st → exec (.counterLowWordRead key off) s = .next (s.setStrand key r.1))

/-- R142 and R140: a write of sk or of a row of the XOR matrix first forces and awaits the work on the region, then zeroes
every byte of an enabled region, whatever the value, and then sets the field (which 12 to 15 leave as it was); the base,
the size and the mode cannot be written. -/
def clauseRegionFieldWriteClearsTheRegion : Prop :=
  ∀ (s s1 : State) (core : BitVec 9) (tk : Nat) (t : Team) (i : Fin 16) (f : Nat) (v : Word),
    s.activeTeam core.toNat = some (tk, t) → 3 ≤ f → f ≤ 9 → s.mem.wf = true →
    let off : BitVec 12 := BitVec.ofNat 12 (0x40 * i.val + 4 * f)
    let r := t.regions[i.val]
    let lo := dspLoc core.toNat r.base.toNat
    let run : List Span := if r.mode = 0 ∨ r.size = 0 then [] else [(lo, lo + r.size.toNat)]
    (s.reach core.toNat (s.core core.toNat).nextSeq (outerDemander 0 core.toNat) [] run = (s1, true) →
      exec (.regionFieldWrite core off v) s = .next s1 ∧ s1.mem = s.mem) ∧
    (s.reach core.toNat (s.core core.toNat).nextSeq (outerDemander 0 core.toNat) [] run = (s1, false) →
      ∃ s2, exec (.regionFieldWrite core off v) s = .next s2 ∧
        exec (.registerWrite (.core core off) v) s = .next s2 ∧
        (r.mode ≠ 0 → ∀ x, lo ≤ x → x < lo + r.size.toNat → s2.mem.get x = 0) ∧
        (∀ x, (r.mode = 0 ∨ ¬(lo ≤ x ∧ x < lo + r.size.toNat)) → s2.mem.get x = s.mem.get x) ∧
        ∃ t2 t1, s1.teams.get? tk = some t1 ∧ s2.teams.get? tk = some t2 ∧
          { t2 with regions := t1.regions } = t1 ∧ (∀ j : Fin 16, j ≠ i → t2.regions[j.val] = t1.regions[j.val]) ∧
          let q := t2.regions[i.val]
          q.base = t1.regions[i.val].base ∧ q.size = t1.regions[i.val].size ∧ q.mode = t1.regions[i.val].mode ∧
          (f = 3 → q.sk.toNat = if v.toNat % 16 ≤ 11 then v.toNat % 16 else t1.regions[i.val].sk.toNat) ∧
          (∀ j : Fin 6, f = 4 + j.val → q.h[j.val].toNat = v.toNat / 2 ^ 12 % 2 ^ 12))

/-- R149: enabling a windrow zeroes head and arrived, and a write of base, rows or pitch while it is enabled is ignored. -/
def clauseWindrowEnableRestartsTheWindow : Prop :=
  ∀ (s : State) (core : BitVec 9) (w : BitVec 3) (v : Word),
    let old := (s.core core.toNat).windrows[w.toNat]'w.isLt
    (∃ t, exec (.windrowEnable core w) s = .next t ∧
      let new := (t.core core.toNat).windrows[w.toNat]'w.isLt
      new.en = true ∧ (old.en = false → new.head = 0 ∧ new.arrived = 0) ∧ (old.en = true → new = old) ∧
      { new with en := old.en, head := old.head, arrived := old.arrived } = old ∧
      (∀ j : Fin 8, j.val ≠ w.toNat → (t.core core.toNat).windrows[j.val] = (s.core core.toNat).windrows[j.val]) ∧
      { t with cores := s.cores } = s) ∧
    (old.en = true → old.put 4 v = old ∧ old.put 8 v = old ∧ old.put 12 v = old) ∧
    (old.en = false →
      old.put 4 v = { old with base := v.truncate 23 } ∧ old.put 8 v = { old with rows := v.truncate 12 } ∧
      old.put 12 v = { old with pitch := v.truncate 17 }) ∧
    old.put 16 v = old ∧ old.put 20 v = old

/-- The bits that a store keeps of a word of the core-register block other than a region field or a windrow (R139, R140, R144,
R145, R201, R205); none where the word is RO. -/
def keptBits (o : Nat) : Word :=
  if o < 0x400 then (if o % 0x40 = 0x28 then 0xFFFFFFFF else 0)
  else if o ∈ [0x400, 0x404, 0x408, 0x40C, 0x410, 0x484, 0x488, 0x500, 0x504, 0x508, 0x50C, 0x510, 0x514, 0x518, 0x51C, 0x520,
    0x524, 0x528, 0x610, 0x614, 0x618, 0x61C, 0x620, 0x624] then 0xFFFFFFFF
  else if o = 0x414 then 0x1F
  else if o = 0x530 then 1
  else 0

/-- R139, R140, R142, R144, R145, R149, R201, R205: `sw` to a mapped core register. A region field is written as REGION_FIELD_WRITE
writes it; a windrow word as R149 gives; any other word keeps the value in its RW bits, and no other word of the block
changes. -/
def clauseStoresReachTheCoreRegisters : Prop :=
  ∀ (s : State) (e : Env) (v b : XReg) (off : BitVec 12) (o : Nat), Ready s e [b, v] [] →
    let a : Word := e.st.getX b + off.signExtend 32
    let x := e.st.getX v
    a.toNat % 4 = 0 → localTo e.core a.toNat = .reg o → regMapped o = true →
    (∀ s1, isRegionField o = true →
      (s.regionFieldWrite e.core e.tk e.mark (e.demander 0) o x = (s1, true) →
        exec (.sw v b off) s = .next (blocked e s1 (.poll e.mark))) ∧
      (s.regionFieldWrite e.core e.tk e.mark (e.demander 0) o x = (s1, false) →
        exec (.sw v b off) s = .next (completed e e.st s1))) ∧
    (isRegionField o = false →
      ∃ t tm', exec (.sw v b off) s = .next (completed e e.st t) ∧ t.teams.get? e.tk = some tm' ∧
        { t with cores := s.cores, teams := s.teams } = s ∧ (∀ c, c ≠ e.core → t.core c = s.core c) ∧
        (∀ k, k ≠ e.tk → t.teams.get? k = s.teams.get? k) ∧
        (∀ w : Fin 8, o / 0x20 = 0x40 + w.val →
          (t.core e.core).windrows[w.val] = ((s.core e.core).windrows[w.val]).put (o % 0x20) x) ∧
        (∀ w : Fin 8, o / 0x20 ≠ 0x40 + w.val → (t.core e.core).windrows[w.val] = (s.core e.core).windrows[w.val]) ∧
        (o = 0x52C → t.regWord e.core tm' o = BitVec.ofNat 32 (s.core e.core).stook.length ||| (x &&& 0x07FF0000)) ∧
        (o < 0x800 → o ≠ 0x52C → t.regWord e.core tm' o = (x &&& keptBits o) ||| (s.regWord e.core e.tm o &&& ~~~keptBits o)) ∧
        (∀ p, p % 4 = 0 → p < 0x800 → p ≠ o → t.regWord e.core tm' p = s.regWord e.core e.tm p))

/-- R86, R137 to R139, R146, R150: where a local address lies, and the traps of an access that may not be made. -/
def Obligations.LocalMapAndAccessFaults : Prop := clauseLocalMapFollowsTheTable ∧ clauseScalarAccessFaultsArePrecise

/-- R86, R139: what a load of the scratchpads, of a semaphore or of a core register gives. -/
def Obligations.LoadsGiveWhatTheyRead : Prop :=
  clauseScalarLoadsGiveTheBytesOfMemory ∧ clauseRegisterLoadsGiveTheRegister ∧ clauseCounterReadLatchesTheHighWord

/-- R86, R89, R139 to R145, R149, R201, R205, R257, R280, R296, R320: what a store to a scratchpad, to the text or to a core
register writes, and that it writes nothing else. -/
def Obligations.StoresWriteOnlyTheirBytes : Prop :=
  clauseScalarStoresWriteOnlyTheirBytes ∧ clauseTextStoresChangeTheText ∧ clauseStoresReachTheCoreRegisters

/-! ## Semaphores, windrows, groups and barriers (R147 to R155, R351 to R366) -/

/-- The amounts of the first `k` waits of a queue. -/
def amountOf (q : List (Waiter × Word)) (k : Nat) : Nat := ((q.take k).map (fun w => w.2.toNat)).sum

/-- The first `k` waits of a queue are those that a count serves from the head (R154). -/
def servedFrom (q : List (Waiter × Word)) (count k : Nat) : Prop :=
  k ≤ q.length ∧ amountOf q k ≤ count ∧ (k < q.length → count < amountOf q (k + 1))

/-- R151, R153, R154: `sem.sig` adds to the count and `sem.set` replaces it, then the queue is served from its head for as
long as the head's amount fits, and every strand so served waits no more; at an OVERFLOWED semaphore both are
discarded, and a signal of a FREE one only counts as stray. Both wait for the strand's pending results (R155). -/
def clauseSignalsAndSetsServeTheQueue : Prop :=
  ∀ (s : State) (e : Env) (n : BitVec 8) (x : XReg), Ready s e [x] [] → e.kn.desc.ownsSem n.toNat = true →
    let a := (e.st.getX x).toNat
    let key := semKey e.tk n.toNat
    (e.st.pend ≠ [] →
      exec (.semSig n x) s = .next (blocked e s (.poll e.mark)) ∧
      exec (.semSet n x) s = .next (blocked e s (.poll e.mark))) ∧
    (e.st.pend = [] → ∀ q, s.sems.get? key = some q →
      (q.ovf = true →
        exec (.semSig n x) s = .next (completed e e.st s) ∧
        ∃ t, exec (.semSet n x) s = .next t ∧ t.sems.get? key = some q) ∧
      (q.ovf = false → ∀ (i : Instr) (c : Nat),
        (i = .semSig n x ∧ c = q.count.toNat + a ∧ c < 2 ^ 32 ∨ i = .semSet n x ∧ c = a) →
        ∃ t k q', exec i s = .next t ∧ servedFrom q.q c k ∧ t.sems.get? key = some q' ∧
          q'.count.toNat = c - amountOf q.q k ∧ q'.q = q.q.drop k ∧ q'.ovf = false ∧
          (∀ m, m ≠ key → t.sems.get? m = s.sems.get? m) ∧ t.mem = s.mem ∧
          (∀ w, w ∈ q.q.take k → ∀ j st, w.1 = .strand j → s.strands.get? j = some st →
            ∃ st', t.strands.get? j = some st' ∧ st'.wait = none ∧ st'.st ≠ .blocked) ∧
          ∃ st', t.strands.get? e.key = some st' ∧ st'.wait = none ∧ ∀ r, st'.getX r = e.st.getX r)) ∧
    (e.st.pend = [] → s.sems.get? key = none →
      ∃ t, exec (.semSig n x) s = .next t ∧ t.sems = s.sems ∧
        (t.core e.core).cnt = { (s.core e.core).cnt with shstray := (s.core e.core).cnt.shstray + 1 })

/-- R151: a signal that takes the count above 0xFFFF_FFFF fails the kernel with the semaphore in its record. -/
def clauseSemaphoreOverflowFailsTheKernel : Prop :=
  ∀ (s : State) (e : Env) (n : BitVec 8) (x : XReg) (q : Sem), Ready s e [x] [] → e.kn.desc.ownsSem n.toNat = true →
    e.st.pend = [] → e.tm.num < 512 → e.tk = teamKey e.tm.lid e.tm.num → e.kn.st.live = true → e.kn.fl.fk = 0 →
    s.sems.get? (semKey e.tk n.toNat) = some q → q.ovf = false → 2 ^ 32 ≤ q.count.toNat + (e.st.getX x).toNat →
    ∃ t k, exec (.semSig n x) s = .next t ∧ t.kernels.get? e.tm.lid = some k ∧ k.st = .failed ∧ k.fl.fk = 5 ∧
      k.fl.unit = e.core ∧ k.fl.info = n.zeroExtend 32 ∧
      ∀ key st, t.strands.get? key = some st → st.lid = e.tm.lid → st.st = .ended

/-- R153: `sem.wait` is served at once when nothing waits and the count suffices, and otherwise joins the queue and stays
BLOCKED; `sem.try` never waits; `sem.rd` reads the count. `u` is the state after the force of the sheaves that
signal the semaphore. -/
def clauseWaitsTakeFromTheCount : Prop :=
  ∀ (s : State) (e : Env) (n : BitVec 8) (d x : XReg) (q : Sem), e.kn.desc.ownsSem n.toNat = true →
    let a := e.st.getX x
    let key := semKey e.tk n.toNat
    let u := s.stookStep e.core (fun k => k.forceWhole e.core (e.demander 0) (fun h => h.signals e.core e.tk n.toNat))
    u.sems.get? key = some q →
    let fits : Prop := q.ovf = false ∧ q.q = [] ∧ a.toNat ≤ q.count.toNat
    (Ready s e [x] [] → fits →
      ∃ t st', exec (.semWait n x) s = .next t ∧ t.sems.get? key = some { q with count := q.count - a } ∧
        t.strands.get? e.key = some st' ∧ st'.wait = none ∧ st'.st ≠ .blocked ∧
        st'.pc = (e.st.loopEnd e.st.pc).pc ∧ t.mem = s.mem) ∧
    (Ready s e [x] [] → ¬fits → (s.core e.core).switch = false →
      (∀ w r, q.q = w :: r → q.count.toNat < w.2.toNat) →
      ∃ t st', exec (.semWait n x) s = .next t ∧
        t.sems.get? key = some { q with q := q.q ++ [(.strand e.key, a)] } ∧
        t.strands.get? e.key = some st' ∧ st'.st = .blocked ∧ st'.wait = some .sem ∧ st'.pc = e.st.pc) ∧
    (Ready s e [x] [d] →
      (fits → ∃ t, exec (.semTry d n x) s = .next (completed e (e.st.setX d 1) t) ∧
        t.sems.get? key = some { q with count := q.count - a } ∧ t.mem = s.mem) ∧
      (¬fits → exec (.semTry d n x) s = .next (completed e (e.st.setX d 0) u))) ∧
    (Ready s e [] [d] → ∀ q0, s.sems.get? key = some q0 →
      exec (.semRd d n) s = .next (completed e (e.st.setX d q0.count) s))

/-- R152: a semaphore outside the kernel's range raises cause 12 with the address of its entry, before any effect. -/
def clauseSemaphoreRangeIsChecked : Prop :=
  ∀ (s : State) (e : Env) (n : BitVec 8) (d x : XReg), e.kn.desc.ownsSem n.toNat = false →
    let bad : Host.Outcome State Fault Refusal :=
      .next (s.trap e.core e.key e.st 12 false (BitVec.ofNat 32 (0x900000 + 8 * n.toNat)))
    (Ready s e [x] [] → exec (.semWait n x) s = bad ∧ exec (.semSig n x) s = bad ∧ exec (.semSet n x) s = bad ∧
      exec (.wrAdv n x) s = bad) ∧
    (Ready s e [x] [d] → exec (.semTry d n x) s = bad) ∧ (Ready s e [] [d] → exec (.semRd d n) s = bad)

/-- R148: `wr.adv` advances the lowest-numbered enabled windrow whose arrival semaphore is N by x[xs] rows, waits while they
have not arrived, and raises cause 12 for a missing windrow or for more rows than the ring has. -/
def clauseWindrowAdvanceMovesTheHead : Prop :=
  ∀ (s : State) (e : Env) (n : BitVec 8) (x : XReg), Ready s e [x] [] → e.kn.desc.ownsSem n.toNat = true →
    let v := e.st.getX x
    let k := s.core e.core
    let serves (i : Fin 8) : Prop := k.windrows[i.val].en = true ∧ k.windrows[i.val].sem = n
    ((∀ i, ¬serves i) →
      exec (.wrAdv n x) s = .next (s.trap e.core e.key e.st 12 false (BitVec.ofNat 32 (0x900000 + 8 * n.toNat)))) ∧
    ∀ i : Fin 8, serves i → (∀ j : Fin 8, j < i → ¬serves j) →
      let w := k.windrows[i.val]
      (w.rows.toNat < v.toNat →
        exec (.wrAdv n x) s = .next (s.trap e.core e.key e.st 12 false (BitVec.ofNat 32 (0x910800 + 0x20 * i.val)))) ∧
      (v = 0 → exec (.wrAdv n x) s = .next (completed e e.st s)) ∧
      (v ≠ 0 → v.toNat ≤ w.rows.toNat → (w.arrived - w.head).toNat < v.toNat →
        exec (.wrAdv n x) s = .next (blocked e s (.poll e.mark))) ∧
      (v ≠ 0 → v.toNat ≤ w.rows.toNat → v.toNat ≤ (w.arrived - w.head).toNat →
        exec (.wrAdv n x) s = .next (completed e e.st
          (s.setCore e.core { k with windrows := k.windrows.set i.val { w with head := w.head + v } i.isLt })))

/-- R361: the result of a phase from the contributions of its arrivals. -/
def phaseResult (op : Nat) (cs : List Word) : Word :=
  if op = 1 then cs.foldr (· &&& ·) (BitVec.allOnes 32)
  else if op = 2 then cs.foldr (· ||| ·) 0
  else if op = 3 then BitVec.ofNat 32 ((cs.map BitVec.toNat).sum)
  else if op = 4 then BitVec.ofNat 32 ((cs.filter (· ≠ 0)).length)
  else 0

/-- R355, R351 to R353: the four group words by their encoding, what they do to the members of a group, in join order, and
which misuses raise cause 12; ranks are places in the join order. A leave by a strand that is no member has no effect; one by
a member completes the open phases of the group's barriers in which every other member has arrived (R362), and touches no
other barrier. -/
def clauseGroupWordsKeepTheJoinOrder : Prop :=
  ∀ (s : State) (e : Env) (d x : XReg),
    let g := e.st.getX x
    let ms := e.kn.members g.toNat
    let num := e.st.num
    let bad (i : Instr) (info : Word) : Prop := exec i s = .next (s.trap e.core e.key e.st 12 false info)
    (255 < g.toNat → (Ready s e [x] [] → bad (.grpJoin x) g ∧ bad (.grpLeave x) g) ∧
      (Ready s e [x] [d] → bad (.grpSize d x) g ∧ bad (.grpRank d x) g)) ∧
    (g.toNat ≤ 255 → Ready s e [x] [] →
      (num ∈ ms → exec (.grpJoin x) s = .next (completed e e.st s)) ∧
      (num ∉ ms → g ≠ 0 → 16 ≤ e.kn.memberships num →
        bad (.grpJoin x) (BitVec.ofNat 32 (0xFFFFFE00 + g.toNat))) ∧
      (num ∉ ms → (g = 0 ∨ e.kn.memberships num < 16) →
        ∃ k', exec (.grpJoin x) s = .next (completed e e.st (s.setKernel e.tm.lid k')) ∧
          k'.members g.toNat = ms ++ [num] ∧ (∀ h, h ≠ g.toNat → k'.members h = e.kn.members h) ∧
          { k' with groups := e.kn.groups } = e.kn) ∧
      (g = 0 → bad (.grpLeave x) 0xFFFFFE00) ∧
      (g ≠ 0 → num ∉ ms → exec (.grpLeave x) s = .next (completed e e.st s)) ∧
      (g ≠ 0 → num ∈ ms → ∃ k', exec (.grpLeave x) s = .next (completed e e.st (s.setKernel e.tm.lid k')) ∧
        k'.members g.toNat = ms.filter (· ≠ num) ∧ (∀ h, h ≠ g.toNat → k'.members h = e.kn.members h) ∧
        { k' with groups := e.kn.groups, bars := e.kn.bars } = e.kn ∧
        ∀ n b, e.kn.bars.get? n = some b →
          let ends : Prop := b.word.toNat % 256 = g.toNat ∧ b.broken = false ∧ b.arr ≠ [] ∧
            ∀ m ∈ ms, m ≠ num → ∃ p ∈ b.arr, p.1 = m
          (ends → k'.bars.get? n = some { b with
            results := b.results.set b.k (phaseResult (b.word.toNat / 256 % 8) (b.arr.map (·.2))), k := b.k + 1, arr := [] }) ∧
          (¬ends → k'.bars.get? n = some b))) ∧
    (g.toNat ≤ 255 → Ready s e [x] [d] →
      exec (.grpSize d x) s = .next (completed e (e.st.setX d (BitVec.ofNat 32 ms.length)) s) ∧
      (num ∉ ms → exec (.grpRank d x) s = .next (completed e (e.st.setX d 0xFFFFFFFF) s)) ∧
      (∀ r, ms[r]? = some num → (∀ r', r' < r → ms[r']? ≠ some num) →
        exec (.grpRank d x) s = .next (completed e (e.st.setX d (BitVec.ofNat 32 r)) s))) ∧
    let word (sub d : Nat) : Word := BitVec.ofNat 32 (sub * 2 ^ 26 + x.toNat * 2 ^ 15 + 0x5000 + d * 2 ^ 7 + 0x0B)
    decodeStrand (word 0 0) = some (.grpJoin x) ∧ decodeStrand (word 1 0) = some (.grpLeave x) ∧
    decodeStrand (word 2 d.toNat) = some (.grpSize d x) ∧ decodeStrand (word 3 d.toNat) = some (.grpRank d x)

/-- R354: the span of a group is the narrowest domain of R267 with every core that holds or last held the team of a member;
a team that has been given no core counts on every core of the kernel, and an empty group has no span. -/
def clauseGroupSpanIsTheNarrowestDomain : Prop :=
  ∀ (s : State) (lid g : Nat) (k : Kernel), s.kernels.get? lid = some k →
    let ms := k.members g
    let on (n c : Nat) : Prop :=
      match s.teams.get? (teamKey lid (n / 4)) with
      | some t => t.place = .active c ∨ t.place = .spent c ∨ t.place = .held c ∨
          ((∀ x, t.place ≠ .active x ∧ t.place ≠ .spent x ∧ t.place ≠ .held x) ∧
            (t.lastCore = some c ∨ (t.lastCore = none ∧ c ∈ k.cores)))
      | none => c ∈ k.cores
    let within (w : Nat) : Prop := ∀ n m c d, n ∈ ms → m ∈ ms → on n c → on m d → c / w = d / w
    (ms = [] → s.groupSpan lid g = none) ∧
    ((∃ n ∈ ms, ∃ c, on n c) →
      (within 1 → s.groupSpan lid g = some .core) ∧
      (¬within 1 → within 8 → s.groupSpan lid g = some .cluster) ∧
      (¬within 8 → within 64 → s.groupSpan lid g = some .die) ∧
      (¬within 64 → s.groupSpan lid g = some .device))

/-- R351 to R355: the group words, and the span of a group. -/
def Obligations.GroupWordsKeepTheJoinOrder : Prop :=
  clauseGroupWordsKeepTheJoinOrder ∧ clauseGroupSpanIsTheNarrowestDomain

/-- R360, R362 and R364, `bar.init`: a valid word binds an UNBOUND barrier or rebinds an OPEN one whose phase has no
arrival; the same word changes nothing; anything else is a bad init, and at a BROKEN barrier a timeout. -/
def clauseBarrierInitBindsTheWord : Prop :=
  ∀ (s : State) (e : Env) (n : BitVec 6) (x : XReg), Ready s e [x] [] →
    let w := e.st.getX x
    let valid : Prop := w.toNat / 2 ^ 8 % 8 ≤ 4 ∧ w.toNat / 2 ^ 11 % 2 = 0 ∧ w.toNat / 2 ^ 16 = 0
    let misuse (m : Nat) : Prop :=
      exec (.barInit n x) s = .next (s.trap e.core e.key e.st 12 false (BitVec.ofNat 32 (0xFFFFFC00 + 0x40 * m + n.toNat)))
    let binds (b' : Bar) : Prop := exec (.barInit n x) s =
      .next (completed e e.st (s.setKernel e.tm.lid { e.kn with bars := e.kn.bars.set n.toNat b' }))
    (e.kn.bars.get? n.toNat = none →
      (valid → binds { word := w, k := 0, arr := [], broken := false, results := [] }) ∧ (¬valid → misuse 4)) ∧
    ∀ b, e.kn.bars.get? n.toNat = some b →
      (b.broken = true → misuse 0) ∧
      (b.broken = false → ¬valid → misuse 4) ∧
      (b.broken = false → valid → b.word = w → exec (.barInit n x) s = .next (completed e e.st s)) ∧
      (b.broken = false → valid → b.word ≠ w → b.arr ≠ [] → misuse 4) ∧
      (b.broken = false → valid → b.word ≠ w → b.arr = [] → binds { b with word := w })

/-- R361 to R364, arrivals and waits: an arrival joins the open phase, which completes with its result once every current
member has arrived; `bar.wait` takes the result of the strand's phase once that phase has completed and waits until
then; `bar.sync` does both. The misuses raise cause 12. -/
def clauseBarrierPhasesCompleteWithTheirResult : Prop :=
  ∀ (s : State) (e : Env) (n : BitVec 6) (d x : XReg),
    let c := e.st.getX x
    let trap (m : Nat) : Host.Outcome State Fault Refusal :=
      .next (s.trap e.core e.key e.st 12 false (BitVec.ofNat 32 (0xFFFFFC00 + 0x40 * m + n.toNat)))
    let a := e.st.arrivals.get? n.toNat
    (e.kn.bars.get? n.toNat = none →
      (Ready s e [x] [] → exec (.barArrive n x) s = trap 1) ∧ (Ready s e [] [d] → exec (.barWait d n) s = trap 1) ∧
      (Ready s e [x] [d] → e.st.wait ≠ some .synced → exec (.barSync d n x) s = trap 1)) ∧
    ∀ b, e.kn.bars.get? n.toNat = some b →
      let ms := e.kn.members (b.word.toNat % 256)
      let arr' := b.arr ++ [(e.st.num, c)]
      let full : Prop := ∀ m ∈ ms, ∃ p ∈ arr', p.1 = m
      let st' : Strand := { e.st with arrivals := e.st.arrivals.set n.toNat { phase := b.k, flag := true } }
      let after (b' : Bar) : State := s.setKernel e.tm.lid { e.kn with bars := e.kn.bars.set n.toNat b' }
      let res := phaseResult (b.word.toNat / 256 % 8) (arr'.map (·.2))
      let next : Bar := { b with results := b.results.set b.k res, k := b.k + 1, arr := [] }
      let held : Prop := ∃ p, a = some p ∧ p.flag = true ∧ p.phase = b.k
      (b.broken = true → (Ready s e [x] [] → exec (.barArrive n x) s = trap 0) ∧
        (Ready s e [x] [d] → e.st.wait ≠ some .synced → exec (.barSync d n x) s = trap 0)) ∧
      (b.broken = false → e.st.num ∉ ms → (Ready s e [x] [] → exec (.barArrive n x) s = trap 2) ∧
        (Ready s e [x] [d] → e.st.wait ≠ some .synced → exec (.barSync d n x) s = trap 2)) ∧
      (b.broken = false → e.st.num ∈ ms → held → Ready s e [x] [] →
        exec (.barArrive n x) s = .next (blocked e s (.poll e.mark))) ∧
      (b.broken = false → e.st.num ∈ ms → ¬held → e.st.pend = [] →
        (Ready s e [x] [] →
          (full → exec (.barArrive n x) s = .next (completed e st' (after next))) ∧
          (¬full → exec (.barArrive n x) s = .next (completed e st' (after { b with arr := arr' })))) ∧
        (Ready s e [x] [d] → e.st.wait ≠ some .synced →
          (full → exec (.barSync d n x) s = .next (completed e
            ({ e.st with arrivals := st'.arrivals.set n.toNat { phase := b.k, flag := false } }.setX d res) (after next))) ∧
          (¬full → exec (.barSync d n x) s =
            let u := after { b with arr := arr' }
            .next (u.setStrand e.key (u.park e.core st' .synced))))) ∧
      (Ready s e [] [d] →
        ((∀ p, a = some p → p.flag = false) → exec (.barWait d n) s = trap 3) ∧
        ∀ p, a = some p → p.flag = true →
          (p.phase < b.k → exec (.barWait d n) s = .next (completed e
            ({ e.st with arrivals := e.st.arrivals.set n.toNat { p with flag := false } }.setX d
              ((b.results.get? p.phase).getD 0)) s)) ∧
          (b.k ≤ p.phase → b.broken = true → exec (.barWait d n) s = trap 0) ∧
          (b.k ≤ p.phase → b.broken = false → exec (.barWait d n) s = .next (blocked e s (.poll e.mark))))

/-- R362: the timeout of an open phase with arrivals breaks a barrier whose binding word sets one, and no other. -/
def clauseBarrierTimeoutBreaksOnlyItsBarrier : Prop :=
  ∀ (s : State) (lid : Nat) (n : BitVec 6) (k : Kernel), s.kernels.get? lid = some k →
    ∃ t k', exec (.barrierTimeout lid n) s = .next t ∧ t.kernels.get? lid = some k' ∧
      { t with kernels := s.kernels } = s ∧ { k' with bars := k.bars } = k ∧
      (∀ m, m ≠ n.toNat → k'.bars.get? m = k.bars.get? m) ∧
      ∀ b, k.bars.get? n.toNat = some b → k'.bars.get? n.toNat =
        some (if b.word.toNat / 4096 % 16 ≠ 0 ∧ b.arr ≠ [] then { b with broken := true } else b)

/-- R141, R142, R147 to R149: the registers of regions and windrows, and `wr.adv`. -/
def Obligations.RegionsAndWindrowsFollowTheirRegisters : Prop :=
  clauseRegionFieldWriteClearsTheRegion ∧ clauseWindrowEnableRestartsTheWindow ∧ clauseWindrowAdvanceMovesTheHead

/-- R150 to R155: signals, sets, waits, tries and reads of a semaphore, its overflow and its owner's range. -/
def Obligations.SemaphoresCountAndServe : Prop :=
  clauseSignalsAndSetsServeTheQueue ∧ clauseSemaphoreOverflowFailsTheKernel ∧ clauseWaitsTakeFromTheCount ∧
    clauseSemaphoreRangeIsChecked

/-- R359 to R363: a barrier is bound, its phases complete with their result, and a timeout breaks it. -/
def Obligations.BarriersCompleteTheirPhases : Prop :=
  clauseBarrierInitBindsTheWord ∧ clauseBarrierPhasesCompleteWithTheirResult ∧ clauseBarrierTimeoutBreaksOnlyItsBarrier

/-! ## Kernel words of strands: `yield`, early start, work ranges and pipes (R341, R344 to R347) -/

/-- R344: with nothing pending `yield` has no effect; with a switch or a park pending the strand stops at the boundary
after it. -/
def clauseYieldStopsOnlyWhenPending : Prop :=
  ∀ (s : State) (e : Env), s.env = some e →
    ((s.core e.core).switch = false → e.tm.park = none → exec .yield s = .next (completed e e.st s)) ∧
    ((s.core e.core).switch = true ∨ e.tm.park ≠ none →
      ∃ t st', exec .yield s = .next t ∧ t.strands.get? e.key = some st' ∧ st'.st = .stopped ∧ st'.wait = none ∧
        st'.pc = (e.st.loopEnd e.st.pc).pc ∧ (∀ r, st'.getX r = e.st.getX r) ∧ t.mem = s.mem)

/-- R345 and R346: `dep.wait` completes at once when every producer has triggered and is BLOCKED until then; `dep.trig`,
once the strand's pending results have arrived, marks the strand, and the kernel's trigger fires when every strand of
it has triggered or ended, unless its record asked for rollback. -/
def clauseDependenceWordsFollowTheTriggers : Prop :=
  ∀ (s : State) (e : Env), s.env = some e →
    (s.producersFired e.kn = true → exec .depWait s = .next (completed e e.st s)) ∧
    (s.producersFired e.kn = false → (s.core e.core).switch = false →
      ∃ t, exec .depWait s = .next t ∧
        t.strands.get? e.key = some { e.st with st := .blocked, wait := some (.poll e.mark), held := some .depWait } ∧
        t.mem = s.mem) ∧
    (e.kn.producers = [] → s.producersFired e.kn = true) ∧
    (e.st.pend ≠ [] → exec .depTrig s = .next (blocked e s (.poll e.mark))) ∧
    (e.st.pend = [] →
      ∃ t st' k', exec .depTrig s = .next t ∧ t.strands.get? e.key = some st' ∧ st'.trig = true ∧
        (∀ r, st'.getX r = e.st.getX r) ∧ t.kernels.get? e.tm.lid = some k' ∧
        (e.kn.st.live = true → e.kn.rbOn = false →
          (∀ n, n ≤ e.kn.desc.nsm → strandKey e.tm.lid n ≠ e.key →
            ∃ st, s.strandOf e.tm.lid n = some st ∧ (st.trig = true ∨ st.st = .ended)) → k'.fired = true) ∧
        (e.kn.fired = false → k'.fired = true → k'.st = .retired ∨ e.kn.rbOn = false))

/-- R347: `rng.init` sets the team's range, empty when it would not rise; `rng.next` takes the lowest index of the own
range, and with none left asks the other teams in order, or gives all ones when there is no other. -/
def clauseWorkRangeHandsOutItsIndices : Prop :=
  ∀ (s : State) (e : Env) (d x y : XReg),
    let lo := e.st.getX x
    let hi := e.st.getX y
    let teams := (e.kn.desc.nsm + 4) / 4
    (Ready s e [x, y] [] →
      exec (.rngInit x y) s = .next (completed e e.st (s.updTeam e.tk (fun t =>
        { t with lo := if lo.toNat < hi.toNat then lo else 0, hi := if lo.toNat < hi.toNat then hi else 0 })))) ∧
    (Ready s e [] [d] →
      (e.tm.lo.toNat < e.tm.hi.toNat →
        exec (.rngNext d) s =
          .next (completed e (e.st.setX d e.tm.lo) (s.updTeam e.tk (fun t => { t with lo := t.lo + 1 })))) ∧
      (e.tm.hi.toNat ≤ e.tm.lo.toNat → teams = 1 →
        exec (.rngNext d) s = .next (completed e (e.st.setX d 0xFFFFFFFF) s)) ∧
      (e.tm.hi.toNat ≤ e.tm.lo.toNat → 1 < teams →
        exec (.rngNext d) s = .next (blocked e s
          (.steal d ((List.range (teams - 1)).map (fun i => (e.tm.num + 1 + i) % teams))))))

/-- R347, a steal that reaches its next victim `u`: a victim with at least two indices keeps the lower part [lo, m), the
thief gets index m and the range [m + 1, hi), m half way rounded up; otherwise the next victim is asked, and after the
last one the word gives all ones. -/
def clauseStealTakesTheUpperPart : Prop :=
  ∀ (s : State) (key u : Nat) (us : List Nat) (st : Strand) (d : XReg) (thief v : Team),
    s.strands.get? key = some st → st.wait = some (.steal d (u :: us)) → d ≠ 0 →
    s.teams.get? (strandTeam key) = some thief → thief.hi.toNat ≤ thief.lo.toNat →
    s.teams.get? (teamKey (strandLid key) u) = some v → teamKey (strandLid key) u ≠ strandTeam key → v.started = true →
    let n := v.hi.toNat - v.lo.toNat
    let m := v.lo.toNat + (n + 1) / 2
    ∃ t st', exec (.rangeSteal key) s = .next t ∧ t.strands.get? key = some st' ∧ t.mem = s.mem ∧
      (∀ k, k ≠ key → t.strands.get? k = s.strands.get? k) ∧ (∀ r, r ≠ d → st'.getX r = st.getX r) ∧
      (2 ≤ n →
        ∃ a b, t.teams.get? (strandTeam key) = some a ∧ t.teams.get? (teamKey (strandLid key) u) = some b ∧
          st'.getX d = BitVec.ofNat 32 m ∧ st'.wait = none ∧ a.lo.toNat = m + 1 ∧ a.hi = v.hi ∧
          b.lo = v.lo ∧ b.hi.toNat = m ∧ { a with lo := thief.lo, hi := thief.hi } = thief ∧ { b with hi := v.hi } = v) ∧
      (n < 2 → t.teams = s.teams ∧ (us ≠ [] → st' = { st with wait := some (.steal d us) }) ∧
        (us = [] → st'.getX d = 0xFFFFFFFF ∧ st'.wait = none))

/-- R341: which strands may use a pipe; `pp.push` appends the low bits of its register and waits while the pipe is full;
`pp.pop` removes the oldest entry, waits while the pipe is empty and open, and gives 0 when it is closed; `pp.peek` gives
the occupancy and the closed flag. Any other use raises cause 12. -/
def clausePipeWordsAreFirstInFirstOut : Prop :=
  ∀ (s : State) (e : Env) (n : BitVec 5) (d x : XReg),
    let bad : Host.Outcome State Fault Refusal :=
      .next (s.trap e.core e.key e.st 12 false (BitVec.ofNat 32 (0xFFFFFF00 + n.toNat)))
    let put (p : Pipe) : State := s.updRec e.kn.recId (fun r => { r with pipes := r.pipes.set n.toNat p })
    let wait : Host.Outcome State Fault Refusal := .next (blocked e s (.poll e.mark))
    (s.pipe e.kn n.toNat = none →
      (Ready s e [x] [] → exec (.ppPush n x) s = bad) ∧
      (Ready s e [] [d] → exec (.ppPop d n) s = bad ∧ exec (.ppPeek d n) s = bad)) ∧
    ∀ p, s.pipe e.kn n.toNat = some p →
      (p.prd ≠ e.kn.member → Ready s e [x] [] → exec (.ppPush n x) s = bad) ∧
      (p.con ≠ e.kn.member → Ready s e [] [d] → exec (.ppPop d n) s = bad) ∧
      (p.prd = e.kn.member → Ready s e [x] [] →
        (p.depth ≤ p.q.length → exec (.ppPush n x) s = wait) ∧
        (p.q.length < p.depth → e.st.pend = [] →
          exec (.ppPush n x) s = .next (completed e e.st
            (put { p with q := p.q ++ [BitVec.ofNat 32 ((e.st.getX x).toNat % 2 ^ elemW p.pf)] })))) ∧
      (p.con = e.kn.member → Ready s e [] [d] →
        (p.q = [] → s.pipeClosed e.kn p = false → exec (.ppPop d n) s = wait) ∧
        (p.q = [] → s.pipeClosed e.kn p = true → exec (.ppPop d n) s = .next (completed e (e.st.setX d 0) s)) ∧
        (∀ v q, p.q = v :: q →
          let r := convE p.pf p.cf .rne p.sat false false v.toNat
          let out : Word := match ifmt p.cf with
            | some (w, _) => BitVec.ofInt 32 (intOf w true r.code)
            | none => BitVec.ofNat 32 r.code
          exec (.ppPop d n) s = .next (completed e
            ({ e.st with vfflags := e.st.vfflags ||| r.fl }.setX d out) (put { p with q := q })))) ∧
      (Ready s e [] [d] → p.q.length < 512 →
        exec (.ppPeek d n) s = .next (completed e (e.st.setX d
          (BitVec.ofNat 32 (p.q.length + if s.pipeClosed e.kn p then 2 ^ 31 else 0))) s))

/-- R341, R39 to R42: the pipe words, and the conversion of `pp.pop`. -/
def Obligations.PipeWordsAreFirstInFirstOut : Prop := clausePipeWordsAreFirstInFirstOut ∧ clauseConversionsRoundOnce

/-- R107, R317, R345, R346: `sdone`, `yield`, `dep.wait` and `dep.trig`. -/
def Obligations.StrandsEndYieldAndTrigger : Prop :=
  clauseStrandDoneEndsTheStrand ∧ clauseYieldStopsOnlyWhenPending ∧ clauseDependenceWordsFollowTheTriggers

/-- R347: `rng.init`, `rng.next` and the steal of a range. -/
def Obligations.WorkRangesAreHandedOutAndStolen : Prop := clauseWorkRangeHandsOutItsIndices ∧ clauseStealTakesTheUpperPart

/-! ## Command registers, pushes and forces (R157 to R163, R180, R185 to R197) -/

/-- R157: `tc.set` writes one command register and clears the template address; `tc.ld` loads all eight from 32 bytes of
the team's scratchpad regions and sets it, after the demand of its read; a misaligned or foreign address traps. -/
def clauseCommandRegistersTakeTheWord : Prop :=
  ∀ (s s1 s2 : State) (e : Env) (n : BitVec 3) (x : XReg), Ready s e [x] [] →
    let a := e.st.getX x
    let l := dspLoc e.core a.toNat
    exec (.tcSet n x) s =
      .next (completed e { e.st with c := e.st.c.set n.toNat (e.st.getX x) n.isLt, tmpl := none } s) ∧
    (a.toNat % 32 ≠ 0 → exec (.tcLd x) s = .next (s.trap e.core e.key e.st 11 false a)) ∧
    (a.toNat % 32 = 0 → (0x800000 ≤ a.toNat ∨ (e.tm.firstUnowned a.toNat (a.toNat + 32)).isSome) →
      exec (.tcLd x) s = .next (s.trap e.core e.key e.st 12 false a)) ∧
    (a.toNat % 32 = 0 → a.toNat < 0x800000 → e.tm.firstUnowned a.toNat (a.toNat + 32) = none → s.mem.wf = true →
      (s.reach e.core e.mark (e.demander 0) [(l, l + 32)] [] = (s1, true) →
        exec (.tcLd x) s = .next (blocked e s1 (.poll e.mark))) ∧
      (s.reach e.core e.mark (e.demander 0) [(l, l + 32)] [] = (s1, false) →
        s1.readCheck (some e.kn.ctx) l 32 = (s2, none) →
        ∃ st', exec (.tcLd x) s = .next (completed e st' s2) ∧ s2.mem = s.mem ∧
          (∀ i : Fin 8, st'.c[i.val] = bytesValue s.mem (l + 4 * i.val) 4 false) ∧ st'.tmpl = some a ∧
          { st' with c := e.st.c, tmpl := e.st.tmpl } = e.st))

/-- R160: a copy of the nonzero map of a command's descriptor, and none where it has none or the map is 0. -/
def mapCopy (e : Env) (s : State) (i : Instr) (m : Option (List Byte)) : Prop :=
  (descA i = none → m = none) ∧
  ∀ a, descA i = some a → (a.map = 0 → m = none) ∧
    (a.map ≠ 0 → s.mem.wf = true → m = some ((List.range 64).map (fun b =>
      s.mem.get (vcsLoc e.core e.tm.bank + 0x3C00 + 64 * a.map.toNat + b))))

/-- R160, R165, R168: the map, the nest values and the weight format that a sheaf carries. -/
def captures (e : Env) (s : State) (h : Sheaf) : Prop :=
  mapCopy e s (tileInstr h.word) h.mapA ∧ h.bank = e.tm.bank ∧
  ∀ hd a b d, tileInstr h.word = .mm hd a b d ∨ tileInstr h.word = .mmTri hd a b d →
    h.nest.length = 6 ∧
    (∀ n : Fin 6, h.nest[n.val]? = some ((((e.st.loops.reverse[n.val]?).map (·.index)).getD 0) + e.st.bias[n.val])) ∧
    h.wfmt = if b.toNat % 2 = 0 then e.tm.wfmt[0] else e.tm.wfmt[1]

/-- R84, R158: a push that issued after one of another strand which has not been accepted yet waits behind it. -/
def clausePushesWaitTheirTurn : Prop :=
  ∀ (s : State) (e : Env) (d : XReg), Ready s e [] [d] → (∀ lo hi n w t, e.st.wait ≠ some (.pushed lo hi n w t)) →
    (s.pushBefore e = true ↔ ∃ st ∈ s.siblings e, st.st = .blocked ∧ st.issue < (if e.st.hasIssued then e.st.issue else s.tick) ∧
      (∃ w, st.wait = some w ∧ w.issued = true ∧ ∀ lo hi n x t, w ≠ .pushed lo hi n x t) ∧ ∃ r, st.held = some (.tcPush r)) ∧
    (s.pushBefore e = true →
      exec (.tcPush d) s = .next (blocked e s (match e.st.wait with | some (.room m l) => .room m l | _ => .poll e.mark)))

/-- R159: words that a chain of links joins, the first at address `a` and the last at `z`. -/
def linked (s : State) (e : Env) : Word → List TileWord → Word → Prop
  | a, [_], z => z = a
  | a, w :: w' :: ws, z =>
    let c := (wordHdr w).chain
    let b : Word := a + BitVec.ofInt 32 (32 * (c.truncate 15 : BitVec 15).toInt)
    c.getLsbD 15 = true ∧ (c.truncate 15 : BitVec 15) ≠ 0 ∧ b.toNat % 32 = 0 ∧ b.toNat < 0x800000 ∧
      e.tm.firstUnowned b.toNat (b.toNat + 32) = none ∧
      w'.toNat = leNat ((List.range 32).map (fun i => s.mem.get (dspLoc e.core b.toNat + i))) ∧ linked s e b (w' :: ws) z
  | _, [], _ => False

/-- R158, R159: a chained push, on a core with no other work. The words are gathered along their links and checked in their
order before any is taken; a chain that is accepted is appended whole, with consecutive command numbers, the first of which goes
to x[d], and leaves its last word and that word's address behind. A link with displacement 0, with no template address, or beyond
64 words raises cause 8. -/
def clauseChainsAreTakenWhole : Prop :=
  ∀ (s : State) (e : Env) (d : XReg) (a z : Word) (ws : List TileWord), Ready s e [] [d] → e.st.wait = none → Quiet s →
    s.mem.wf = true → s.pushBefore e = false → s.teams.get? e.tk = some e.tm → ws.head? = some e.st.tileWord → ws.length ≤ 64 →
    let code : Word := 0x0400300B + BitVec.ofNat 32 (128 * d.toNat)
    let k := s.core e.core
    let raises (cause : Nat) (info : Word) : Prop :=
      ∃ u : State, exec (.tcPush d) s = .next (u.trap e.core e.key e.st cause false info) ∧ u.mem = s.mem ∧
        (u.core e.core).stook = [] ∧ u.teams = s.teams
    let last := ws.getLast?.getD 0
    let ends : Prop := (wordHdr last).chain.getLsbD 15 = false
    (e.st.tmpl = some a → linked s e a ws z →
      (¬ends → ((wordHdr last).chain.truncate 15 : BitVec 15) = 0 ∨ ws.length = 64 → raises 8 code) ∧
      (ends → chainCheck e s e.tm.wfmt ws = some .illegal → raises 8 code) ∧
      (∀ b, ends → chainCheck e s e.tm.wfmt ws = some (.byte b) → raises 12 b) ∧
      (ends → chainCheck e s e.tm.wfmt ws = none → (∀ w ∈ ws, appends (tileInstr w) = true) → k.eager = false →
        ∃ t st' hs tm', exec (.tcPush d) s = .next (completed e st' t) ∧ (t.core e.core).stook = hs ∧ hs.map (·.word) = ws ∧
          (∀ i h, hs[i]? = some h → h.seq = k.nextSeq + i ∧ h.cmdNo = e.tm.cmdNo + BitVec.ofNat 32 i ∧ h.team = e.tk ∧
            h.wait = .notQueued ∧ (∀ u, u < h.subs.length → h.openAt u = true) ∧ mapCopy e s (tileInstr h.word) h.mapA) ∧
          (d ≠ 0 → st'.getX d = e.tm.cmdNo) ∧ st'.tileWord = last ∧ st'.tmpl = some z ∧
          { st' with x := e.st.x, c := e.st.c, tmpl := e.st.tmpl } = e.st ∧ t.mem = s.mem ∧
          t.teams.get? e.tk = some tm' ∧ tm'.cmdNo = e.tm.cmdNo + BitVec.ofNat 32 ws.length)) ∧
    (e.st.tmpl = none → (wordHdr e.st.tileWord).chain.getLsbD 15 = true → raises 8 code)

/-- R158 to R163, `tc.push` of an unchained word: a word that breaks a rule traps before any effect, with cause 8 and the
push word or with cause 12 and the lowest failing byte; an accepted word takes the team's command number, which
also goes to x[d], and is appended as an open sheaf that carries what R160 lists, or joins its engine's queue; a full
stook or a full engine queue holds the word back. The rules give no depth of the queues: that it is at least 64 is the model's
choice (log 43). -/
def clausePushAppendsTheCheckedWord : Prop :=
  ∀ (s : State) (e : Env) (d : XReg), Ready s e [] [d] → (∀ lo hi n w t, e.st.wait ≠ some (.pushed lo hi n w t)) →
    let w := e.st.tileWord
    let code : Word := 0x0400300B + BitVec.ofNat 32 (128 * d.toNat)
    (wordHdr w).chain.getLsbD 15 = false → s.teams.get? e.tk = some e.tm → s.pushBefore e = false →
    let k := s.core e.core
    let used := (k.stook.filter (fun h => h.team = e.tk)).length
    let mine := if 2 ≤ k.residents.length then 512 else 1024
    let st' : Strand := e.st.setX d e.tm.cmdNo
    (chainCheck e s e.tm.wfmt [w] = some .illegal →
      exec (.tcPush d) s = .next (s.trap e.core e.key e.st 8 false code)) ∧
    (∀ a, chainCheck e s e.tm.wfmt [w] = some (.byte a) →
      exec (.tcPush d) s = .next (s.trap e.core e.key e.st 12 false a)) ∧
    (chainCheck e s e.tm.wfmt [w] = none →
      (appends (tileInstr w) = true → used < mine → k.eager = false →
        ∃ t h tm', exec (.tcPush d) s = .next (completed e st' t) ∧ (t.core e.core).stook = k.stook ++ [h] ∧
          (t.core e.core).cnt.shapp = k.cnt.shapp + 1 ∧ (t.core e.core).nextSeq = k.nextSeq + 1 ∧
          h.word = w ∧ h.seq = k.nextSeq ∧ h.team = e.tk ∧ h.cmdNo = e.tm.cmdNo ∧ h.pc = e.st.pc ∧ h.sid = e.st.num ∧
          h.vfrm = e.st.vfrm ∧ h.zmul = e.st.zmul ∧ h.wait = .notQueued ∧ h.subs ≠ [] ∧
          (∀ u, u < h.subs.length → h.openAt u = true) ∧ captures e s h ∧ t.mem = s.mem ∧
          t.teams.get? e.tk = some tm' ∧ tm'.cmdNo = e.tm.cmdNo + 1) ∧
      (appends (tileInstr w) = true → used < mine → k.eager = true →
        ∃ t, exec (.tcPush d) s = .next (blocked e t (.pushed k.nextSeq (k.nextSeq + 1) e.tm.cmdNo w e.st.tmpl)) ∧
          t.mem = s.mem) ∧
      (appends (tileInstr w) = true → mine ≤ used →
        ∃ t l, exec (.tcPush d) s = .next (blocked e t (.room e.mark l)) ∧ t.mem = s.mem) ∧
      64 ≤ queueDepth ∧
      (∀ hd a b c, tileInstr w = .xfer hd a b c → queueDepth ≤ k.xq.length →
        exec (.tcPush d) s = .next (blocked e s (.poll e.mark))) ∧
      (∀ hd a b, tileInstr w = .tstore hd a b → queueDepth ≤ k.tq.length →
        exec (.tcPush d) s = .next (blocked e s (.poll e.mark))) ∧
      (∀ hd a b c, tileInstr w = .xfer hd a b c → k.xq.length < queueDepth →
        ∃ t q, exec (.tcPush d) s = .next (completed e st' t) ∧ (t.core e.core).xq = k.xq ++ [q] ∧
          (t.core e.core).stook = k.stook ∧ q.word = w ∧ q.cmdNo = e.tm.cmdNo ∧ q.wait = .notQueued ∧ t.mem = s.mem) ∧
      (∀ hd a b, tileInstr w = .tstore hd a b → k.tq.length < queueDepth →
        ∃ t tq q, exec (.tcPush d) s = .next (completed e st' t) ∧ (t.core e.core).tq = tq ++ [q] ∧
          tq.map (fun r => (r.seq, r.word)) = k.tq.map (fun r => (r.seq, r.word)) ∧ q.word = w ∧ q.cmdNo = e.tm.cmdNo ∧
          q.pc = e.st.pc ∧ q.sid = e.st.num ∧ mapCopy e s (tileInstr w) q.mapA ∧ q.wait = .notQueued ∧ t.mem = s.mem))

/-- R195, R201: with eager issue on, a `tc.push` that has appended waits until its sheaves are gone, having had no effect on
its strand; it then completes with the command number and the word that it took. -/
def clauseEagerPushesWaitForTheirSheaves : Prop :=
  ∀ (s : State) (e : Env) (d : XReg) (lo hi : Nat) (num : Word) (w : TileWord) (t : Option Word), Ready s e [] [d] →
    e.st.wait = some (.pushed lo hi num w t) →
    let live := (s.core e.core).stook.any (fun h => decide (h.team = e.tk ∧ lo ≤ h.seq ∧ h.seq < hi))
    (live = true → exec (.tcPush d) s = .next (blocked e s (.pushed lo hi num w t))) ∧
    (live = false → exec (.tcPush d) s = .next (completed e ((e.st.setTile w t).setX d num) s))

/-- R180: `vcs.ld` copies bytes of the team's regions into the vector control store, after the work it demands and forces;
bad addresses and lengths trap, and a length of 0 has no effect; that a misaligned address traps before a length of 0 counts is
the model's reading (log 19). -/
def clauseControlStoreLoadCopiesItsBytes : Prop :=
  ∀ (s s2 : State) (e : Env) (off : BitVec 4) (x y : XReg), Ready s e [x, y] [] →
    let a := e.st.getX x
    let n := (e.st.getX y).toNat
    let o := 1024 * off.toNat
    let l := dspLoc e.core a.toNat
    let to_ := vcsLoc e.core e.tm.bank + o
    let bad (cause : Nat) (info : Word) : Prop :=
      exec (.vcsLd off x y) s = .next (s.trap e.core e.key e.st cause false info)
    (a.toNat % 4 ≠ 0 → bad 11 a) ∧
    (a.toNat % 4 = 0 →
      (n % 4 ≠ 0 ∨ 16384 < o + n → bad 12 a) ∧
      (n % 4 = 0 → o + n ≤ 16384 →
        (n = 0 → exec (.vcsLd off x y) s = .next (completed e e.st s)) ∧
        (∀ b, n ≠ 0 → e.tm.firstUnowned a.toNat (a.toNat + n) = some b → bad 12 (BitVec.ofNat 32 b)) ∧
        (n ≠ 0 → e.tm.firstUnowned a.toNat (a.toNat + n) = none → s.mem.wf = true →
          let r := s.reach e.core e.mark (e.demander 0) [(l, l + n)] []
          let hit (h : Sheaf) : Bool := decide (h.seq < e.mark) && h.callsIn e.tm.bank o (o + n)
          let u := r.1.stookStep e.core (fun k => k.forceWhole e.core (e.demander 0) hit)
          let waits : Prop := r.2 = true ∨ ∃ h ∈ (u.core e.core).stook, hit h = true ∧ h.subs.any SubSt.isDisp = true
          (waits → exec (.vcsLd off x y) s = .next (blocked e u (.poll e.mark)) ∧ u.mem = s.mem) ∧
          (¬waits → u.readCheck (some e.kn.ctx) l n = (s2, none) →
            ∃ t, exec (.vcsLd off x y) s = .next (completed e e.st t) ∧
              (∀ i, i < n → t.mem.get (to_ + i) = s.mem.get (l + i)) ∧
              ∀ z, ¬(to_ ≤ z ∧ z < to_ + n) → t.mem.get z = s.mem.get z))))

/-- R194: `tc.force` demands a range of the team's scratchpad or accumulator bytes and waits for the work on it; `tc.drain`
dispatches every open sub-tile of the team's earlier sheaves and waits until all of them are gone and every earlier
`tstore` has written. -/
def clauseForceAndDrainDispatchTheWork : Prop :=
  ∀ (s : State) (e : Env) (x y : XReg),
    let a := (e.st.getX x).toNat
    let n := (e.st.getX y).toNat
    let acc := 0x1000000 ≤ a ∧ a < 0x1080000
    let ar := e.kn.desc.accRows
    (Ready s e [x, y] [] →
      (n = 0 → exec (.tcForce x y) s = .next (completed e e.st s)) ∧
      (∀ b, n ≠ 0 → ¬acc → e.tm.firstUnowned a (a + n) = some b →
        exec (.tcForce x y) s = .next (s.trap e.core e.key e.st 12 false (BitVec.ofNat 32 b))) ∧
      (∀ b, n ≠ 0 → acc → firstOutside [(ar.1 * 1024, ar.2 * 1024)] 2 (a - 0x1000000) (a - 0x1000000 + n) = some b →
        exec (.tcForce x y) s = .next (s.trap e.core e.key e.st 12 false (BitVec.ofNat 32 (0x1000000 + b)))) ∧
      (∀ l, n ≠ 0 →
        (¬acc ∧ e.tm.firstUnowned a (a + n) = none ∧ l = dspLoc e.core a ∨
          acc ∧ firstOutside [(ar.1 * 1024, ar.2 * 1024)] 2 (a - 0x1000000) (a - 0x1000000 + n) = none ∧
            l = accLoc e.core (a - 0x1000000)) →
        let g := [Span.granules (l, l + n)]
        ∃ t, t.mem = s.mem ∧
          let waits : Prop :=
            (∃ h ∈ (t.core e.core).stook, h.seq < e.mark ∧ ∃ u, h.dispAt u = true ∧ spansMeet (h.foot e.core u) g = true) ∨
              ∃ q ∈ (t.core e.core).tq, q.seq < e.mark ∧ spansMeet (q.foot e.core) g = true
          (waits → exec (.tcForce x y) s = .next (blocked e t (.poll e.mark))) ∧
          (¬waits → exec (.tcForce x y) s = .next (completed e e.st t)) ∧
          (((s.core e.core).stook.map (·.seq)).Nodup →
            ∀ h ∈ (t.core e.core).stook, h.seq < e.mark → ∀ u, h.openAt u = true → spansMeet (h.foot e.core u) g = false))) ∧
    (s.env = some e →
      ∃ t, t.mem = s.mem ∧
        ((∃ h ∈ (t.core e.core).stook, h.team = e.tk ∧ h.seq < e.mark) ∨
          (∃ q ∈ (t.core e.core).tq, q.team = e.tk ∧ q.seq < e.mark) →
          exec .tcDrain s = .next (blocked e t (.poll e.mark))) ∧
        ((∀ h ∈ (t.core e.core).stook, h.team = e.tk → e.mark ≤ h.seq) →
          (∀ q ∈ (t.core e.core).tq, q.team = e.tk → e.mark ≤ q.seq) →
          exec .tcDrain s = .next (completed e e.st t)) ∧
        (((s.core e.core).stook.map (·.seq)).Nodup → e.mark ≤ (s.core e.core).nextSeq →
          ∀ h ∈ (t.core e.core).stook, h.team = e.tk → h.seq < e.mark → ∀ u, h.openAt u = false))

/-- R190 and R192: after a demand no earlier sheaf keeps an open sub-tile whose footprint meets the demanded granules, and
after a force none whose footprint or source set does; neither appends, removes or reorders a sheaf. -/
def clauseDemandAndForceLeaveNothingOpen : Prop :=
  ∀ (k : Core) (core o : Nat) (d : Demander) (b : List Span), (k.stook.map (·.seq)).Nodup →
    let k1 := k.demand core o d b
    let k2 := k.force core o d b
    (∀ h ∈ k1.stook, h.seq < o → ∀ u, h.openAt u = true → spansMeet (h.foot core u) b = false) ∧
    (∀ h ∈ k2.stook, h.seq < o → ∀ u, h.openAt u = true →
      spansMeet (h.foot core u) b = false ∧ spansMeet (h.src core u) b = false) ∧
    k1.stook.map (fun h => (h.seq, h.word)) = k.stook.map (fun h => (h.seq, h.word)) ∧
    k2.stook.map (fun h => (h.seq, h.word)) = k.stook.map (fun h => (h.seq, h.word))

/-- R68, R84, R156 to R160, R164, R165, R195, R201: `tc.ld`, `tc.set`, `tc.push`, chained and with eager issue too, and `vcs.ld`.
That an engine queue has at least 64 entries (log 43) and that `vcs.ld` of length 0 at a misaligned address traps (log 19) are
choices of the model, no rule's words. -/
def Obligations.PushesAppendTheCheckedWord : Prop :=
  clauseCommandRegistersTakeTheWord ∧ clausePushAppendsTheCheckedWord ∧ clausePushesWaitTheirTurn ∧ clauseChainsAreTakenWhole ∧
    clauseEagerPushesWaitForTheirSheaves ∧ clauseControlStoreLoadCopiesItsBytes

/-- R187 to R194: `tc.force`, `tc.drain`, and what a demand or a force leaves. -/
def Obligations.ForcesDispatchTheOpenWork : Prop := clauseForceAndDrainDispatchTheWork ∧ clauseDemandAndForceLeaveNothingOpen

/-! ## The granary (R202 to R213) -/

/-- What a granary misuse leaves outside a handler (R208): the kernel FAILED with fk 2, cause 16, the status word in the
trap section and in the tile section, both at the word. -/
def granaryFailure (e : Env) (status kind : Nat) (t : State) : Prop :=
  ∃ k f, t.kernels.get? e.tm.lid = some k ∧ k.st = .failed ∧ k.fl.fk = 2 ∧ k.fl.cause = 16 ∧ k.fl.sid = e.st.num ∧
    k.fl.info = BitVec.ofNat 32 status ∧ k.fl.pc = e.st.pc ∧ k.fl.tile = some f ∧ f.dpc = e.st.pc ∧ f.apc = e.st.pc ∧
    f.cmd = e.tm.cmdNo ∧ f.status = BitVec.ofNat 32 status ∧ f.engine = 4 ∧ f.kind = kind ∧ f.tv = false ∧ f.subt = 0

/-- R208: each misuse of a granary word fails the kernel with its status and detail; inside a handler it is a double
trap (R100). -/
def clauseGranaryMisuseFailsTheKernel : Prop :=
  ∀ (s : State) (e : Env) (rg : BitVec 4) (x : XReg), e.kn.st.live = true → e.kn.fl.fk = 0 → e.tm.num < 512 →
    let blk := e.tm.blocks.get? e.slot
    let off : Prop := (e.tm.regions[rg.toNat]'rg.isLt).mode = 0
    let key := e.st.getX x
    let fails (i : Instr) (status kind : Nat) : Prop :=
      ∃ t, exec i s = .next t ∧ (e.st.hflag = false → granaryFailure e status kind t) ∧
        (e.st.hflag = true → KernelFailed e 15 16 t)
    (Ready s e [x] [] →
      (blk ≠ none → fails (.grBegin rg x) 0x60 4) ∧
      (blk = none → key.toNat / 2 ^ 30 ≠ 0 → fails (.grBegin rg x) 0x61 4) ∧
      (blk = none → key.toNat / 2 ^ 30 = 0 → off → fails (.grBegin rg x) (0x62 + 256 * rg.toNat) 4)) ∧
    (s.env = some e →
      (blk = none → fails (.grEnd rg) 0x63 0) ∧
      (blk ≠ none → off → fails (.grEnd rg) (0x62 + 256 * rg.toNat) 0) ∧
      (∀ k g, blk = some (.replay, k) → ¬off → (s.core e.core).gran.find? (fun g => g.pinnedBy e.kn.ctx k e.key) = some g →
        g.output.length ≠ (e.tm.regions[rg.toNat]'rg.isLt).size.toNat →
        fails (.grEnd rg) (0x64 + 256 * rg.toNat) 0))

/-- A list of entries no larger than the store (R202) that holds no two entries of one context with one key. -/
def oneEntryPerKey (gs : List GEntry) : Prop := gs.length ≤ 256 ∧ (gs.map (fun g => (g.ctx, g.key))).Nodup

/-- An entry of a context that may be evicted (R211). -/
def evictable (ctx : Nat) (g : GEntry) : Prop := g.ctx = ctx ∧ g.st = .valid ∧ g.pins = []

/-- `size` more bytes and `n` more entries fit in the quota of the context beside the entries `gs` (R202, R211). -/
def fitsQuota (s : State) (ctx size n : Nat) (gs : List GEntry) : Prop :=
  (gs.map GEntry.size).sum + size ≤ s.quota ctx * 65536 ∧ gs.length + n ≤ 8 * s.quota ctx

/-- R209 and R211, `gr.begin`: a VALID entry of the context with the key, the size, the format and an input within the
bound opens a replay while its staleness is below the limit; otherwise the miss or the stale match is counted, and
the block captures into a FILLING entry that holds the input, or runs without capture when the entry is busy or no space
is found; space is found exactly where the entries that must stay leave room, only VALID unpinned entries are evicted for
it, the longest unused first, and none where there is room. The word takes a command number. That an old VALID entry of the
key is out of the account while space is sought, and that an entry counts as used at its capture's `gr.begin` as well, are
the model's choices (log 38). -/
def clauseGranaryBeginOpensABlock : Prop :=
  ∀ (s s1 s2 : State) (e : Env) (rg : BitVec 4) (x : XReg), Ready s e [x] [] →
    let r := e.tm.regions[rg.toNat]'rg.isLt
    let lo := dspLoc e.core r.base.toNat
    let key := e.st.getX x
    e.tm.blocks.get? e.slot = none → key.toNat / 2 ^ 30 = 0 → r.mode ≠ 0 →
    s.reach e.core e.mark (e.demander 4) [(lo, lo + r.size.toNat)] [] = (s1, false) →
    let held := ((s1.core e.core).gran.find? (fun g =>
      g.is e.kn.ctx key && g.comparable e.tm.gfmt r.size.toNat)).toList.flatMap (fun g => g.inputRuns e.core)
    s1.checkSpans e.kn.ctx ((lo, lo + r.size.toNat) :: held) = (s2, none) → s2.teams.get? e.tk = some e.tm →
    let k := s2.core e.core
    let new := s2.mem.read lo r.size.toNat
    let entry := k.gran.find? (fun g => decide (g.ctx = e.kn.ctx) && decide (g.key = key))
    let fits : Prop := ∃ g, entry = some g ∧ g.st = .valid ∧ g.input.length = new.length ∧ g.fmt = e.tm.gfmt ∧
      granaryMatch g.fmt e.tm.grel e.tm.gthr new g.input = true
    let rc := (entry.map (·.rc)).getD 0
    ∃ t tm' b, exec (.grBegin rg x) s = .next (completed e e.st t) ∧ t.teams.get? e.tk = some tm' ∧
      tm'.cmdNo = e.tm.cmdNo + 1 ∧ tm'.blocks.get? e.slot = some (b, key) ∧ t.mem = s2.mem ∧
      (fits ∧ rc < e.tm.glim.toNat →
        b = .replay ∧ (t.core e.core).cnt = k.cnt ∧
        (t.core e.core).gran.map (fun g => { g with pins := [], used := 0 }) =
          k.gran.map (fun g => { g with pins := [], used := 0 }) ∧
        ∃ g ∈ (t.core e.core).gran, g.ctx = e.kn.ctx ∧ g.key = key ∧ e.key ∈ g.pins) ∧
      (fits ∧ e.tm.glim.toNat ≤ rc → b ≠ .replay ∧ (t.core e.core).cnt.gstale = k.cnt.gstale + 1 ∧
        (t.core e.core).cnt.gmiss = k.cnt.gmiss) ∧
      (¬fits → b ≠ .replay ∧ (t.core e.core).cnt.gmiss = k.cnt.gmiss + 1 ∧
        (t.core e.core).cnt.gstale = k.cnt.gstale) ∧
      (b = .capture → ∃ g ∈ (t.core e.core).gran, g.ctx = e.kn.ctx ∧ g.key = key ∧ g.st = .filling ∧ g.input = new ∧
        g.fmt = e.tm.gfmt ∧ g.pins = [e.key]) ∧
      (b ≠ .replay → ∀ g, entry = some g → (g.st = .filling ∨ g.pins ≠ []) → b = .run ∧ (t.core e.core).gran = k.gran) ∧
      (b ≠ .replay → (∀ g, entry = some g → g.st = .valid ∧ g.pins = []) → oneEntryPerKey k.gran →
        let others := k.gran.filter (fun g => decide (g.key ≠ key ∨ g.ctx ≠ e.kn.ctx))
        let own := others.filter (fun g => decide (g.ctx = e.kn.ctx))
        let fixed := own.filter (fun g => decide (g.st ≠ .valid ∨ g.pins ≠ []))
        let new' := (t.core e.core).gran
        (b = .capture ↔ fitsQuota s2 e.kn.ctx new.length 1 fixed) ∧
        (∀ g ∈ new', g ∈ others ∨ g.ctx = e.kn.ctx ∧ g.key = key ∧ b = .capture) ∧
        (∀ g ∈ others, ¬evictable e.kn.ctx g → g ∈ new') ∧
        (∀ g ∈ others, g ∉ new' → ∀ h ∈ others, h ∈ new' → evictable e.kn.ctx h → g.used ≤ h.used) ∧
        (fitsQuota s2 e.kn.ctx new.length 1 own → ∀ g ∈ others, g ∈ new'))

/-- R210, `gr.end` of a block that has run without capture or that replays: the block is closed. A replay waits for the work
that its write forces, with no effect on the block's sheaves, and then discards those that are still open, writes the
stored output into the region bit for bit, counts a hit, and raises the entry's staleness. That a replay whose entry a
rollback has emptied writes nothing and discards nothing is the model's choice (log 38). -/
def clauseGranaryEndClosesTheBlock : Prop :=
  ∀ (s s1 s2 : State) (e : Env) (rg : BitVec 4), s.env = some e → s.teams.get? e.tk = some e.tm →
    let r := e.tm.regions[rg.toNat]'rg.isLt
    let lo := dspLoc e.core r.base.toNat
    r.mode ≠ 0 →
    (∀ key, e.tm.blocks.get? e.slot = some (.run, key) →
      ∃ t tm', exec (.grEnd rg) s = .next (completed e e.st t) ∧ t.teams.get? e.tk = some tm' ∧
        tm'.blocks.get? e.slot = none ∧ tm'.cmdNo = e.tm.cmdNo + 1 ∧ t.mem = s.mem ∧
        (t.core e.core).gran = (s.core e.core).gran) ∧
    (∀ key, e.tm.blocks.get? e.slot = some (.replay, key) →
      (∀ g ∈ (s.core e.core).gran, g.pinnedBy e.kn.ctx key e.key = false) →
      ∃ t tm', exec (.grEnd rg) s = .next (completed e e.st t) ∧ t.teams.get? e.tk = some tm' ∧
        tm'.blocks.get? e.slot = none ∧ tm'.cmdNo = e.tm.cmdNo + 1 ∧ t.mem = s.mem ∧
        (t.core e.core).gran = (s.core e.core).gran) ∧
    (∀ key g, e.tm.blocks.get? e.slot = some (.replay, key) →
      (s.core e.core).gran.find? (fun g => g.pinnedBy e.kn.ctx key e.key) = some g → g.output.length = r.size.toNat →
      let ids := blockOpen (s.core e.core) e.st.num e.tk
      let kept (b : Bool) (u : State) : State := u.updCore e.core (fun k => k.aside ids b)
      ∀ w, (kept true s).reach e.core e.mark (e.demander 0) [] [(lo, lo + r.size.toNat)] = (s1, w) →
      (w = true → exec (.grEnd rg) s = .next (blocked e (kept false s1) (.poll e.mark)) ∧
        (((s.core e.core).stook.map (·.seq)).Nodup → ∀ h ∈ (s.core e.core).stook, h.seq ∈ ids →
          ∃ h' ∈ ((kept false s1).core e.core).stook, h'.seq = h.seq ∧ h'.subs = h.subs ∧ h'.dying = false)) ∧
      (w = false → (kept false s1).checkSpans e.kn.ctx (g.outputRuns e.core) = (s2, none) → s.mem.wf = true →
        s2.teams.get? e.tk = some e.tm →
        ∃ t tm', exec (.grEnd rg) s = .next (completed e e.st t) ∧ t.teams.get? e.tk = some tm' ∧
          tm'.blocks.get? e.slot = none ∧ tm'.cmdNo = e.tm.cmdNo + 1 ∧
          (∀ i, i < r.size.toNat → t.mem.get (lo + i) = g.output.getD i 0) ∧
          (∀ z, ¬(lo ≤ z ∧ z < lo + r.size.toNat) → t.mem.get z = s.mem.get z) ∧
          (∀ h ∈ (t.core e.core).stook, h.team = e.tk → h.block ≠ some e.st.num) ∧
          (((s.core e.core).stook.map (·.seq)).Nodup →
            ∀ h ∈ (t.core e.core).stook, h.seq ∈ ids → ∀ v : Nat, h.subs[v]? ≠ some SubSt.opn) ∧
          (t.core e.core).cnt.ghit = (s2.core e.core).cnt.ghit + 1 ∧
          (g.inval = false → ∃ g' ∈ (t.core e.core).gran, g'.ctx = e.kn.ctx ∧ g'.key = key ∧ g'.rc = g.rc + 1 ∧
            g'.step = e.tm.gstep ∧ g'.input = g.input ∧ g'.output = g.output)))

/-- R210 and R211, `gr.end` of a block that captures: the demand of the region's bytes is made, the word waits for the work
it finds, and then the entry becomes VALID with the region's bytes as its output, staleness 0 and the team's step,
and loses the pin, where there is room for it; where there is none the entry is gone. A capture whose own entry a rollback
has emptied stores nothing, and the entry counts as used at this `gr.end` too: the model's choices (log 38). -/
def clauseGranaryCaptureFillsItsEntry : Prop :=
  ∀ (s s1 s2 : State) (e : Env) (rg : BitVec 4) (key : Word) (w : Bool), s.env = some e →
    let r := e.tm.regions[rg.toNat]'rg.isLt
    let lo := dspLoc e.core r.base.toNat
    r.mode ≠ 0 → e.tm.blocks.get? e.slot = some (.capture, key) →
    s.reach e.core e.mark (e.demander 0) [(lo, lo + r.size.toNat)] [] = (s1, w) →
    (w = true → exec (.grEnd rg) s = .next (blocked e s1 (.poll e.mark))) ∧
    (w = false → s1.readCheck (some e.kn.ctx) lo r.size.toNat = (s2, none) → s2.teams.get? e.tk = some e.tm →
      let k := s2.core e.core
      ∃ t tm', exec (.grEnd rg) s = .next (completed e e.st t) ∧ t.teams.get? e.tk = some tm' ∧
        tm'.blocks.get? e.slot = none ∧ tm'.cmdNo = e.tm.cmdNo + 1 ∧ t.mem = s2.mem ∧
        (t.core e.core).cnt.ghit = k.cnt.ghit ∧
        (∀ h ∈ (t.core e.core).stook, h.team = e.tk → h.block ≠ some e.st.num) ∧
        ((∀ g ∈ k.gran, g.pinnedBy e.kn.ctx key e.key = false) → (t.core e.core).gran = k.gran) ∧
        ∀ g, k.gran.find? (fun g => g.pinnedBy e.kn.ctx key e.key) = some g → g.st = .filling → g.inval = false →
          oneEntryPerKey k.gran →
          let own := k.gran.filter (fun g => decide (g.ctx = e.kn.ctx))
          let fixed := own.filter (fun g => decide (g.st ≠ .valid ∨ g.pins ≠ []))
          let out := s2.mem.read lo r.size.toNat
          let new := (t.core e.core).gran
          (fitsQuota s2 e.kn.ctx out.length 0 fixed →
            ∃ g' ∈ new, g' = { g with st := .valid, output := out, outPlace := g'.outPlace, rc := 0, step := e.tm.gstep
                                      pins := g.pins.erase e.key, used := k.gclock + 1 }) ∧
          (¬fitsQuota s2 e.kn.ctx out.length 0 fixed → ∀ g' ∈ new, ¬(g'.ctx = e.kn.ctx ∧ g'.key = key)) ∧
          (∀ g' ∈ k.gran, ¬(g'.ctx = e.kn.ctx ∧ g'.key = key) → ¬evictable e.kn.ctx g' → g' ∈ new) ∧
          (fitsQuota s2 e.kn.ctx out.length 0 own →
            ∀ g' ∈ k.gran, ¬(g'.ctx = e.kn.ctx ∧ g'.key = key) → g' ∈ new))

/-- R212: `gr.cfg` sets the team's granary fields from a record in scratchpad, and a field out of range fails the kernel
with status 0x65 and its offset; `gr.inval` removes the unpinned VALID entries and the FILLING entries that its selector
reaches, marks the pinned ones, and leaves every other entry of the core. -/
def clauseGranaryConfigAndInvalidation : Prop :=
  ∀ (s s1 s2 : State) (e : Env) (x : XReg) (l : Nat), Ready s e [x] [] → s.mem.wf = true →
    let a := e.st.getX x
    let word (i : Nat) : Word := bytesValue s.mem (l + 4 * i) 4 false
    let theta := decodeE fFP32 (word 0).toNat
    let f := (word 1).toNat
    let okT : Prop := theta.isNaN = false ∧ theta.isInf = false ∧ (theta.neg = false ∨ theta.isZero = true)
    let okF : Prop := f % 16 ≤ 2 ∧ f / 4096 % 16 ≠ 0 ∧ f / 16 % 16 = 0 ∧ f / 512 % 8 = 0 ∧ f / 65536 = 0
    (a.toNat % 16 ≠ 0 → exec (.grCfg x) s = .next (s.trap e.core e.key e.st 11 false a)) ∧
    (a.toNat % 16 = 0 → s.dataAt e a.toNat 16 = .bad →
      exec (.grCfg x) s = .next (s.trap e.core e.key e.st 12 false a)) ∧
    (a.toNat % 16 = 0 → s.dataAt e a.toNat 16 = .loc l →
      s.reachAll e.core e.mark (e.demander 0) [(l, l + 16)] [] = (s1, false) →
      s1.readCheck (some e.kn.ctx) l 16 = (s2, none) → s2.teams.get? e.tk = some e.tm →
      (okT → okF → word 3 = 0 →
        ∃ t tm', exec (.grCfg x) s = .next (completed e e.st t) ∧ t.teams.get? e.tk = some tm' ∧ t.mem = s.mem ∧
          tm' = { e.tm with cmdNo := e.tm.cmdNo + 1, gthr := if word 0 = 0x80000000 then 0 else word 0
                            gfmt := BitVec.ofNat 4 f, grel := decide (f / 256 % 2 = 1)
                            glim := BitVec.ofNat 4 (f / 4096), gstep := word 2 }) ∧
      (¬(okT ∧ okF ∧ word 3 = 0) → e.st.hflag = false → e.kn.st.live = true → e.kn.fl.fk = 0 →
        s2.kernels.get? e.tm.lid = some e.kn →
        ∃ t, exec (.grCfg x) s = .next t ∧
          granaryFailure e (0x65 + 256 * (if ¬okT then 0 else if ¬okF then 4 else 12)) 0 t)) ∧
    ∃ t, exec (.grInval x) s = .next (completed e e.st t) ∧ t.mem = s.mem ∧
      let hit (g : GEntry) : Prop := g.ctx = e.kn.ctx ∧
        (a.getLsbD 31 = true ∨ a.getLsbD 31 = false ∧ a.getLsbD 30 = true ∧ g.key.toNat % 4096 = a.toNat % 4096 ∨
          a.getLsbD 31 = false ∧ a.getLsbD 30 = false ∧ g.key = a)
      (∀ g ∈ (s.core e.core).gran, ¬hit g → g ∈ (t.core e.core).gran) ∧
      (∀ g ∈ (s.core e.core).gran, hit g → g.st = .valid → g.pins ≠ [] →
        { g with inval := true } ∈ (t.core e.core).gran) ∧
      (∀ g ∈ (t.core e.core).gran, hit g → g.st = .valid ∧ g.pins ≠ [] ∧ g.inval = true)

/-- R206 and R209 to R212, where nothing is pending and no error is held: `gr.begin` of an enabled region with a legal key
and no block open, `gr.end` of an open block with the region enabled, of the length stored if it replays, `gr.cfg` of a legal
record that is there, and every `gr.inval` complete. -/
def clauseGranaryWordsComplete : Prop :=
  ∀ (s : State) (e : Env) (rg : BitVec 4) (x : XReg), s.env = some e → Quiet s →
    let r := e.tm.regions[rg.toNat]'rg.isLt
    let blk := e.tm.blocks.get? e.slot
    let a := e.st.getX x
    let done (i : Instr) : Prop := ∃ t, exec i s = .next (completed e e.st t)
    (e.st.isEmpty x = false → blk = none → a.toNat < 2 ^ 30 → r.mode ≠ 0 → done (.grBegin rg x)) ∧
    (∀ b key, blk = some (b, key) → r.mode ≠ 0 →
      (b = .replay → ∀ g, (s.core e.core).gran.find? (fun g => g.pinnedBy e.kn.ctx key e.key) = some g →
        g.output.length = r.size.toNat) → done (.grEnd rg)) ∧
    (∀ l, e.st.isEmpty x = false → s.mem.wf = true → a.toNat % 16 = 0 → s.dataAt e a.toNat 16 = .loc l →
      let word (i : Nat) : Word := bytesValue s.mem (l + 4 * i) 4 false
      let theta := decodeE fFP32 (word 0).toNat
      let f := (word 1).toNat
      theta.isNaN = false → theta.isInf = false → (theta.neg = false ∨ theta.isZero = true) →
      f % 16 ≤ 2 → f / 4096 % 16 ≠ 0 → f / 16 % 16 = 0 → f / 512 % 8 = 0 → f / 65536 = 0 → word 3 = 0 →
      done (.grCfg x)) ∧
    (e.st.isEmpty x = false → done (.grInval x))

/-- R197 to R213: the granary words, their misuse, and what they do to the entries of a core. -/
def Obligations.GranaryBlocksAreCapturedAndReplayed : Prop :=
  clauseGranaryMisuseFailsTheKernel ∧ clauseGranaryBeginOpensABlock ∧ clauseGranaryEndClosesTheBlock ∧
    clauseGranaryCaptureFillsItsEntry ∧ clauseGranaryConfigAndInvalidation ∧ clauseGranaryWordsComplete

/-! ## Vector words (R111 to R136) -/

/-- A lane word: destination, sources, mask, whether vs2 and the old vd are read, and what a lane becomes. -/
structure LaneWord where
  d    : VReg
  a    : VReg
  b    : VReg
  p    : PReg
  useB : Bool
  useD : Bool
  f    : LaneFn

/-- The lane words of R123, R124, R125 and `vmv` of R127. -/
def laneWord : Instr → Option LaneWord
  | .vaddF d a b p => some ⟨d, a, b, p, true, false, LaneCtx.add⟩
  | .vsubF d a b p => some ⟨d, a, b, p, true, false, LaneCtx.sub⟩
  | .vmulF d a b p => some ⟨d, a, b, p, true, false, LaneCtx.mul⟩
  | .vfmaF d a b p => some ⟨d, a, b, p, true, true, LaneCtx.fma⟩
  | .vminF d a b p => some ⟨d, a, b, p, true, false, LaneCtx.min⟩
  | .vmaxF d a b p => some ⟨d, a, b, p, true, false, LaneCtx.max⟩
  | .vabsF d a p => some ⟨d, a, a, p, false, false, LaneCtx.abs⟩
  | .vnegF d a p => some ⟨d, a, a, p, false, false, LaneCtx.neg⟩
  | .vrcp d a p => some ⟨d, a, a, p, false, false, LaneCtx.rcp⟩
  | .vsqrt d a p => some ⟨d, a, a, p, false, false, LaneCtx.sqrt⟩
  | .vrsqrt d a p => some ⟨d, a, a, p, false, false, LaneCtx.rsqrt⟩
  | .vexp2 d a p => some ⟨d, a, a, p, false, false, LaneCtx.exp2⟩
  | .vlog2 d a p => some ⟨d, a, a, p, false, false, LaneCtx.log2⟩
  | .vaddI d a b p => some ⟨d, a, b, p, true, false, LaneCtx.addI⟩
  | .vsubI d a b p => some ⟨d, a, b, p, true, false, LaneCtx.subI⟩
  | .vmulI d a b p => some ⟨d, a, b, p, true, false, LaneCtx.mulI⟩
  | .vmulhI d a b p => some ⟨d, a, b, p, true, false, LaneCtx.mulhI⟩
  | .vminI d a b p => some ⟨d, a, b, p, true, false, LaneCtx.minI⟩
  | .vmaxI d a b p => some ⟨d, a, b, p, true, false, LaneCtx.maxI⟩
  | .vand d a b p => some ⟨d, a, b, p, true, false, LaneCtx.and⟩
  | .vor d a b p => some ⟨d, a, b, p, true, false, LaneCtx.or⟩
  | .vxor d a b p => some ⟨d, a, b, p, true, false, LaneCtx.xor⟩
  | .vshl d a b p => some ⟨d, a, b, p, true, false, LaneCtx.shl⟩
  | .vshr d a b p => some ⟨d, a, b, p, true, false, LaneCtx.shr⟩
  | .vsra d a b p => some ⟨d, a, b, p, true, false, LaneCtx.sra⟩
  | .vmv d a p => some ⟨d, a, a, p, false, false, LaneCtx.move⟩
  | _ => none

/-- A lane format of `acct` (R111). -/
def laneFmt (f : BitVec 4) : Prop := f.toNat = 0 ∨ f.toNat = 1 ∨ f.toNat = 2 ∨ f.toNat = 11 ∨ f.toNat = 12

/-- R118, R119, R123 to R125, R127: a lane word replaces the active lanes of its destination row by its lane results,
leaves the others and every byte outside the row, and raises the flags of the active lanes; all sources are read before
the row is written. A row that the kernel does not own raises cause 12 with the lowest such row. A lane word waits while
the vector engine holds a vector word of another strand that has issued before it. -/
def clauseLaneWordsWriteTheActiveLanes : Prop :=
  ∀ (s u : State) (e : Env) (i : Instr) (w : LaneWord), laneWord i = some w → laneFmt e.st.fmt →
    let c : LaneCtx := e.st.lanes
    let row (r : VReg) : Nat := e.st.row r.toNat
    let rd := row w.a :: ((if w.useB then [row w.b] else []) ++ (if w.useD then [row w.d] else []))
    let vl := 8192 / elemW e.st.fmt
    let m := e.st.getP w.p
    let old (r : VReg) (k : Nat) : Nat := laneAt e.st.fmt (u.rowAt e.core (row r)) k
    let res (k : Nat) : Rnd := w.f c (old w.a k) (old w.b k) (old w.d k)
    (VReady s e [] [] → RowsReady s e rd [row w.d] [] [] (laneRuns e.core (row w.d) e.st.fmt m) u → s.mem.wf = true →
      ∃ t fl, exec i s = .next (flagged e e.st t fl) ∧ sameOutside s t (accLoc e.core (row w.d * 1024)) 1024 ∧
        (∀ k, k < vl → laneAt e.st.fmt (t.rowAt e.core (row w.d)) k =
          if m.getLsbD k then (res k).code % 2 ^ elemW e.st.fmt else old w.d k) ∧
        ∀ b : Fin 5, fl.getLsbD b.val = true ↔ ∃ k, k < vl ∧ m.getLsbD k = true ∧ (res k).fl.getLsbD b.val = true) ∧
    (∀ r, VReady s e [] [] → r ∈ rd ++ [row w.d] → (r < e.kn.desc.accRows.1 ∨ e.kn.desc.accRows.2 ≤ r) →
      (∀ q ∈ rd ++ [row w.d], (q < e.kn.desc.accRows.1 ∨ e.kn.desc.accRows.2 ≤ q) → r ≤ q) →
      exec i s = .next (s.trap e.core e.key e.st 12 false (BitVec.ofNat 32 (0x1000000 + 0x400 * r)))) ∧
    (∀ sl st, s.env = some e → sl < 4 → sl ≠ e.slot → s.strands.get? (strandKey e.tm.lid (e.tm.num * 4 + sl)) = some st →
      st.waitsIn vectorWord = true → exec i s = .next (blocked e s .engine))

/-- R125 and R112, the integer lane results: modulo 2^w, with signed reading where the table says so. -/
def clauseIntegerLanesWrapModuloTheirWidth : Prop :=
  ∀ (c : LaneCtx) (a b d : Nat), laneFmt c.fmt →
    let w := elemW c.fmt
    a < 2 ^ w → b < 2 ^ w →
    let sg (x : Nat) : Int := if x < 2 ^ (w - 1) then x else (x : Int) - 2 ^ w
    let s := b % w
    let low (v : Int) (r : Rnd) : Prop := (r.code : Int) = v % 2 ^ w ∧ r.fl = 0
    low (a + b) (c.addI a b d) ∧ low (a - b) (c.subI a b d) ∧ low (a * b) (c.mulI a b d) ∧
    low (sg a * sg b / 2 ^ w) (c.mulhI a b d) ∧ low (min (sg a) (sg b)) (c.minI a b d) ∧
    low (max (sg a) (sg b)) (c.maxI a b d) ∧
    (∀ k, ((c.and a b d).code.testBit k = (a.testBit k && b.testBit k)) ∧
      ((c.or a b d).code.testBit k = (a.testBit k || b.testBit k)) ∧
      ((c.xor a b d).code.testBit k = (a.testBit k != b.testBit k))) ∧
    low (a * 2 ^ s) (c.shl a b d) ∧ low (a / 2 ^ s) (c.shr a b d) ∧ low (sg a / 2 ^ s) (c.sra a b d) ∧
    c.move a b d = ⟨a, 0⟩ ∧ w = (if c.fmt.toNat = 0 ∨ c.fmt.toNat = 11 then 32 else 16)

/-- R123 and R124, the special cases of the float lane words, by the values of their operands: what the functions return
for zeros, infinities, negative numbers and NaNs, with the flags; NaN results are canonical. That an annihilated `vfma.f`
raises no flag for its addend, a signalling NaN too, is the model's choice (log 18). -/
def Obligations.FloatLanesFollowTheSpecialCases : Prop :=
  ∀ (c : LaneCtx) (a b d : Nat), laneFmt c.fmt →
    let T := laneT c.fmt
    let nan (r : Rnd) (fl : Flags) : Prop := decodeE T r.code = .nan false ∧ r.fl = fl
    let inf (r : Rnd) (n : Bool) (fl : Flags) : Prop := decodeE T r.code = .inf n ∧ r.fl = fl
    let zero (r : Rnd) (n : Bool) : Prop := (decodeE T r.code).isZero = true ∧ (decodeE T r.code).neg = n ∧ r.fl = 0
    let one (r : Rnd) : Prop := (decodeE T r.code).eqv (.fin false 1 0) = true ∧ r.fl = 0
    let x := c.num a
    let y := c.num b
    (∀ n e, x = .fin n 0 e →
      inf (c.rcp a b d) n fDZ ∧ zero (c.sqrt a b d) n ∧ inf (c.rsqrt a b d) n fDZ ∧ one (c.exp2 a b d) ∧
      inf (c.log2 a b d) true fDZ) ∧
    (x = .inf false →
      zero (c.rcp a b d) false ∧ inf (c.sqrt a b d) false 0 ∧ zero (c.rsqrt a b d) false ∧ inf (c.exp2 a b d) false 0 ∧
      inf (c.log2 a b d) false 0) ∧
    (x = .inf true →
      zero (c.rcp a b d) true ∧ nan (c.sqrt a b d) fNV ∧ nan (c.rsqrt a b d) fNV ∧ zero (c.exp2 a b d) false ∧
      nan (c.log2 a b d) fNV) ∧
    (∀ m e, x = .fin true m e → m ≠ 0 →
      nan (c.sqrt a b d) fNV ∧ nan (c.rsqrt a b d) fNV ∧ nan (c.log2 a b d) fNV) ∧
    (∀ sg, x = .nan sg →
      let fl := if sg then fNV else 0
      nan (c.rcp a b d) fl ∧ nan (c.sqrt a b d) fl ∧ nan (c.rsqrt a b d) fl ∧ nan (c.exp2 a b d) fl ∧
      nan (c.log2 a b d) fl ∧ nan (c.abs a b d) fl ∧ nan (c.neg a b d) fl) ∧
    (∀ n, x = .inf n → y = .inf (!n) → nan (c.add a b d) fNV) ∧
    (∀ n, x = .inf n → y = .inf n → nan (c.sub a b d) fNV) ∧
    (∀ n m k, x = .inf n → y = .fin m 0 k → c.ann = false → nan (c.mul a b d) fNV) ∧
    (c.ann = true → x.isZero = true ∨ y.isZero = true →
      (c.mul a b d).fl = 0 ∧ (decodeE T (c.mul a b d).code).isZero = true ∧
      (decodeE T (c.mul a b d).code).neg = (codeNeg T a != codeNeg T b) ∧
      (c.fma a b d).fl = 0 ∧ ∀ z, c.num d = z → z.isNaN = false → decodeE T (c.fma a b d).code = z) ∧
    (x.isNaN = true → y.isNaN = true → nan (c.min a b d) (x.sigF ||| y.sigF) ∧ nan (c.max a b d) (x.sigF ||| y.sigF)) ∧
    (x.isNaN = true → y.isNaN = false →
      decodeE T (c.min a b d).code = y ∧ decodeE T (c.max a b d).code = y ∧ (c.min a b d).fl = x.sigF) ∧
    (x.isNaN = false → y.isNaN = false → x.lt y = true →
      decodeE T (c.min a b d).code = x ∧ decodeE T (c.max a b d).code = y ∧ (c.min a b d).fl = 0)

/-- R123 and R39: on finite operands `vadd.f`, `vsub.f`, `vmul.f`, `vfma.f`, `vabs.f` and `vneg.f` give the exact result
rounded once by the strand's mode, then flushed if `ftz` is set; an exact zero takes the IEEE sign. A NaN operand gives the
canonical NaN, NV if one is signalling, and an infinity meeting a finite number stays. A lane is read with `daz`. -/
def clauseFloatLanesRoundTheExactResultOnce : Prop :=
  ∀ (c : LaneCtx) (a b d : Nat) (F : FFmt), laneFmt c.fmt → (∀ u, c.rm ≠ .sto u) → ffmt (laneT c.fmt) = some F →
    let T := laneT c.fmt
    let x := c.num a
    let y := c.num b
    let z := c.num d
    let down : Bool := decide (c.rm = .rdn)
    let rounded (q : ℚ) (zero : Bool) (r : Rnd) : Prop :=
      (q ≠ 0 → ∃ r0, correct T F c.rm false (decide (q < 0)) |q| r0 ∧ r = ftzR c.ftz T r0) ∧
      (q = 0 → codeIs T r.code zero 0 ∧ r.fl = 0)
    x = decodeE T (dazE c.daz T a) ∧
    (∀ p, hasValue x p → rounded |p| false (c.abs a b d) ∧ rounded (-p) (!x.neg) (c.neg a b d)) ∧
    (∀ p q, hasValue x p → hasValue y q →
      rounded (p + q) (if x.neg = y.neg then x.neg else down) (c.add a b d) ∧
      rounded (p - q) (if x.neg ≠ y.neg then x.neg else down) (c.sub a b d) ∧
      (c.ann = false ∨ (p ≠ 0 ∧ q ≠ 0) →
        rounded (p * q) (x.neg != y.neg) (c.mul a b d) ∧
        ∀ r, hasValue z r →
          rounded (p * q + r) (if (x.neg != y.neg) = z.neg then z.neg else down) (c.fma a b d))) ∧
    (x.isNaN = true ∨ y.isNaN = true → ∀ r, (r = c.add a b d ∨ r = c.sub a b d ∨
        (r = c.mul a b d ∧ (c.ann = false ∨ (x.isZero = false ∧ y.isZero = false)))) →
      decodeE T r.code = .nan false ∧ r.fl = if x = .nan true ∨ y = .nan true then fNV else 0) ∧
    (∀ n q, x = .inf n → hasValue y q →
      decodeE T (c.add a b d).code = .inf n ∧ (c.add a b d).fl = 0 ∧ decodeE T (c.sub a b d).code = .inf n ∧
      (q ≠ 0 → decodeE T (c.mul a b d).code = .inf (n != y.neg) ∧ (c.mul a b d).fl = 0))

/-- A rational stands for an exact magnitude at a format's precision: it lies as that does to every magnitude that the format
holds and to every midpoint between two of them. `below z` and `above z` say that the exact magnitude is not less, or not more,
than `z`. -/
def standsFor (F : FFmt) (below above : ℚ → Prop) (q : ℚ) : Prop :=
  0 < q ∧ ∀ z, 0 ≤ z → onGrid { F with mb := F.mb + 1 } z → (z ≤ q ↔ below z) ∧ (q ≤ z ↔ above z)

/-- R124 and R39, on finite nonzero operands: `vrcp`, `vsqrt` and `vrsqrt` give the exact value of 1/x, √x and 1/√x rounded once by
the strand's mode and then flushed if `ftz` is set. `vexp2` and `vlog2` give a value rounded so that is exact for an integer and
for a power of two, and elsewhere is inexact and lies within one part in 2^64 of 2^x and log2 x; beyond 4,096 `vexp2` gives what
every greater, or smaller, magnitude gives. -/
def clauseFunctionsRoundTheirExactValue : Prop :=
  ∀ (c : LaneCtx) (a b d : Nat) (F : FFmt) (p : ℚ), laneFmt c.fmt → (∀ u, c.rm ≠ .sto u) → ffmt (laneT c.fmt) = some F →
    hasValue (c.num a) p → p ≠ 0 →
    let T := laneT c.fmt
    let gives (neg : Bool) (q : ℚ) (r : Rnd) : Prop := ∃ r0, correct T F c.rm false neg q r0 ∧ r = ftzR c.ftz T r0
    let near (q : ℚ) (v : ℝ) : Prop := |(q : ℝ) - v| ≤ |v| * (2 : ℝ) ^ (-64 : ℤ)
    gives (decide (p < 0)) |1 / p| (c.rcp a b d) ∧
    (0 < p → (∃ q, standsFor F (fun z => z * z ≤ p) (fun z => p ≤ z * z) q ∧ gives false q (c.sqrt a b d)) ∧
      (∃ q, standsFor F (fun z => z * z * p ≤ 1) (fun z => 1 ≤ z * z * p) q ∧ gives false q (c.rsqrt a b d))) ∧
    (∀ k : ℤ, p = k → |k| < 4096 → gives false (2 ^ k) (c.exp2 a b d)) ∧
    ((∀ k : ℤ, p ≠ k) → |p| < 4096 →
      ∃ q, 0 < q ∧ near q ((2 : ℝ) ^ (p : ℝ)) ∧ ¬onGrid F q ∧ gives false q (c.exp2 a b d)) ∧
    (∀ q, (4096 ≤ p ∧ 2 ^ 4096 ≤ q ∨ p ≤ -4096 ∧ 0 < q ∧ q * 2 ^ 4096 ≤ 1) → gives false q (c.exp2 a b d)) ∧
    (p = 1 → (decodeE T (c.log2 a b d).code).isZero = true ∧ (c.log2 a b d).fl = 0) ∧
    (∀ k : ℤ, p = 2 ^ k → k ≠ 0 → gives (decide (k < 0)) |(k : ℚ)| (c.log2 a b d)) ∧
    (0 < p → (∀ k : ℤ, p ≠ 2 ^ k) →
      ∃ q, near q (Real.logb 2 (p : ℝ)) ∧ ¬onGrid F |q| ∧ gives (decide (p < 1)) |q| (c.log2 a b d))

/-- The compare words of R126, with the comparison of two lanes and its flags. -/
def compareWord : Instr → Option (PReg × VReg × VReg × PReg × LaneCmp)
  | .vcmpFEq d a b p => some (d, a, b, p, LaneCtx.feq)
  | .vcmpFNe d a b p => some (d, a, b, p, LaneCtx.fne)
  | .vcmpFLt d a b p => some (d, a, b, p, LaneCtx.flt)
  | .vcmpFLe d a b p => some (d, a, b, p, LaneCtx.fle)
  | .vcmpIEq d a b p => some (d, a, b, p, LaneCtx.ieq)
  | .vcmpINe d a b p => some (d, a, b, p, LaneCtx.ine)
  | .vcmpILt d a b p => some (d, a, b, p, LaneCtx.ilt)
  | .vcmpILe d a b p => some (d, a, b, p, LaneCtx.ile)
  | .vcmpILtu d a b p => some (d, a, b, p, LaneCtx.iltu)
  | .vcmpILeu d a b p => some (d, a, b, p, LaneCtx.ileu)
  | _ => none

/-- R126: a compare word writes the comparison of each active lane into its predicate and 0 into every other bit, changes no
row, and raises the flags of the active lanes; the comparisons are those of the table, with NaN and signs as it
says. -/
def clauseCompareWordsWriteAPredicate : Prop :=
  (∀ (s u : State) (e : Env) (i : Instr) (d : PReg) (a b : VReg) (p : PReg) (f : LaneCmp),
    compareWord i = some (d, a, b, p, f) → VReady s e [] [] → laneFmt e.st.fmt → d ≠ 0 →
    RowsReady s e [e.st.row a.toNat, e.st.row b.toNat] [] [] [] [] u →
    let vl := 8192 / elemW e.st.fmt
    let m := e.st.getP p
    let old (r : VReg) (k : Nat) : Nat := laneAt e.st.fmt (u.rowAt e.core (e.st.row r.toNat)) k
    let res (k : Nat) : Bool × Flags := f e.st.lanes (old a k) (old b k)
    ∃ pv fl, exec i s = .next (flagged e (e.st.setP d pv) u fl) ∧ u.mem = s.mem ∧
      (∀ k, pv.getLsbD k = (decide (k < vl) && m.getLsbD k && (res k).1)) ∧
      ∀ k : Fin 5, fl.getLsbD k.val = true ↔
        ∃ j, j < vl ∧ m.getLsbD j = true ∧ (res j).2.getLsbD k.val = true) ∧
  ∀ (c : LaneCtx) (a b : Nat), laneFmt c.fmt → a < 2 ^ elemW c.fmt → b < 2 ^ elemW c.fmt →
    let w := elemW c.fmt
    let sg (x : Nat) : Int := if x < 2 ^ (w - 1) then x else (x : Int) - 2 ^ w
    let x := c.num a
    let y := c.num b
    let sig : Flags := if x = .nan true ∨ y = .nan true then fNV else 0
    let any : Flags := if x.isNaN = true ∨ y.isNaN = true then fNV else 0
    c.ieq a b = (decide (a = b), 0) ∧ c.ine a b = (decide (a ≠ b), 0) ∧ c.ilt a b = (decide (sg a < sg b), 0) ∧
    c.ile a b = (decide (sg a ≤ sg b), 0) ∧ c.iltu a b = (decide (a < b), 0) ∧ c.ileu a b = (decide (a ≤ b), 0) ∧
    (x.isNaN = true ∨ y.isNaN = true →
      c.feq a b = (false, sig) ∧ c.fne a b = (true, sig) ∧ c.flt a b = (false, any) ∧ c.fle a b = (false, any)) ∧
    (x.isNaN = false → y.isNaN = false →
      (c.feq a b).2 = 0 ∧ (c.flt a b).2 = 0 ∧ (c.fle a b).1 = ((c.flt a b).1 || (c.feq a b).1) ∧
      (c.fne a b).1 = !(c.feq a b).1 ∧ ((x.isZero && y.isZero) = true → (c.feq a b).1 = true ∧ (c.flt a b).1 = false)) ∧
    (∀ p q, hasValue x p → hasValue y q → (c.feq a b).1 = decide (p = q) ∧ (c.flt a b).1 = decide (p < q)) ∧
    (∀ n q, x = .inf n → hasValue y q → (c.feq a b).1 = false ∧ (c.flt a b).1 = n) ∧
    (∀ n p, hasValue x p → y = .inf n → (c.feq a b).1 = false ∧ (c.flt a b).1 = !n) ∧
    (∀ n k, x = .inf n → y = .inf k → (c.feq a b).1 = (n == k) ∧ (c.flt a b).1 = (n && !k))

/-- R127, R128 and R118: `vsel` and `vbcast`, the predicate words, and the count of a predicate; p0 reads as all ones. -/
def clauseSelectsAndPredicateWords : Prop :=
  ∀ (s u : State) (e : Env) (d a b : VReg) (p : PReg) (x xd : XReg) (pd pa pb : PReg), laneFmt e.st.fmt →
    let vl := 8192 / elemW e.st.fmt
    let row (r : VReg) : Nat := e.st.row r.toNat
    let old (r : VReg) (k : Nat) : Nat := laneAt e.st.fmt (u.rowAt e.core (row r)) k
    let new (t : State) (k : Nat) : Nat := laneAt e.st.fmt (t.rowAt e.core (row d)) k
    let runs (r : VReg) (m : PReg) : List Span := laneRuns e.core (row r) e.st.fmt (e.st.getP m)
    (VReady s e [] [] → s.mem.wf = true → RowsReady s e [row a, row b] [row d] [] [] (runs d 0) u →
      ∃ t, exec (.vsel d a b p) s = .next (completed e e.st t) ∧ sameOutside s t (accLoc e.core (row d * 1024)) 1024 ∧
        ∀ k, k < vl → new t k = if (e.st.getP p).getLsbD k then old a k else old b k) ∧
    (VReady s e [x] [] → s.mem.wf = true → RowsReady s e [] [row d] [] [] (runs d p) u →
      ∃ t, exec (.vbcast d x p) s = .next (completed e e.st t) ∧ sameOutside s t (accLoc e.core (row d * 1024)) 1024 ∧
        ∀ k, k < vl → new t k =
          if (e.st.getP p).getLsbD k then (e.st.getX x).toNat % 2 ^ elemW e.st.fmt else old d k) ∧
    (VReady s e [] [] →
      exec (.vpand pd pa pb) s = .next (completed e (e.st.setP pd (e.st.getP pa &&& e.st.getP pb)) s) ∧
      exec (.vpor pd pa pb) s = .next (completed e (e.st.setP pd (e.st.getP pa ||| e.st.getP pb)) s) ∧
      exec (.vpnot pd pa) s = .next (completed e (e.st.setP pd (~~~(e.st.getP pa))) s)) ∧
    (VReady s e [] [xd] →
      ∃ n, exec (.vpcnt xd pa) s = .next (completed e (e.st.later xd (BitVec.ofNat 32 n)) s) ∧
        n = ((List.range vl).filter (fun k => (e.st.getP pa).getLsbD k)).length ∧ (pa = 0 → n = vl)) ∧
    (∀ k, k < 512 → (e.st.getP 0).getLsbD k = true) ∧
    ∀ v k, (pd ≠ 0 → ((e.st.setP pd v).getP pd).getLsbD k = v.getLsbD k) ∧ e.st.setP 0 v = e.st

/-- The places of the active lanes of a strand: lane numbers and locations that its addresses resolve to, in order. -/
def lanesResolve (s : State) (e : Env) (p : PReg) (es : Nat) (addr : Nat → Word) (at_ : List (Nat × Nat)) : Prop :=
  at_.map (·.1) = (List.range (8192 / elemW e.st.fmt)).filter (fun k => (e.st.getP p).getLsbD k) ∧
  ∀ q ∈ at_, (addr q.1).toNat % es = 0 ∧ s.dataAt e (addr q.1).toNat es = .loc q.2

/-- R129 and R130: the vector memory words move each active lane between its row and its address, stores in ascending lane
order, and touch nothing else; the lowest failing lane raises cause 11 or 12 with its address. That it does so at once where
an earlier lane waits for a peer team, and after the check of the row itself, is the model's choice (log 42). -/
def clauseVectorMemoryWordsMoveTheActiveLanes : Prop :=
  ∀ (s : State) (e : Env) (d b : VReg) (x y : XReg) (p : PReg), laneFmt e.st.fmt → s.mem.wf = true →
    let es := elemW e.st.fmt / 8
    let vl := 8192 / elemW e.st.fmt
    let row := e.st.row d.toNat
    let unit (k : Nat) : Word := e.st.getX x + BitVec.ofNat 32 (k * es)
    let stride (k : Nat) : Word := e.st.getX x + BitVec.ofNat 32 k * e.st.getX y
    let owned (r : Nat) : Prop := e.kn.desc.accRows.1 ≤ r ∧ r < e.kn.desc.accRows.2
    let put := laneRuns e.core row e.st.fmt (e.st.getP p)
    let fails (v : State) (addr : Nat → Word) (k : Nat) : Prop := k < vl ∧ (e.st.getP p).getLsbD k = true ∧
      ((addr k).toNat % es ≠ 0 ∨ v.dataAt e (addr k).toNat es = .bad) ∧
      ∀ j, j < k → (e.st.getP p).getLsbD j = true → (addr j).toNat % es = 0 ∧ v.dataAt e (addr j).toNat es ≠ .bad
    (∀ (i : Instr) (addr : Nat → Word),
      (i = .vld d x p ∧ addr = unit ∧ VReady s e [x] [] ∨ i = .vlds d x y p ∧ addr = stride ∧ VReady s e [x, y] []) →
      (∀ at_ u, lanesResolve s e p es addr at_ →
        RowsReady s e [] [row] (joinRuns es (at_.map (·.2))) [] put u →
        ∃ t, exec i s = .next (completed e e.st t) ∧ sameOutside s t (accLoc e.core (row * 1024)) 1024 ∧
          ∀ k, k < vl → laneAt e.st.fmt (t.rowAt e.core row) k =
            match at_.find? (fun q => q.1 = k) with
            | some q => leNat ((List.range es).map (fun j => s.mem.get (q.2 + j)))
            | none => laneAt e.st.fmt (s.rowAt e.core row) k) ∧
      (∀ k, owned row → fails s addr k →
        exec i s = .next (s.trap e.core e.key e.st (if (addr k).toNat % es ≠ 0 then 11 else 12) false (addr k)))) ∧
    (∀ (i : Instr) (addr : Nat → Word),
      (i = .vst d x p ∧ addr = unit ∧ VReady s e [x] [] ∨ i = .vsts d x y p ∧ addr = stride ∧ VReady s e [x, y] []) →
      (∀ k, owned row → fails s addr k →
        exec i s = .next (s.trap e.core e.key e.st (if (addr k).toNat % es ≠ 0 then 11 else 12) false (addr k))) ∧
      ∀ at_ u, lanesResolve s e p es addr at_ → RowsReady s e [row] [] [] (joinRuns es (at_.map (·.2))) [] u →
        ∃ t, exec i s = .next (completed e e.st t) ∧
          (∀ z, (∀ q ∈ at_, ¬(q.2 ≤ z ∧ z < q.2 + es)) → t.mem.get z = s.mem.get z) ∧
          ∀ k q, at_.find? (fun q => q.1 = k) = some q →
            (∀ r ∈ at_, k < r.1 → r.2 + es ≤ q.2 ∨ q.2 + es ≤ r.2) →
            leNat ((List.range es).map (fun j => t.mem.get (q.2 + j))) = laneAt e.st.fmt (s.rowAt e.core row) k) ∧
    (VReady s e [x] [] → ∀ u1, RowsReady s e [e.st.row b.toNat] [] [] [] [] u1 → owned row →
      let idx (k : Nat) : Word :=
        e.st.getX x + BitVec.ofNat 32 (laneAt e.st.fmt (u1.rowAt e.core (e.st.row b.toNat)) k) * BitVec.ofNat 32 es
      (∀ k, fails u1 idx k →
        exec (.vldx d x b p) s =
          .next (u1.trap e.core e.key e.st (if (idx k).toNat % es ≠ 0 then 11 else 12) false (idx k))) ∧
      ∀ at_ u, lanesResolve u1 e p es idx at_ →
      RowsReady u1 e [e.st.row b.toNat] [row] (joinRuns es (at_.map (·.2))) [] put u →
      ∃ t, exec (.vldx d x b p) s = .next (completed e e.st t) ∧
        sameOutside s t (accLoc e.core (row * 1024)) 1024 ∧
        ∀ k, k < vl → laneAt e.st.fmt (t.rowAt e.core row) k =
          match at_.find? (fun q => q.1 = k) with
          | some q => leNat ((List.range es).map (fun j => s.mem.get (q.2 + j)))
          | none => laneAt e.st.fmt (s.rowAt e.core row) k)

/-- R131, R134 and R136: what `vperm`, `vslide`, `vnz`, `vhist` and `vhmerge` write, lane by lane. -/
def Obligations.PermutesAndHistogramsLaneByLane : Prop :=
  ∀ (s u : State) (e : Env) (d a b : VReg) (x xd : XReg) (p : PReg), laneFmt e.st.fmt → s.mem.wf = true →
    let w := elemW e.st.fmt
    let vl := 8192 / w
    let row (n : Nat) : Nat := e.st.row n
    let m (k : Nat) : Bool := (e.st.getP p).getLsbD k
    let old (n k : Nat) : Nat := laneAt e.st.fmt (u.rowAt e.core (row n)) k
    let new (t : State) (n k : Nat) : Nat := laneAt e.st.fmt (t.rowAt e.core (row n)) k
    let only (t : State) : Prop := sameOutside s t (accLoc e.core (row d.toNat * 1024)) 1024
    let sh := (e.st.getX x).toInt
    let g := 2 ^ e.st.wg.toNat
    let live (k : Nat) : Bool := m k && laneLive e.st.lanes (old a.toNat k)
    let groups : List Nat := (List.range (vl / g)).filter (fun q => (List.range g).any (fun j => live (q * g + j)))
    let bins := (List.range 16).map (fun j => row (d.toNat + j))
    let srcs := (List.range 16).map (fun j => row (a.toNat + j))
    let put := laneRuns e.core (row d.toNat) e.st.fmt (e.st.getP p)
    (VReady s e [] [] → RowsReady s e [row a.toNat, row b.toNat] [row d.toNat] [] [] put u →
      ∃ t, exec (.vperm d a b p) s = .next (completed e e.st t) ∧ only t ∧
        ∀ k, k < vl → new t d.toNat k = if m k then old a.toNat (old b.toNat k % vl) else old d.toNat k) ∧
    (VReady s e [x] [] → RowsReady s e [row a.toNat] [row d.toNat] [] [] put u →
      ∃ t, exec (.vslide d a x p) s = .next (completed e e.st t) ∧ only t ∧
        ∀ k, k < vl → new t d.toNat k =
          if m k then (if 0 ≤ (k : Int) + sh ∧ (k : Int) + sh < vl then old a.toNat ((k : Int) + sh).toNat else 0)
          else old d.toNat k) ∧
    (VReady s e [] [xd] → e.st.wg.toNat ≤ 2 →
      RowsReady s e [row a.toNat] [row d.toNat] [] [] [rowSpan e.core (row d.toNat)] u →
      ∃ t, exec (.vnz d a xd p) s =
          .next (completed e (e.st.later xd (BitVec.ofNat 32 groups.length)) t) ∧ only t ∧
        ∀ k, k < vl → new t d.toNat k = (groups[k]?).getD (2 ^ w - 1)) ∧
    (VReady s e [] [] → bins.Nodup → RowsReady s e (row a.toNat :: bins) bins [] [] [] u →
      ∃ t, exec (.vhist d a p) s = .next (completed e e.st t) ∧
        (∀ z, (∀ r ∈ bins, ¬(accLoc e.core (r * 1024) ≤ z ∧ z < accLoc e.core (r * 1024) + 1024)) →
          t.mem.get z = s.mem.get z) ∧
        ∀ j k, j < 16 → k < vl → new t (d.toNat + j) k =
          if m k && decide (old a.toNat k = j) then (old (d.toNat + j) k + 1) % 2 ^ w else old (d.toNat + j) k) ∧
    (VReady s e [] [] → RowsReady s e (row d.toNat :: srcs) [row d.toNat] [] []
        [(accLoc e.core (row d.toNat * 1024), accLoc e.core (row d.toNat * 1024) + 16 * (w / 8))] u →
      ∃ t, exec (.vhmerge d a p) s = .next (completed e e.st t) ∧ only t ∧
        ∀ k, k < vl → new t d.toNat k =
          if k < 16 then
            (old d.toNat k + (((List.range vl).filter m).map (fun j => old (a.toNat + k) j)).sum) % 2 ^ w
          else old d.toNat k)

/-- The running sums of R131: the sum before lane `k`, none before the first active lane, and the flags so far. -/
def scanTo (c : LaneCtx) (m : Nat → Bool) (v : Nat → Nat) : Nat → Option Nat × Flags
  | 0 => (none, 0)
  | k + 1 =>
    let r := scanTo c m v k
    if m k then
      let step : Rnd := match r.1 with
        | none => if isFloatKind c.fmt then c.pass (dazE c.daz (laneT c.fmt) (v k)) else ⟨v k, 0⟩
        | some q => if isFloatKind c.fmt then c.add q (v k) 0 else c.addI q (v k) 0
      (some step.code, r.2 ||| step.fl)
    else r

/-- R131 `vscan` and R132 `vcvt`: inclusive prefix sums over the active lanes, and conversion of each active element
between the lane format and the packed array of the named format under the strand's controls, a stochastic one
drawing from the lane's own generator (R37, R38); the flags raised are those of the active elements (R36). That the first
active lane of a float scan is read with `daz` and passed on is the model's choice (log 17), and so is what `convE` makes of a
SIGNBIT source in an integer format (log 15) and that a conversion to the same format applies `daz` and `ftz` (log 18). -/
def clauseScansAndConversions : Prop :=
  ∀ (s u : State) (e : Env) (d a : VReg) (f : BitVec 4) (sat : Bool) (p : PReg), laneFmt e.st.fmt → VReady s e [] [] →
    s.mem.wf = true →
    let w := elemW e.st.fmt
    let vl := 8192 / w
    let m (k : Nat) : Bool := (e.st.getP p).getLsbD k
    let row (n : Nat) : Nat := e.st.row n
    let old (n k : Nat) : Nat := laneAt e.st.fmt (u.rowAt e.core (row n)) k
    (RowsReady s e [row a.toNat] [row d.toNat] [] [] (laneRuns e.core (row d.toNat) e.st.fmt (e.st.getP p)) u →
      let r := scanTo e.st.lanes m (old a.toNat)
      ∃ t fl, exec (.vscan d a p) s = .next (flagged e e.st t fl) ∧
        sameOutside s t (accLoc e.core (row d.toNat * 1024)) 1024 ∧ fl = (r vl).2 ∧
        ∀ k, k < vl → laneAt e.st.fmt (t.rowAt e.core (row d.toNat)) k =
          if m k then ((r (k + 1)).1.getD 0) % 2 ^ w else old d.toNat k) ∧
    (let n := (vl * elemW f + 8191) / 8192
      let unpack := e.st.cdir
      let src := (List.range (if unpack then n else 1)).map (fun j => row (a.toNat + j))
      let dst := (List.range (if unpack then 1 else n)).map (fun j => row (d.toNat + j))
      let sf := if unpack then f else e.st.fmt
      let df := if unpack then e.st.fmt else f
      let sto : Prop := e.st.vfrm.toNat % 8 = 5 ∧ isStochastic df = true
      let gen (k : Nat) : Word := (e.st.gens.get? k).getD (genSeed e.st.srseed k)
      let elems (g : BitVec 4) (rows : List Nat) (v : State) : List Nat :=
        unpackE (elemW g) vl (rows.flatMap (fun q => v.rowAt e.core q))
      let put := cvtRuns e.core dst df (laneMask e.st.fmt (e.st.getP p))
      f.toNat ≤ 5 ∨ (10 ≤ f.toNat ∧ f.toNat ≤ 14) → dst.Nodup → RowsReady s e src dst [] [] put u →
      ∃ t st' fl, exec (.vcvt d a f sat p) s = .next (flagged e st' t fl) ∧
        { st' with gens := e.st.gens } = e.st ∧
        (¬sto → st' = e.st) ∧
        (sto → ∀ k, k < vl → m k = true → st'.gens.get? k = some (genNext (gen k))) ∧
        (∀ k, (vl ≤ k ∨ m k = false) → sto → st'.gens.get? k = e.st.gens.get? k) ∧
        let mode (k : Nat) : Rm := if e.st.vfrm.toNat % 8 = 5 ∧ isStochastic df = true then .sto (genNext (gen k)) else e.st.rm
        let conv (k v : Nat) : Rnd := convE sf df (mode k) sat (e.st.vfrm.getLsbD 3) (e.st.vfrm.getLsbD 4) v
        (∀ k, k < vl → (elems df dst t)[k]? =
          if m k then ((elems sf src u)[k]?).map (fun v => (conv k v).code % 2 ^ elemW df) else (elems df dst u)[k]?) ∧
        ∀ b : Fin 5, fl.getLsbD b.val = true ↔ ∃ k v, k < vl ∧ m k = true ∧ (elems sf src u)[k]? = some v ∧
          (conv k v).fl.getLsbD b.val = true)

/-- R133 and R51: a reduction combines the active lanes by halving, an absent lane leaving its partner, and puts the result,
or the identity when no lane is active, on its way to x[d]; an integer result is sign-extended, every other
zero-extended. That `daz` applies to each lane and that a lane which meets an absent one passes as it is are the model's
choices (logs 17, 18). -/
def clauseReductionsCombineTheActiveLanes : Prop :=
  ∀ (s u : State) (e : Env) (d : XReg) (a : VReg) (p : PReg), laneFmt e.st.fmt → VReady s e [] [d] →
    RowsReady s e [e.st.row a.toNat] [] [] [] [] u →
    let c : LaneCtx := e.st.lanes
    let w := elemW e.st.fmt
    let vl := 8192 / w
    let fk := isFloatKind e.st.fmt
    let lane (k : Nat) : Option Nat :=
      if (e.st.getP p).getLsbD k then some (laneAt e.st.fmt (u.rowAt e.core (e.st.row a.toNat)) k) else none
    let tree (fl : Bool) (op : LaneFn) : Option Nat × Flags :=
      redTree (fun v => if fl then c.pass v else ⟨v, 0⟩) (fun x y => op c x y 0) (Nat.log2 vl)
        ((List.range vl).map (fun k => (lane k).map (fun v => if fl then dazE c.daz (laneT c.fmt) v else v)))
    let sx (v : Nat) : Word := BitVec.ofInt 32 (if v < 2 ^ (w - 1) then (v : Int) else (v : Int) - 2 ^ w)
    let out (i : Instr) (fl : Bool) (op : LaneFn) (idn : Nat) (ext : Nat → Word) : Prop :=
      exec i s = .next (flagged e (e.st.later d (ext ((tree fl op).1.getD idn))) u (tree fl op).2) ∧ u.mem = s.mem
    (fk = true →
      out (.vredSum d a p) true LaneCtx.add (2 ^ (w - 1)) (BitVec.ofNat 32) ∧
      out (.vredMax d a p) true LaneCtx.max (c.infCode true) (BitVec.ofNat 32) ∧
      out (.vredMin d a p) true LaneCtx.min (c.infCode false) (BitVec.ofNat 32)) ∧
    (fk = false →
      out (.vredSum d a p) false LaneCtx.addI 0 sx ∧ out (.vredMax d a p) false LaneCtx.maxI (2 ^ (w - 1)) sx ∧
      out (.vredMin d a p) false LaneCtx.minI (2 ^ (w - 1) - 1) sx) ∧
    out (.vredAnd d a p) false LaneCtx.and (2 ^ w - 1) (BitVec.ofNat 32) ∧
    out (.vredOr d a p) false LaneCtx.or 0 (BitVec.ofNat 32)

/-- R135: `vcst` advances the pointer word by the active lanes' bytes and stores those lanes in ascending order at the old
pointer; with no active lane nothing is written; a pointer that is misaligned traps. -/
def clauseQueueAppendAdvancesThePointer : Prop :=
  ∀ (s u : State) (e : Env) (d : VReg) (x : XReg) (p : PReg) (l : Nat), laneFmt e.st.fmt → VReady s e [x] [] →
    s.mem.wf = true →
    let a := e.st.getX x
    let es := elemW e.st.fmt / 8
    let row := e.st.row d.toNat
    let lanes : List Nat := ((List.range (8192 / elemW e.st.fmt)).filter (fun k => (e.st.getP p).getLsbD k)).map
      (fun k => laneAt e.st.fmt (s.rowAt e.core row) k)
    let q := bytesValue s.mem l 4 false
    (e.kn.desc.accRows.1 ≤ row ∧ row < e.kn.desc.accRows.2 →
      (a.toNat % 4 ≠ 0 → exec (.vcst d x p) s = .next (s.trap e.core e.key e.st 11 false a)) ∧
      (a.toNat % 4 = 0 → s.dataAt e a.toNat 4 = .bad →
        exec (.vcst d x p) s = .next (s.trap e.core e.key e.st 12 false a))) ∧
    (a.toNat % 4 = 0 → s.dataAt e a.toNat 4 = .loc l → RowsReady s e [row] [] [(l, l + 4)] [] [] u →
      (q.toNat % es ≠ 0 → exec (.vcst d x p) s = .next (u.trap e.core e.key e.st 11 false q)) ∧
      (q.toNat % es = 0 → lanes = [] → exec (.vcst d x p) s = .next (completed e e.st u) ∧ u.mem = s.mem) ∧
      (q.toNat % es = 0 → lanes ≠ [] → ∀ (at_ : List Nat) (v : State), at_.length = lanes.length →
        (∀ (j b : Nat), at_[j]? = some b → u.dataAt e (q + BitVec.ofNat 32 (j * es)).toNat es = .loc b) →
        (∀ b ∈ at_, b + es ≤ l ∨ l + 4 ≤ b) → (at_.Pairwise (fun b c => b + es ≤ c ∨ c + es ≤ b)) →
        RowsReady u e [] [] [] ((l, l + 4) :: joinRuns es at_) [] v →
        ∃ t, exec (.vcst d x p) s = .next (completed e e.st t) ∧
          bytesValue t.mem l 4 false = q + BitVec.ofNat 32 (lanes.length * es) ∧
          (∀ (j b w : Nat), at_[j]? = some b → lanes[j]? = some w →
            leNat ((List.range es).map (fun k => t.mem.get (b + k))) = w) ∧
          ∀ z, ¬(l ≤ z ∧ z < l + 4) → (∀ b ∈ at_, ¬(b ≤ z ∧ z < b + es)) → t.mem.get z = s.mem.get z))

/-- The rows of a list are all rows of the kernel's teams (R116). -/
abbrev rowsOwned (e : Env) (rs : List Nat) : Prop := ∀ r ∈ rs, e.kn.desc.accRows.1 ≤ r ∧ r < e.kn.desc.accRows.2

/-- A vector word may act where it stands: a strand acts, the vector engine holds no other strand's word, its lanes have a
lane format, no float flag is enabled (R34), nothing that an access could wait for is left, and no byte holds an error. -/
structure VectorTurn (s : State) (e : Env) : Prop where
  turn  : VReady s e [] []
  quiet : Quiet s
  lanes : laneFmt e.st.fmt
  flags : e.st.vfrm.toNat / 32 = 0

/-- R126 to R128 and R131: the ten compare words, `vsel`, `vbcast`, the predicate words and `vpcnt` complete where their
rows are the kernel's and their scalar registers are full. -/
def clauseCompareAndPredicateWordsComplete : Prop :=
  ∀ (s : State) (e : Env) (d a b : VReg) (p pd pa pb : PReg) (x : XReg), VectorTurn s e →
    let row (r : VReg) : Nat := e.st.row r.toNat
    let done (i : Instr) : Prop := ∃ st t, exec i s = .next (completed e st t)
    (rowsOwned e [row a, row b] →
      done (.vcmpFEq pd a b p) ∧ done (.vcmpFNe pd a b p) ∧ done (.vcmpFLt pd a b p) ∧ done (.vcmpFLe pd a b p) ∧
      done (.vcmpIEq pd a b p) ∧ done (.vcmpINe pd a b p) ∧ done (.vcmpILt pd a b p) ∧ done (.vcmpILe pd a b p) ∧
      done (.vcmpILtu pd a b p) ∧ done (.vcmpILeu pd a b p)) ∧
    (rowsOwned e [row a, row b, row d] → done (.vsel d a b p)) ∧
    (rowsOwned e [row d] → e.st.isEmpty x = false → done (.vbcast d x p)) ∧
    done (.vpand pd pa pb) ∧ done (.vpor pd pa pb) ∧ done (.vpnot pd pa) ∧
    (e.st.isEmpty x = false → done (.vpcnt x pa))

/-- R129, R130 and R135: `vld`, `vlds`, `vldx`, `vst` and `vsts` complete where each active lane names an aligned element that
is there, and `vcst` where its pointer and every place that it appends to are. -/
def clauseVectorMemoryWordsComplete : Prop :=
  ∀ (s : State) (e : Env) (d b : VReg) (p : PReg) (x y : XReg), VectorTurn s e → e.st.isEmpty x = false →
    rowsOwned e [e.st.row d.toNat] →
    let es := elemW e.st.fmt / 8
    let done (i : Instr) : Prop := ∃ st t, exec i s = .next (completed e st t)
    let there (addr : Nat → Word) : Prop := ∃ at_, lanesResolve s e p es addr at_
    let cell (a : Word) (n : Nat) : Prop := a.toNat % n = 0 ∧ ∃ l, s.dataAt e a.toNat n = .loc l
    (there (fun k => e.st.getX x + BitVec.ofNat 32 (k * es)) → done (.vld d x p) ∧ done (.vst d x p)) ∧
    (e.st.isEmpty y = false → there (fun k => e.st.getX x + BitVec.ofNat 32 k * e.st.getX y) →
      done (.vlds d x y p) ∧ done (.vsts d x y p)) ∧
    (rowsOwned e [e.st.row b.toNat] →
      there (fun k => e.st.getX x +
        BitVec.ofNat 32 (laneAt e.st.fmt (s.rowAt e.core (e.st.row b.toNat)) k) * BitVec.ofNat 32 es) →
      done (.vldx d x b p)) ∧
    (∀ l, (e.st.getX x).toNat % 4 = 0 → s.dataAt e (e.st.getX x).toNat 4 = .loc l → s.mem.wf = true →
      let q := bytesValue s.mem l 4 false
      let n := ((List.range (8192 / elemW e.st.fmt)).filter (fun k => (e.st.getP p).getLsbD k)).length
      q.toNat % es = 0 → (∀ j, j < n → cell (q + BitVec.ofNat 32 (j * es)) es) → done (.vcst d x p))

/-- R131 to R134 and R136: `vperm`, `vslide`, `vscan`, `vcvt`, the five reductions, `vnz`, `vhist` and `vhmerge` complete
where their rows are the kernel's and their scalar registers are full. -/
def clauseRowWordsComplete : Prop :=
  ∀ (s : State) (e : Env) (d a b : VReg) (p : PReg) (x : XReg) (f : BitVec 4) (sat : Bool), VectorTurn s e →
    let row (r : VReg) : Nat := e.st.row r.toNat
    let run (r : VReg) (n : Nat) : List Nat := (List.range n).map (fun k => e.st.row (r.toNat + k))
    let n := packedRows e.st.fmt f
    let done (i : Instr) : Prop := ∃ st t, exec i s = .next (completed e st t)
    (rowsOwned e [row a, row b, row d] → done (.vperm d a b p)) ∧
    (rowsOwned e [row a, row d] → done (.vscan d a p)) ∧
    (rowsOwned e [row a, row d] → e.st.isEmpty x = false → done (.vslide d a x p) ∧ done (.vnz d a x p)) ∧
    (rowsOwned e (run a (if e.st.cdir then n else 1) ++ run d (if e.st.cdir then 1 else n)) → done (.vcvt d a f sat p)) ∧
    (rowsOwned e [row a] → e.st.isEmpty x = false →
      done (.vredSum x a p) ∧ done (.vredMax x a p) ∧ done (.vredMin x a p) ∧ done (.vredAnd x a p) ∧
      done (.vredOr x a p)) ∧
    (rowsOwned e (row a :: run d 16) → done (.vhist d a p)) ∧
    (rowsOwned e (row d :: run a 16) → done (.vhmerge d a p))

/-- R112 to R118, R124, R125: the words that act lane by lane, and the integer lanes. -/
def Obligations.LaneWordsWriteTheActiveLanes : Prop :=
  clauseLaneWordsWriteTheActiveLanes ∧ clauseIntegerLanesWrapModuloTheirWidth ∧ clauseFloatLanesRoundTheExactResultOnce ∧
    clauseFunctionsRoundTheirExactValue ∧ clauseCodesHaveTheirValues ∧ clauseSubnormalsAreFlushedWhereAsked

/-- R114, R126, R127: compares, selects and the words of predicates. -/
def Obligations.ComparesSelectsAndPredicates : Prop := 
  clauseCompareWordsWriteAPredicate ∧ clauseSelectsAndPredicateWords ∧ clauseCompareAndPredicateWordsComplete

/-- R119 to R121, R133: vector loads and stores, and the queue of `vnz`. -/
def Obligations.VectorMemoryMovesTheActiveLanes : Prop :=
  clauseVectorMemoryWordsMoveTheActiveLanes ∧ clauseQueueAppendAdvancesThePointer ∧ clauseVectorMemoryWordsComplete

/-- R128, R129, R131: `vscan`, `vcvt` and the reductions. -/
def Obligations.ScansConversionsAndReductions : Prop :=
  clauseScansAndConversions ∧ clauseReductionsCombineTheActiveLanes ∧ clauseConversionsRoundOnce ∧ clauseRowWordsComplete

/-! ## Tile commands (R165 to R183) -/

/-- The code of element (i, j) of a region as its bytes hold it (R31). -/
def codeAt (m : Mem) (r : Reg) (i j : Nat) : Nat :=
  let w := elemW r.fmt
  if 8 ≤ w then leNat ((List.range (w / 8)).map (fun k => m.get (r.base + i * r.pitch + j * (w / 8) + k)))
  else (m.get (r.base + i * r.pitch + j * w / 8)).toNat / 2 ^ (j * w % 8) % 2 ^ w

/-- The side entry of block `q` of row `i` of a region at `a` (R32): scale and spare. -/
def sideFrom (m : Mem) (r : Reg) (a i q : Nat) : Nat × Nat :=
  let o := a + i * r.sidePitch + q * sideBytes r.fmt
  ((m.get o).toNat, if r.fmt = fYF4 then (m.get (o + 1)).toNat else 0)

/-- The side entry of a block where the region keeps it. -/
def sideEntry (m : Mem) (r : Reg) (i q : Nat) : Nat × Nat := sideFrom m r r.side i q

/-- A descriptor whose rows are whole bytes, and whole blocks in a block format (R31, R32). -/
def shaped (d : Desc) : Prop :=
  d.ncols * elemW d.fmt % 8 = 0 ∧ (isBlock d.fmt = true → d.ncols % 32 = 0)

/-- `at(i, j)` of R167: the code and the side entry of the stored element, or the fill pattern. -/
def atElem (m : Mem) (core : Nat) (d : Desc) (map : Option (List Byte)) (nest : List (BitVec 16)) (i j : Nat) :
    Nat × (Nat × Nat) :=
  match atPlace d map nest i j with
  | some (r, c) => (codeAt m (descReg d core) r c,
      if isBlock d.fmt then sideEntry m (descReg d core) r (c / 32) else (0x7F, 0))
  | none => (mapFill map % 2 ^ elemW d.fmt, (0x7F, 0))

/-- The bytes that a sub-tile reads and writes beside the weight halves. -/
def tileReads (e : TileEnv) (i : Instr) : List Span :=
  (readSpans e.core e.h.bank i e.h.mapA e.h.nest e.u).filter (fun x => !isHalf x)
def tileWrites (e : TileEnv) (i : Instr) : List Span :=
  (writeSpans e.core e.h.bank i e.u).filter (fun x => !isHalf x)

/-- The bytes that its work needs of what a sub-tile reads: those of the elements that its map selects (R182). -/
def tileNeeds (e : TileEnv) (i : Instr) : List Span :=
  (needSpans e.core e.h.bank i e.h.mapA e.h.nest e.u).filter (fun x => !isHalf x)

/-- No ECC word that holds a byte of some runs holds an error (R295). -/
def cleanAround (s : State) (xs : List Span) : Prop := ∀ x ∈ xs, ∀ z, x.1 ≤ z → z < x.2 → s.errorsIn [eccWord z] = []

/-- A sub-tile of a tile command acts: it is dispatched and its turn has come (R186, R190), no operand on another core
fails or waits (R182), and what it needs, `more` included, holds no uncorrectable error; `u` is the state in which it
acts. -/
structure TileTurn (s : State) (e : TileEnv) (i : Instr) (more : List Span) (u : State) : Prop where
  turn  : s.tileEnv = some (e, true)
  ready : s.tileReady e i = true
  reach : ∃ s1, s.peers (.tile e.core e.h.seq e.u) e.h.lid e.core (tileReads e i) (tileWrites e i) (tileNeeds e i) =
      (s1, PeerAnswer.ok) ∧ s1.checkSpans (s1.lidCtx e.h.lid) (tileNeeds e i ++ more) = (u, none)
  canon : u.mem.wf = true

/-- What a sub-tile of engine `eng` with the flags `fl` does where no ECC word that it writes, and so may have to read first,
holds an error (R195, R196, R257): with no enabled flag among them they become sticky in the strand that appended the sheaf, and
the sub-tile is done after the writes, of bytes of `put`, that `wrote` describes; with one, the sub-tile ends in error with
status 1 and the enabled flags. -/
def tileOutcome (s : State) (e : TileEnv) (i : Instr) (eng : Nat) (u : State) (fl : Flags) (put : List Span)
    (wrote : State → Prop) : Prop :=
  cleanAround u put →
  let on : Flags := fl &&& BitVec.ofNat 5 (e.h.vfrm.toNat / 32)
  (on = 0 → ∃ v : State, exec i s = .next (v.subDone e) ∧ v.strands = (u.raiseFlags e.h.lid e.h.sid fl).strands ∧ wrote v) ∧
  (on ≠ 0 → ∃ v : State, exec i s = .next (v.subFault e eng (0x01#32 ||| (on.zeroExtend 32 <<< 8))))

/-- R186, R190, R183: a dispatched sub-tile whose turn has not come, for its sheaf's wait or for earlier work on what it reads
and writes, waits with no effect. -/
def clauseTileWorkWaitsItsTurn : Prop :=
  ∀ (s : State) (e : TileEnv) (h : TileHdr) (a d w : Desc) (b : DWord), s.tileEnv = some (e, true) →
    let waits (i : Instr) : Prop := s.tileReady e i = false → exec i s = .next s
    waits (.mm h a b d) ∧ waits (.mmTri h a b d) ∧ waits (.wload h a w b) ∧ waits (.wloadAns h a w b) ∧ waits (.tcopy h a d) ∧
    waits (.tconv h a b d) ∧ waits (.tfill h b d) ∧ waits (.tclr h d) ∧ waits (.vtCall h a b d) ∧ waits (.twalk h a b d)

/-- Every byte outside runs of locations reads as before. -/
def sameBeside (s t : State) (xs : List Span) : Prop := ∀ z, (∀ x ∈ xs, ¬(x.1 ≤ z ∧ z < x.2)) → t.mem.get z = s.mem.get z

/-- The rectangle (i, j) of a copy holds what R175 says. -/
def copied (u v : State) (core : Nat) (a d : Desc) (m : Option (List Byte)) (i0 i1 j0 j1 : Nat) : Prop :=
  let ra := descReg a core
  let rd := descReg d core
  ∀ i j, i0 ≤ i → i < i1 → j0 ≤ j → j < j1 →
    (isBlock a.fmt = false → codeAt v.mem rd i j = (atElem u.mem core a m [] i j).1) ∧
    (isBlock a.fmt = true → codeAt v.mem rd i j = codeAt u.mem ra i j ∧
      sideEntry v.mem rd i (j / 32) = sideEntry u.mem ra i (j / 32))

/-- R175 and R177: `tcopy` copies what `at(i, j)` of A selects, or the codes and side entries of a block region; `tfill`
writes one code, and one scale and spare, everywhere; `tclr` zeroes every byte. Nothing else is written. -/
def clauseCopiesFillsAndClearsWriteTheirRegion : Prop :=
  ∀ (s u : State) (e : TileEnv) (h : TileHdr) (a d : Desc) (b : DWord), shaped d →
    let rd := descReg d e.core
    (shaped a → a.fmt = d.fmt → (isBlock a.fmt = true → a.rows = d.rows ∧ a.cols = d.cols) →
      let i : Instr := .tcopy h a d
      let (i0, i1, j0, j1) := (tileGrid i).rect e.u
      TileTurn s e i [] u → tileOutcome s e i 1 u 0 (writeSpans e.core e.h.bank i e.u) (fun v =>
        copied u v e.core a d e.h.mapA i0 i1 j0 j1 ∧ sameBeside u v (writeSpans e.core e.h.bank i e.u))) ∧
    (
      let i : Instr := .tfill h b d
      let (i0, i1, j0, j1) := (tileGrid i).rect e.u
      TileTurn s e i [] u → tileOutcome s e i 1 u 0 (writeSpans e.core e.h.bank i e.u) (fun v =>
        (∀ r c, i0 ≤ r → r < i1 → j0 ≤ c → c < j1 → codeAt v.mem rd r c = par b 0 32 % 2 ^ elemW d.fmt ∧
          (isBlock d.fmt = true → sideEntry v.mem rd r (c / 32) = (par b 32 8, if d.fmt = fYF4 then par b 40 8 else 0))) ∧
          sameBeside u v (writeSpans e.core e.h.bank i e.u))) ∧
    (
      let i : Instr := .tclr h d
      TileTurn s e i [] u → tileOutcome s e i 1 u 0 (writeSpans e.core e.h.bank i e.u) (fun v =>
        (∀ x ∈ writeSpans e.core e.h.bank i e.u, ∀ z, x.1 ≤ z → z < x.2 → v.mem.get z = 0) ∧
        sameBeside u v (writeSpans e.core e.h.bank i e.u)))

/-- R176 and R182: `tconv` writes each element of D as the conversion of the element that `at(i, j)` of A selects, a block of
a block format encoded as a whole, on the own core or at the same offset of every core of its multicast mask. -/
def clauseConversionsWriteEveryDestination : Prop :=
  ∀ (s u : State) (e : TileEnv) (h : TileHdr) (a d : Desc) (b : DWord), shaped a → shaped d →
    let i := Instr.tconv h a b d
    let (i0, i1, j0, j1) := (tileGrid i).rect e.u
    let rm := (rmOf (par b 0 3) 0).det
    let sat : Bool := decide (par b 3 1 = 1)
    let rd := descReg d e.core
    let dests : List Reg := if par b 8 8 = 0 then [rd]
      else (mcastCores e.core b).map (fun c => { rd with base := dspLoc c d.addr.toNat })
    let src (r c : Nat) := atElem u.mem e.core a e.h.mapA [] r c
    let one (r c : Nat) : Rnd := convElem a.fmt d.fmt rm sat (src r c).2 (src r c).1
    let blk (r q : Nat) := encodeBlock d.fmt rm ((List.range 32).map (fun k =>
      valueOf a.fmt (src r (32 * q + k)).2 (src r (32 * q + k)).1))
    (par b 8 8 ≠ 0 → d.peerF = false ∧ d.acc = false) → TileTurn s e i [] u →
    ∃ fl, tileOutcome s e i 1 u fl (writeSpans e.core e.h.bank i e.u) (fun v =>
        (∀ r c x, i0 ≤ r → r < i1 → j0 ≤ c → c < j1 → x ∈ dests →
          (isBlock d.fmt = false → codeAt v.mem x r c = (one r c).code % 2 ^ elemW d.fmt) ∧
          (isBlock d.fmt = true →
            codeAt v.mem x r c = ((blk r (c / 32)).codes[c % 32]?.getD 0) % 2 ^ elemW d.fmt ∧
            sideEntry v.mem x r (c / 32) = ((blk r (c / 32)).scale % 256,
              if d.fmt = fYF4 then (blk r (c / 32)).spare % 256 else 0))) ∧
        sameBeside u v (writeSpans e.core e.h.bank i e.u)) ∧
      ∀ n : Fin 5, fl.getLsbD n.val = true ↔ ∃ r c, i0 ≤ r ∧ r < i1 ∧ j0 ≤ c ∧ c < j1 ∧
        (if isBlock d.fmt then (blk r (c / 32)).fl else (one r c).fl).getLsbD n.val = true

/-- R172 to R174, R47 and R48: each output element of `mm` and `mm.tri` is the sum of its row of A and its column of the
weight half, from the old element or from zero; `mm.tri` writes its pattern where the column passes the diagonal. For the
integer class the sum is that of R48, modulo 2^32. -/
def clauseMatrixProductsSumRowsByColumns : Prop :=
  ∀ (s u : State) (e : TileEnv) (h : TileHdr) (a d : Desc) (b : DWord) (tri : Bool), shaped a → elemW d.fmt = 32 →
    let i := if tri then Instr.mmTri h a b d else Instr.mm h a b d
    let (i0, i1, j0, j1) := (tileGrid i).rect e.u
    let wf := e.h.wfmt
    let k := par b 2 10 + 1
    let rd := descReg d e.core
    let half : Reg := { base := wtLoc e.core e.h.bank (par b 0 1), rows := 256, cols := kLimit wf, fmt := wf }
    let skips (m n : Nat) : Prop := tri = true ∧ (n : Int) > (m : Int) + parDg b
    let old (m n : Nat) : Nat := if par b 1 1 = 1 then codeAt u.mem rd m n else 0
    let src (m j : Nat) : Option (Nat × (Nat × Nat)) := (atPlace a e.h.mapA e.h.nest m j).map (fun p =>
      (codeAt u.mem (descReg a e.core) p.1 p.2,
        if isBlock a.fmt then sideEntry u.mem (descReg a e.core) p.1 (p.2 / 32) else (0x7F, 0)))
    let wt (n j : Nat) : Nat × (Nat × Nat) := (codeAt u.mem half n j,
      if isBlock wf then sideFrom u.mem half (wtSide e.core e.h.bank (par b 0 1)) n (j / 32) else (0x7F, 0))
    let elem (m n : Nat) : Nat × Flags := mmElem a wf e.h.zmul ((List.range k).map (src m))
      ((List.range (kGroups wf b)).map (wt n)) (old m n)
    (mmClass wf).isSome → mmClass a.fmt = mmClass wf → k ≤ kLimit wf → TileTurn s e i (mmWeights tri i b e) u →
    ∃ fl, tileOutcome s e i 0 u fl (writeSpans e.core e.h.bank i e.u) (fun v =>
        (∀ m n, i0 ≤ m → m < i1 → j0 ≤ n → n < j1 →
          (skips m n → codeAt v.mem rd m n = par b 32 32) ∧
          (¬skips m n → codeAt v.mem rd m n = (elem m n).1 % 2 ^ 32 ∧
            (mmClass wf = some 3 → (codeAt v.mem rd m n : Int) = ((old m n : Int) + ((List.range k).map (fun j =>
              (((src m j).map (fun c => intElem a.fmt c.1)).getD 0) * intElem wf (wt n j).1)).sum) % 2 ^ 32))) ∧
        sameBeside u v (writeSpans e.core e.h.bank i e.u)) ∧
      ∀ x : Fin 5, fl.getLsbD x.val = true ↔ ∃ m n, i0 ≤ m ∧ m < i1 ∧ j0 ≤ n ∧ n < j1 ∧ ¬skips m n ∧
        (elem m n).2.getLsbD x.val = true

/-- A product of two values, neither of them a NaN, that is an infinity of a sign. -/
def infProduct (n : Bool) (p : Machine.Num × Machine.Num) : Prop :=
  (p.1.isInf = true ∨ p.2.isInf = true) ∧ p.1.isNaN = false ∧ p.2.isNaN = false ∧ p.1.isZero = false ∧ p.2.isZero = false ∧
    (p.1.neg != p.2.neg) = n

/-- A product of a zero and an infinity. -/
def zeroByInf (p : Machine.Num × Machine.Num) : Prop :=
  p.1.isZero = true ∧ p.2.isInf = true ∨ p.1.isInf = true ∧ p.2.isZero = true

/-- R47, the sum of the products of one group: in annihilating mode those with a zero factor are removed, and a group without
products adds nothing; finite products are summed exactly; 0 × ∞ and infinities of both signs give NaN and raise NV. That a
sum of zero is +0 whatever the signs of its products is the model's choice (log 18). -/
def clauseGroupsAreSummedExactly : Prop :=
  ∀ (ann : Bool) (ps : List (Machine.Num × Machine.Num)),
    let kept := if ann then ps.filter (fun p => !(p.1.isZero || p.2.isZero)) else ps
    let bad : Prop := (∃ p ∈ kept, zeroByInf p) ∨ (∃ p ∈ kept, ∃ q ∈ kept, infProduct true p ∧ infProduct false q)
    let anyNaN : Prop := ∃ p ∈ kept, p.1.isNaN = true ∨ p.2.isNaN = true
    (kept = [] → groupSum ann ps = none) ∧
    (kept ≠ [] →
      (bad → groupSum ann ps = some (.nan false, fNV)) ∧
      (¬bad → anyNaN → ∃ g, groupSum ann ps = some (.nan g, 0)) ∧
      (∀ n p, ¬bad → ¬anyNaN → p ∈ kept → infProduct n p → groupSum ann ps = some (.inf n, 0)) ∧
      (∀ vs : List (ℚ × ℚ), List.Forall₂ (fun p v => hasValue p.1 v.1 ∧ hasValue p.2 v.2) ps vs →
        ∃ x, groupSum ann ps = some (x, 0) ∧ hasValue x (vs.map (fun v => v.1 * v.2)).sum ∧
          ((vs.map (fun v => v.1 * v.2)).sum = 0 → x.neg = false)))

/-- R47: the groups of P products are added into the accumulator in ascending order, each addition rounded once, by RNE, to
FP32; an annihilated group leaves the accumulator bit for bit, and a NaN makes it the canonical NaN. That a signalling NaN in
the accumulator or in the sum raises NV here is the model's choice (log 18). -/
def clauseGroupsAddIntoTheAccumulator : Prop :=
  ∀ (p : Nat) (ann : Bool) (ps qs : List (Machine.Num × Machine.Num)) (acc n : Nat) (fl : Flags), 0 < p → acc < 2 ^ 32 →
    let next (acc' : Nat) (fl' : Flags) : Prop := floatSum p ann (n + 1) (ps ++ qs) acc fl = floatSum p ann n qs acc' fl'
    let old := decodeE fFP32 acc
    floatSum p ann (n + 1) [] acc fl = (acc, fl) ∧
    (ps.length = p → groupSum ann ps = none → next acc fl) ∧
    (∀ x f, ps.length = p → groupSum ann ps = some (x, f) →
      (∀ a b, hasValue old a → hasValue x b → a + b ≠ 0 →
        ∃ r, correct fFP32 ⟨8, 23, 127, .ieee⟩ .rne false (decide (a + b < 0)) |a + b| r ∧ next r.code (fl ||| f ||| r.fl)) ∧
      (∀ a b, hasValue old a → hasValue x b → a + b = 0 → x.neg = false → next 0 (fl ||| f)) ∧
      (∀ g, x = .nan g → old.isNaN = false → next 0x7FC00000 (fl ||| f ||| (if g then fNV else 0))) ∧
      (∀ g, old = .nan g → x.isNaN = false → next 0x7FC00000 (fl ||| f ||| (if g then fNV else 0))) ∧
      (∀ g, x = .inf g → old = .inf (!g) → next 0x7FC00000 (fl ||| f ||| fNV)) ∧
      (∀ g, x = .inf g → (∃ a, hasValue old a) ∨ old = .inf g → next (if g then 0xFF800000 else 0x7F800000) (fl ||| f)) ∧
      (∀ g, old = .inf g → (∃ b, hasValue x b) → next (if g then 0xFF800000 else 0x7F800000) (fl ||| f)))

/-- R168 and R169, `wload`: half h holds A as w[k][n], transposed or not, +0 where A has no element, and the side entries of
a block format, 0x7F where there is none. R170 and R171, `wload.ans`: a stream that the header and the decoding accept fills
the half with the symbols in order; a bad header field ends in error 0x22 with its offset, a bad stream in 0x21 with the
bytes consumed. -/
def clauseWeightLoadsFillTheHalf : Prop :=
  ∀ (s u : State) (e : TileEnv) (h : TileHdr) (a b : Desc) (d : DWord),
    let n0 := par d 0 1
    let halfOf (f : BitVec 4) : Reg := { base := wtLoc e.core e.h.bank n0, rows := 256, cols := kLimit f, fmt := f }
    let sides := wtSide e.core e.h.bank n0
    let ra := descReg a e.core
    let half : List Span := [(wtLoc e.core e.h.bank n0, wtLoc e.core e.h.bank n0 + 0x24000)]
    let within (v : State) : Prop := sameBeside u v half
    (
      let i : Instr := .wload h a b d
      let kk := if a.tr then a.nrows else a.ncols
      let nn := if a.tr then a.ncols else a.nrows
      let side0 := if b.isZero then ra.side else (descReg b e.core).base
      shaped a → wloadFmt a.fmt = true → kk ≤ kLimit a.fmt → nn ≤ 256 → (isBlock a.fmt = true → a.tr = false) →
      TileTurn s e i [] u → tileOutcome s e i 0 u 0 half (fun v => within v ∧ ∀ n, n < 256 →
        (∀ k, k < kLimit a.fmt → codeAt v.mem (halfOf a.fmt) n k =
          if k < kk ∧ n < nn then (if a.tr then codeAt u.mem ra k n else codeAt u.mem ra n k) else 0) ∧
        (isBlock a.fmt = true → ∀ q, q < kLimit a.fmt / 32 → sideFrom v.mem (halfOf a.fmt) sides n q =
          if n < a.nrows ∧ q < a.ncols / 32 then sideFrom u.mem ra side0 n q else (0x7F, 0)))) ∧
    (
      let i : Instr := .wloadAns h a b d
      let hd := u.mem.read (descReg b e.core).base (descReg b e.core).codeBytes
      let f := BitVec.ofNat 4 (par d 4 4)
      let num (o n : Nat) : Nat := leNat ((hd.drop o).take n)
      let rows := num 4 2 + 1
      let cols := num 6 2 + 1
      let len := num 8 4
      let wide : Bool := decide (elemW f = 16)
      let run := ansLoop (leSplit 2 256 ((hd.drop 0x10).take 512)) (rows * cols * (if wide then 2 else 1)) 0
        (leSplit 4 128 ((hd.drop 0x210).take 512)).toArray (u.mem.read ra.base len) []
      TileTurn s e i [] u → wloadFmt f = true →
      (∀ o, dexoBad hd f ra.codeBytes = some o → exec i s = .next (u.subFault e 0 (BitVec.ofNat 32 (0x22 + 256 * o)))) ∧
      (dexoBad hd f ra.codeBytes = none →
        (run = none → exec i s = .next (u.subFault e 0 (BitVec.ofNat 32 (0x21 + 256 * len)))) ∧
        ∀ out xs rest, run = some (out, xs, rest) →
          let good : Prop := rest = [] ∧ ∀ x ∈ xs.toList, x = 2 ^ 23
          let codes := if wide then pairUp out.reverse else out.reverse
          (¬good → exec i s = .next (u.subFault e 0 (BitVec.ofNat 32 (0x21 + 256 * (len - rest.length))))) ∧
          (good → tileOutcome s e i 0 u 0 half (fun v => within v ∧ ∀ n k, n < 256 → k < kLimit f →
            codeAt v.mem (halfOf f) n k =
              if n < rows ∧ k < cols then (codes[n * cols + k]?.getD 0) % 2 ^ elemW f else 0))))

/-- R178 and R179: `vt.call` runs its microprogram once for each row, on private registers of which v0 holds the row of A and
x1 and x2 the row's number and the parameter, and writes v1 as the row of D; an illegal word ends in error 0x31 with its index. -/
def clauseCalledMicroprogramsMakeTheirRows : Prop :=
  ∀ (s u : State) (e : TileEnv) (h : TileHdr) (a d : Desc) (b : DWord), shaped a → shaped d →
    let i := Instr.vtCall h a b d
    let (i0, i1, _, _) := (tileGrid i).rect e.u
    let lf := BitVec.ofNat 4 (par b 20 4)
    let c : LaneCtx := { fmt := lf, rm := .rne, daz := false, ftz := false, ann := e.h.zmul }
    let words := (leSplit 4 (par b 12 8 + 1) (u.mem.read (vcsLoc e.core e.h.bank + 4 * par b 0 12) (4 * (par b 12 8 + 1)))).map
      (BitVec.ofNat 32)
    let prog (r : Nat) := microProgram c (decide (par b 24 1 = 1)) (microX r (BitVec.ofNat 32 (par b 32 32))) 0 words
    let zero : Row := List.replicate 1024 0
    laneFmt lf → a.fmt = lf → d.fmt = lf → a.ncols ≤ 8192 / elemW lf → d.ncols ≤ 8192 / elemW lf → TileTurn s e i [] u →
    (∀ k, prog 0 = .inr k → exec i s = .next (u.subFault e 1 (BitVec.ofNat 32 (0x31 + 256 * (par b 0 12 + k))))) ∧
    (∀ fs0, prog 0 = .inl fs0 → ∃ fl, tileOutcome s e i 1 u fl (writeSpans e.core e.h.bank i e.u) (fun v =>
      sameBeside u v (writeSpans e.core e.h.bank i e.u) ∧
      ∀ r, i0 ≤ r → r < i1 → ∃ fs m v0, prog r = .inl fs ∧
        (∀ j, j < 8192 / elemW lf → laneAt lf v0 j =
          if j < a.ncols then (atElem u.mem e.core a e.h.mapA [] r j).1 else 0) ∧ v0.length = 1024 ∧
        m = fs.foldl (fun m f => f m) { v := v0 :: List.replicate 7 zero, p := Vector.replicate 8 0, fl := 0 } ∧
        ∀ j, j < d.ncols → codeAt v.mem (descReg d e.core) r j = laneAt lf (m.v[1]?.getD []) j))

/-- R161, R162, R193: a word at the head of its engine's queue whose wait is enabled has it queued, after every earlier sheaf of
its core that would signal the semaphore is forced; the wait joins the semaphore's queue, and is served at once where
it stands first and the count is enough. -/
def clauseQueueHeadsQueueTheirWait : Prop :=
  ∀ (s : State) (c : Nat) (q : Queued) (x : Bool) (h : TileHdr) (a d : Desc) (b y z : DWord) (rest : List Queued) (sem : Sem),
    s.queueEnv x = some (c, q) → q.wait = .notQueued → (wordHdr q.word).waitEn = true →
    let n := (wordHdr q.word).waitSem.toNat
    let amt := BitVec.ofNat 32 (wordHdr q.word).waitAmt.toNat
    let line (t : State) : List Queued := if x then (t.core c).xq else (t.core c).tq
    let u := s.stookStep c (fun k => k.forceWhole c waitDemander (fun h => h.signals c q.team n))
    line u = q :: rest → u.sems.get? (semKey q.team n) = some sem → sem.ovf = false →
    ∃ t, exec (if x then .xfer h b y z else .tstore h a d) s = .next t ∧ t.mem = s.mem ∧
      (sem.q = [] → amt ≤ sem.count → line t = { q with wait := .served } :: rest ∧
        t.sems.get? (semKey q.team n) = some { sem with count := sem.count - amt }) ∧
      (sem.q = [] ∧ sem.count < amt ∨ (∃ w m r, sem.q = (w, m) :: r ∧ sem.count < m) →
        line t = { q with wait := .queued } :: rest ∧
        t.sems.get? (semKey q.team n) = some { sem with q := sem.q ++ [(.queue c x, amt)] }) ∧
      (((s.core c).stook.map (·.seq)).Nodup → ∀ g ∈ (t.core c).stook, g.seq < (s.core c).nextSeq →
        g.signals c q.team n = true → ∀ v, g.openAt v = false)

/-- R161, R162 and R175, `tstore`: at the head of its queue its wait is queued, or counts as served when it has none; once
served and clear of earlier work it copies A to D as `tcopy` does, leaves the queue, and signals. On another core its order
point is that of its push. -/
def clauseQueuedStoresWaitThenCopy : Prop :=
  ∀ (s : State) (c : Nat) (q : Queued) (h : TileHdr) (a d : Desc), s.queueEnv false = some (c, q) →
    let i := Instr.tstore h a d
    let hd := wordHdr q.word
    let rd := readSpans c 0 (tileInstr q.word) q.mapA [] 0
    let wr := writeSpans c 0 (tileInstr q.word) 0
    let needs := needSpans c 0 (tileInstr q.word) q.mapA [] 0
    let seated := q.far.foldl (fun (s : State) f => s.sitAt (.tile c q.seq 0) f.1 f.2 []) s
    (q.wait = .notQueued → hd.waitEn = false →
      ∃ t, exec i s = .next t ∧ (t.core c).tq = { q with wait := .served } :: (s.core c).tq.tail ∧ t.mem = s.mem) ∧
    (q.wait = .queued → exec i s = .next s) ∧
    (q.wait = .served → s.busy c q.seq q.seq (granulesOf rd) (granulesOf wr) = true → exec i s = .next s) ∧
    (∀ s1 u, q.wait = .served → tileInstr q.word = i → shaped a → shaped d → a.fmt = d.fmt →
      (isBlock a.fmt = true → a.rows = d.rows ∧ a.cols = d.cols) →
      s.busy c q.seq q.seq (granulesOf rd) (granulesOf wr) = false →
      seated.peers (.tile c q.seq 0) q.lid c rd wr needs = (s1, PeerAnswer.ok) →
      s1.checkSpans (s1.lidCtx q.lid) needs = (u, none) → cleanAround u wr → u.mem.wf = true →
      ∃ v, exec i s = .next (if hd.sigEn = true ∧ v.liveKernel q.lid = true then
          v.signal c q.team hd.sigSem.toNat hd.sigAmt.toNat (hd.scope == 3) else v) ∧
        (v.core c).tq = (u.core c).tq.tail ∧ copied u v c a d q.mapA 0 d.nrows 0 d.ncols ∧ sameBeside u v wr)

/-- A sub-tile of a tile command may run to its end where it stands: it is dispatched, its wait is served and nothing before it
that shares its granules is left (R186, R190), its operands lie on its own core, no byte holds an error, and no flag is
enabled (R34). -/
structure TileFree (s : State) (e : TileEnv) (i : Instr) : Prop where
  turn     : s.tileEnv = some (e, true)
  ready    : s.tileReady e i = true
  home     : otherCores e.core (tileReads e i ++ tileWrites e i) = []
  poison   : s.poison = []
  injected : s.injected = []
  flags    : e.h.vfrm.toNat / 32 = 0

/-- R165 to R180: a sub-tile of `mm`, `mm.tri`, `wload`, `tconv`, `tcopy`, `tfill` or `tclr` that may run does, and is done;
so is one of `wload.ans` whose header and stream are good, and one of `vt.call` whose microprogram has no illegal word. -/
def clauseTileWordsComplete : Prop :=
  ∀ (s : State) (e : TileEnv) (h : TileHdr) (a w d : Desc) (b : DWord),
    let done (i : Instr) : Prop := TileFree s e i → ∃ v : State, exec i s = .next (v.subDone e)
    let hd := s.mem.read (descReg w e.core).base (descReg w e.core).codeBytes
    let f := BitVec.ofNat 4 (par b 4 4)
    let num (o n : Nat) : Nat := leNat ((hd.drop o).take n)
    let lf := BitVec.ofNat 4 (par b 20 4)
    let words := (leSplit 4 (par b 12 8 + 1) (s.mem.read (vcsLoc e.core e.h.bank + 4 * par b 0 12) (4 * (par b 12 8 + 1)))).map
      (BitVec.ofNat 32)
    done (.mm h a b d) ∧ done (.mmTri h a b d) ∧ done (.wload h a w b) ∧ done (.tconv h a b d) ∧ done (.tcopy h a d) ∧
    done (.tfill h b d) ∧ done (.tclr h d) ∧
    (dexoBad hd f (descReg a e.core).codeBytes = none →
      (∃ out xs, ansLoop (leSplit 2 256 ((hd.drop 0x10).take 512))
          ((num 4 2 + 1) * (num 6 2 + 1) * (if elemW f = 16 then 2 else 1)) 0
          (leSplit 4 128 ((hd.drop 0x210).take 512)).toArray (s.mem.read (descReg a e.core).base (num 8 4)) [] =
            some (out, xs, []) ∧ ∀ x ∈ xs.toList, x = 2 ^ 23) → done (.wloadAns h a w b)) ∧
    ((∃ fs, microProgram { fmt := lf, rm := .rne, daz := false, ftz := false, ann := e.h.zmul } (decide (par b 24 1 = 1))
        (microX 0 (BitVec.ofNat 32 (par b 32 32))) 0 words = .inl fs) → done (.vtCall h a b d))

/-- R161 and R175: a `tstore` at the head of its queue whose wait is served, with nothing before it that shares its granules,
its operands on its own core and no byte in error, copies, leaves its queue, and signals. -/
def clauseTileStoresComplete : Prop :=
  ∀ (s : State) (c : Nat) (q : Queued) (h : TileHdr) (a d : Desc), s.queueEnv false = some (c, q) → q.wait = .served →
    tileInstr q.word = .tstore h a d →
    let rd := readSpans c 0 (.tstore h a d) q.mapA [] 0
    let wr := writeSpans c 0 (.tstore h a d) 0
    otherCores c (rd ++ wr) = [] → s.busy c q.seq q.seq (granulesOf rd) (granulesOf wr) = false →
    s.poison = [] → s.injected = [] →
    let hd := wordHdr q.word
    ∃ v : State, exec (.tstore h a d) s = .next (if hd.sigEn = true ∧ v.liveKernel q.lid = true then
        v.signal c q.team hd.sigSem.toNat hd.sigAmt.toNat (hd.scope == 3) else v) ∧ (v.core c).tq = (s.core c).tq.tail

/-- R186, R195, R196: a sub-tile that ends in error fails its kernel with fk 2 and cause 16, the demanding word and strand
in the trap section (0xFFFFFFFF and 0x7FF where no strand is trapped), and the tile section says which command failed and on whose demand. -/
def Obligations.TileFaultsFailTheKernel : Prop :=
  ∀ (s : State) (e : TileEnv) (eng : Nat) (status : Word) (k : Kernel),
    s.kernels.get? e.h.lid = some k → k.st.live = true → k.fl.fk = 0 →
    (∀ key st, e.by_.key = some key → s.strands.get? key = some st → st.hflag = false) →
    let t := s.subFault e eng status
    ∃ k' f, t.kernels.get? e.h.lid = some k' ∧ k'.st = .failed ∧ k'.fl.fk = 2 ∧ k'.fl.cause = 16 ∧
      k'.fl.sid = (if e.by_.key.isSome = true then e.by_.sid else 0x7FF) ∧
      k'.fl.pc = (if e.by_.key.isSome = true then e.by_.pc else 0xFFFFFFFF) ∧ k'.fl.info = status ∧ k'.fl.tile = some f ∧
      f.status = status ∧ f.engine = eng ∧ f.subt = e.u ∧ f.cmd = e.h.cmdNo ∧ f.apc = e.h.pc ∧ f.asid = e.h.sid ∧
      f.dpc = e.by_.pc ∧ f.kind = e.by_.kind ∧
      (∀ key st, t.strands.get? key = some st → st.lid = e.h.lid → st.st = .ended) ∧
      ∀ h ∈ (t.core e.core).stook, h.lid = e.h.lid → ∀ u, h.openAt u = false

/-- R161, R162, R174 to R177: `tcopy`, `tfill`, `tclr` and `tstore`. -/
def Obligations.CopiesFillsAndStoresWriteTheirRegion : Prop :=
  clauseCopiesFillsAndClearsWriteTheirRegion ∧ clauseQueueHeadsQueueTheirWait ∧ clauseQueuedStoresWaitThenCopy ∧
    clauseTileWorkWaitsItsTurn ∧ clauseTileWordsComplete ∧ clauseTileStoresComplete

/-- R176, R178 to R180: `tconv` and `vt.call`. -/
def Obligations.ConversionsAndMicroprogramsMakeTheirRows : Prop :=
  clauseConversionsWriteEveryDestination ∧ clauseStoredElementsConvertByTheTable ∧ clauseCalledMicroprogramsMakeTheirRows

/-- R165 to R173: `mm`, `mm.tri`, `wload` and `wload.ans`. -/
def Obligations.MatrixProductsAndTheirWeights : Prop :=
  clauseMatrixProductsSumRowsByColumns ∧ clauseGroupsAreSummedExactly ∧ clauseGroupsAddIntoTheAccumulator ∧
    clauseWeightLoadsFillTheHalf

/-! ## The format walker (R214 to R220) -/

/-- A walker acts on a word that its fetch gave without an uncorrectable error; `u` is the state in which it acts. -/
structure WalkTurn (s : State) (w : WalkEnv) (u : State) : Prop where
  acts  : s.walkEnv = some w
  fetch : s.checkSpans (s.lidCtx w.e.h.lid) [(dspLoc w.r.core (par w.b 0 23 + 4 * w.r.wpc.toNat),
    dspLoc w.r.core (par w.b 0 23 + 4 * w.r.wpc.toNat) + 4)] = (u, none)

/-- The walker goes on at word offset `pc` with the run `r`; every word counts as one step (R218). -/
def walked (w : WalkEnv) (u : State) (r : WalkRun) (pc : Int) : State :=
  { u with walkers := u.walkers.set w.id { r with wpc := pc, steps := w.r.steps + 1 } }

/-- The work ends in error with a status and its detail (R220): the walker is free and the sheaf is FAULTED. -/
def walkFailed (w : WalkEnv) (u : State) (code detail : Nat) : State :=
  ({ u with walkers := u.walkers.erase w.id } : State).subFault w.e 2 (BitVec.ofNat 32 (code + detail % 2 ^ 24 * 256))

/-- R216 and R217: the walker words that compute, branch, loop and fill the row buffer; k0 reads 0 and is not written. -/
def clauseWalkerWordsComputeOnRegisters : Prop :=
  ∀ (s u : State) (w : WalkEnv) (d a b : KReg) (imm : BitVec 14) (cc : BitVec 2), WalkTurn s w u →
    let k (x : KReg) : Word := if x = 0 then 0 else w.r.k[x.toNat]'x.isLt
    let put (x : KReg) (v : Word) : WalkRun := if x = 0 then w.r else { w.r with k := w.r.k.set x.toNat v x.isLt }
    let pc := w.r.wpc
    let writes (i : Instr) (v : Word) : Prop := exec i s = .next (walked w u (put d v) (pc + 1))
    exec .wkNop s = .next (walked w u w.r (pc + 1)) ∧
    writes (.wkMov d a) (k a) ∧ writes (.wkAdd d a b) (k a + k b) ∧ writes (.wkAddi d a imm) (k a + imm.signExtend 32) ∧
    writes (.wkCmp d a b cc) (if (cc = 0 ∧ k a = k b) ∨ (cc = 1 ∧ k a ≠ k b) ∨ (cc = 2 ∧ (k a).toNat < (k b).toNat) ∨
      (cc = 3 ∧ (k a).toInt < (k b).toInt) then 1 else 0) ∧
    exec (.wkBr a imm) s = .next (walked w u w.r (if k a ≠ 0 then pc + imm.toInt else pc + 1)) ∧
    (a ≠ 0 → exec (.wkLoop a imm) s =
      .next (walked w u (put a (k a - 1)) (if k a ≠ 1 then pc + imm.toInt else pc + 1))) ∧
    (a = 0 → exec (.wkLoop a imm) s = .next (walked w u w.r (pc + 1))) ∧
    exec .wkZero s = .next (walked w u { w.r with buf := [] } (pc + 1)) ∧
    ((k b).toNat < w.d.ncols → ∃ r, exec (.wkEmit a b) s = .next (walked w u r (pc + 1)) ∧ { r with buf := w.r.buf } = w.r ∧
      ∀ c, Tbl.get? r.buf c = if c = (k b).toNat then some ((k a).toNat % 2 ^ elemW w.d.fmt) else Tbl.get? w.r.buf c) ∧
    (w.d.ncols ≤ (k b).toNat → exec (.wkEmit a b) s = .next (walkFailed w u 0x43 (k b).toNat))

/-- R217 and R218: `wk.ld` and `wk.ldx` read the input stream, little-endian, at an aligned offset inside it; `wk.flush`
writes the row buffer as row `er` of D, `wk.skip` zeroes rows, and `wk.end` zeroes the rows that are left and completes the
command; a word that goes past its operand ends in error. A write waits for its peer core, and reads first what it covers of an
ECC word only in part. -/
def clauseWalkerWordsMoveTheirBytes : Prop :=
  ∀ (s u : State) (w : WalkEnv) (d a b : KReg) (imm : BitVec 14) (sz : BitVec 2), WalkTurn s w u → shaped w.d →
    let k (x : KReg) : Word := if x = 0 then 0 else w.r.k[x.toNat]'x.isLt
    let put (x : KReg) (v : Word) : WalkRun := if x = 0 then w.r else { w.r with k := w.r.k.set x.toNat v x.isLt }
    let pc := w.r.wpc
    let rd := descReg w.d w.r.core
    let base := (descReg w.a w.r.core).base
    let rows (n : Nat) : Span := (rd.base + w.r.er * rd.pitch, rd.base + w.r.er * rd.pitch + n * rd.pitch)
    let may (n : Nat) (v : State) : Prop :=
      ∃ s1, u.peers (.tile w.r.core w.r.seq 0) w.e.h.lid w.r.core [] [rows n] [] = (s1, PeerAnswer.ok) ∧
        s1.checkSpans (s1.lidCtx w.e.h.lid) (partWords [rows n]) = (v, none)
    (∀ (i : Instr) (o : Word) (n : Nat),
      (i = .wkLd d a imm ∧ o = k a + imm.signExtend 32 ∧ n = 4 ∨
        i = .wkLdx d a b sz ∧ o = k a + k b * BitVec.ofNat 32 (2 ^ sz.toNat) ∧ n = 2 ^ sz.toNat) →
      (o.toNat % n ≠ 0 → exec i s = .next (walkFailed w u 0x46 o.toNat)) ∧
      (o.toNat % n = 0 → w.a.nrows * w.a.ncols < o.toNat + n → exec i s = .next (walkFailed w u 0x42 o.toNat)) ∧
      (o.toNat % n = 0 → o.toNat + n ≤ w.a.nrows * w.a.ncols → ∀ s1 v, u.mem.wf = true →
        u.peers (.tile w.r.core w.r.seq 0) w.e.h.lid w.r.core [(base + o.toNat, base + o.toNat + n)] []
          [(base + o.toNat, base + o.toNat + n)] = (s1, PeerAnswer.ok) →
        s1.checkSpans (s1.lidCtx w.e.h.lid) [(base + o.toNat, base + o.toNat + n)] = (v, none) →
        exec i s = .next (walked w v (put d (BitVec.ofNat 32 (leNat
          ((List.range n).map (fun j => v.mem.get (base + o.toNat + j)))))) (pc + 1)))) ∧
    (w.d.nrows ≤ w.r.er → exec .wkFlush s = .next (walkFailed w u 0x44 w.r.er)) ∧
    (w.r.er < w.d.nrows → ∀ v, u.mem.wf = true → may 1 v →
      ∃ t, exec .wkFlush s = .next (walked w t { w.r with er := w.r.er + 1, buf := [] } (pc + 1)) ∧
        sameBeside v t [rows 1] ∧ ∀ c, c < w.d.ncols →
          codeAt t.mem rd w.r.er c = ((Tbl.get? w.r.buf c).getD 0) % 2 ^ elemW w.d.fmt) ∧
    (w.d.nrows < w.r.er + (k a).toNat → exec (.wkSkip a) s = .next (walkFailed w u 0x44 w.r.er)) ∧
    (k a = 0 → w.r.er ≤ w.d.nrows → exec (.wkSkip a) s = .next (walked w u w.r (pc + 1))) ∧
    (k a ≠ 0 → w.r.er + (k a).toNat ≤ w.d.nrows → ∀ v, u.mem.wf = true → may (k a).toNat v →
      ∃ t, exec (.wkSkip a) s = .next (walked w t { w.r with er := w.r.er + (k a).toNat } (pc + 1)) ∧
        sameBeside v t [rows (k a).toNat] ∧
        ∀ z, (rows (k a).toNat).1 ≤ z → z < (rows (k a).toNat).2 → t.mem.get z = 0) ∧
    (let gone (t : State) : State := ({ t with walkers := t.walkers.erase w.id } : State).subDone w.e
     (w.d.nrows ≤ w.r.er → exec .wkEnd s = .next (gone u)) ∧
     (w.r.er < w.d.nrows → ∀ v, u.mem.wf = true → may (w.d.nrows - w.r.er) v →
       ∃ t, exec .wkEnd s = .next (gone t) ∧ sameBeside v t [rows (w.d.nrows - w.r.er)] ∧
         ∀ z, (rows (w.d.nrows - w.r.er)).1 ≤ z → z < (rows (w.d.nrows - w.r.er)).2 → t.mem.get z = 0))

/-- R214, R216, R219 and R220: a dispatched `twalk` whose turn has come takes its cluster's free walker, with k1, k2 and k3
set and every other register 0, and starts at word 0 with nothing written, unless work of an earlier dispatch waits for the
same walker; a word outside the program, an illegal one and the step limit end the work in error, and an uncorrectable error that
a fetch meets fails the kernel with that error instead (R296). -/
def clauseWalkersBeginAndStop : Prop :=
  (∀ (s : State) (e : TileEnv) (h : TileHdr) (a d : Desc) (b : DWord), s.tileEnv = some (e, true) →
    let i := Instr.twalk h a b d
    let id := coreCluster e.core
    let first : Prop := ∀ p, p < 8 → ∀ g ∈ (s.core (peerCore e.core p)).stook, g.walkQueued = true →
      placeBefore (g.walkPlace (peerCore e.core p)) (e.h.walkPlace e.core) = false
    (e.h.begun = false → s.walkers.get? id = none → s.tileReady e i = true → first →
      ∃ t r, exec i s = .next t ∧ t.walkers.get? id = some r ∧ r.core = e.core ∧ r.seq = e.h.seq ∧ r.wpc = 0 ∧ r.er = 0 ∧
        r.buf = [] ∧ r.steps = 0 ∧ t.mem = s.mem ∧
        ∀ n : Fin 16, r.k[n.val] = if n.val = 1 then BitVec.ofNat 32 (par b 32 32)
          else if n.val = 2 then BitVec.ofNat 32 d.nrows else if n.val = 3 then BitVec.ofNat 32 d.ncols else 0) ∧
    (e.h.begun = true ∨ (∃ r, s.walkers.get? id = some r) ∨ s.tileReady e i = false ∨ ¬first → exec i s = .next s)) ∧
  ∀ (s : State) (w : WalkEnv), s.walkEnv = some w →
    let l := dspLoc w.r.core (par w.b 0 23 + 4 * w.r.wpc.toNat)
    let inside : Prop := 0 ≤ w.r.wpc ∧ w.r.wpc ≤ par w.b 23 9
    (¬inside → exec .walkerIllegalWord s = .next (walkFailed w s 0x41 (w.r.wpc % 512).toNat)) ∧
    (∀ u, s.checkSpans (s.lidCtx w.e.h.lid) [(l, l + 4)] = (u, none) →
      (inside → exec .walkerIllegalWord s = .next (walkFailed w u 0x41 (w.r.wpc % 512).toNat)) ∧
      exec .walkerStepLimit s = .next (walkFailed w u 0x45 0)) ∧
    (∀ u p, s.checkSpans (s.lidCtx w.e.h.lid) [(l, l + 4)] = (u, some p) →
      let stopped : State := ({ u with walkers := u.walkers.erase w.id } : State).subError w.e p
      (inside → exec .walkerIllegalWord s = .next stopped) ∧ exec .walkerStepLimit s = .next stopped ∧
        exec .wkNop s = .next stopped ∧ exec .wkEnd s = .next stopped)

/-- R214 to R220: `twalk` and the words of a walker. -/
def Obligations.WalkersRunTheirPrograms : Prop :=
  clauseWalkerWordsComputeOnRegisters ∧ clauseWalkerWordsMoveTheirBytes ∧ clauseWalkersBeginAndStop

/-! ## Move programs: scalar words, waits, signals and issue (R222 to R247) -/

/-- A kernel FAILED by a move, with its move record (R247, R348). -/
def moveRecord (lid : Nat) (f : MoveFault) (t : State) : Prop :=
  ∃ k, t.kernels.get? lid = some k ∧ k.st = .failed ∧ k.fl.fk = 3 ∧ k.fl.move = some f

/-- R227, R228 and R246: what the scalar and control words of a move program do to the registers a0 to a15 and n0 to n5 and
to its pc; the word that passes control is remembered. An engine that waits for an atomic's old value stalls (R239). Nothing
but the engine's run changes. -/
def clauseMoveScalarWordsActOnTheRun : Prop :=
  ∀ (s : State) (e : MoveEnv) (d a b : AReg) (k : BitVec 4) (imm : BitVec 40), s.moveEnv = some e →
    (e.r.atomW.isSome = true → exec .mvNop s = .next s ∧ exec (.mvLi d imm) s = .next s ∧ exec .mvRet s = .next s) ∧
    (e.r.atomW = none →
      let x := e.r.a[a.toNat]'a.isLt
      let y := e.r.a[b.toNat]'b.isLt
      let at_ (r : Run) (pc : DWord) : Run := { r with pc := pc, from_ := e.r.pc.truncate 20 }
      let step (r : Run) : Run := at_ r (e.r.pc + 8)
      let put (v : DWord) : Run := { e.r with a := e.r.a.set d.toNat v d.isLt }
      let target : DWord := e.r.pc + imm.signExtend 64 * 8
      let ends (i : Instr) (r : Run) : Prop := exec i s = .next (s.setRun e.id r)
      let br (c : Nat) (p : Bool) : Prop := ends (.mvBr (BitVec.ofNat 4 c) a b imm) (if p then at_ e.r target else step e.r)
      ends .mvNop (step e.r) ∧ ends (.mvLi d imm) (step (put (imm.signExtend 64))) ∧
      ends (.mvAdd d a b) (step (put (x + y))) ∧ ends (.mvAddi d a imm) (step (put (x + imm.signExtend 64))) ∧
      ends (.mvSub d a b) (step (put (x - y))) ∧ ends (.mvAnd d a b) (step (put (x &&& y))) ∧
      ends (.mvShl d a b) (step (put (x <<< (y.toNat % 64)))) ∧ ends (.mvMul d a b) (step (put (x * y))) ∧
      br 0 (decide (x = y)) ∧ br 1 (decide (x ≠ y)) ∧ br 2 (decide (x.toInt < y.toInt)) ∧
      br 3 (decide (y.toInt ≤ x.toInt)) ∧ br 4 (decide (x.toNat < y.toNat)) ∧ br 5 (decide (y.toNat ≤ x.toNat)) ∧
      ends (.mvJal d imm) (at_ (put (e.r.pc + 8)) target) ∧ ends (.mvJalReg d a) (at_ (put (e.r.pc + 8)) x) ∧
      ends .mvRet { e.r with ended := true } ∧
      (∀ h : k.toNat < 6,
        let v := e.r.n[k.toNat]'h
        let less : Run := { e.r with n := e.r.n.set k.toNat (v - 1) h }
        ends (.mvNest k a) (step { e.r with n := e.r.n.set k.toNat x h }) ∧
        (v = 0 → ends (.mvLp k imm) (step e.r)) ∧ (v = 1 → ends (.mvLp k imm) (step less)) ∧
        (v ≠ 0 → v ≠ 1 → ends (.mvLp k imm) (at_ less target)))) ∧
    ∀ r, let t := s.setRun e.id r
      (t.eng e.id).run = some r ∧ { t.eng e.id with run := e.e.run } = e.e ∧ { t with dies := s.dies } = s ∧
      ∀ id, id ≠ e.id → t.eng id = s.eng id

/-- R227: a word of the code of `mv.jal` with flags of 2 to 15 is illegal. -/
def clauseMoveJumpFlags : Prop :=
  ∀ w : DWord, w.toNat % 2 ^ 8 = 9 → 2 ≤ w.toNat / 2 ^ 20 % 2 ^ 4 → decodeMove w = none

/-- R245, R246 and R247: `mv.fence` waits for every earlier command of the run and may give the retire counter; `mv.trap`
and an illegal word or fetch end the run and fail the kernel, with the word and the status in the move record. -/
def clauseMoveFencesAndTraps : Prop :=
  ∀ (s : State) (e : MoveEnv) (d : AReg) (imm : BitVec 40), s.moveEnv = some e → e.r.atomW = none →
    let quiet : Prop := ∀ c ∈ e.e.cmds, c.st.gone = true
    let step (r : Run) : Run := { r with pc := e.r.pc + 8, from_ := e.r.pc.truncate 20 }
    let pc := e.r.pc.toNat
    let stops (i : Instr) (at_ : BitVec 20) (status : Nat) (info : DWord) : Prop :=
      ∃ t, exec i s = .next t ∧ moveRecord e.r.lid
        { eng := e.id, pc := at_, num := 0, status := BitVec.ofNat 32 status, nres := 0, info := info } t ∧
        (t.eng e.id).run = none
    (quiet → exec .mvFence s = .next (s.setRun e.id (step e.r)) ∧
      exec (.mvFenceRd d) s = .next (s.setRun e.id
        (step { e.r with a := e.r.a.set d.toNat (BitVec.ofNat 64 e.e.retire) d.isLt }))) ∧
    (¬quiet → exec .mvFence s = .next s ∧ exec (.mvFenceRd d) s = .next s) ∧
    (∀ k, s.kernels.get? e.r.lid = some k → k.st.live = true → k.fl.fk = 0 →
      stops (.mvTrap imm) (e.r.pc.truncate 20) 2 (imm.zeroExtend 64) ∧
      (pc % 8 = 0 → pc + 8 ≤ 2 ^ 20 → stops .illegalMoveWord (e.r.pc.truncate 20) (1 + pc / 8 * 2 ^ 13) 0) ∧
      (pc % 8 ≠ 0 ∨ 2 ^ 20 < pc + 8 →
        stops .illegalMoveWord e.r.from_ (1 + e.r.from_.toNat / 8 * 2 ^ 13 + 2 ^ 30) e.r.pc))

/-- R243 and R244: `mv.sig` signals once every earlier command of the run has retired; the counter form of `mv.tw` waits for
the retire counter of an engine; the semaphore form queues one wait and completes once that is served. A bad register
ends the run with status 0x03, a semaphore that the kernel does not own with 0x09. That `mv.sig` checks both only after it has
stalled and `mv.tw` before it waits, and the register before the semaphore, is the model's choice (log 25). -/
def clauseMoveSignalsAndWaits : Prop :=
  ∀ (s : State) (e : MoveEnv) (a b : AReg) (n amt : BitVec 8) (scope : BitVec 2) (k : Kernel), s.moveEnv = some e →
    e.r.atomW = none → s.kernels.get? e.r.lid = some k → k.st.live = true → k.fl.fk = 0 →
    let v := (e.r.a[a.toNat]'a.isLt).toNat
    let m := (e.r.a[b.toNat]'b.isLt).toNat
    let quiet : Prop := ∀ c ∈ e.e.cmds, c.st.gone = true
    let step (r : Run) : Run := { r with pc := e.r.pc + 8, from_ := e.r.pc.truncate 20 }
    let stops (i : Instr) (status : Nat) : Prop :=
      ∃ t, exec i s = .next t ∧ moveRecord e.r.lid { eng := e.id, pc := e.r.pc.truncate 20, num := 0
                                                     status := BitVec.ofNat 32 status, nres := 0, info := 0 } t
    let illegal := 3 + e.r.pc.toNat / 8 % 2 ^ 17 * 2 ^ 13
    let foreign := 9 + n.toNat * 2 ^ 13
    (¬quiet → exec (.mvSig a n amt scope) s = .next s) ∧
    (quiet → 512 ≤ v → stops (.mvSig a n amt scope) illegal) ∧
    (quiet → v < 512 → s.ownSem e.r.lid v n.toNat = none → stops (.mvSig a n amt scope) foreign) ∧
    (∀ tk, quiet → v < 512 → s.ownSem e.r.lid v n.toNat = some tk → exec (.mvSig a n amt scope) s =
      .next ((s.setRun e.id (step e.r)).signal v tk n.toNat amt.toNat (decide (scope = 3)))) ∧
    (512 ≤ v ∨ (v = e.id ∧ e.e.issue < m) → stops (.mvTw a b) illegal) ∧
    (v < 512 → (v = e.id → m ≤ e.e.issue) →
      (m ≤ (s.eng v).retire → exec (.mvTw a b) s = .next (s.setRun e.id (step e.r))) ∧
      ((s.eng v).retire < m → exec (.mvTw a b) s = .next s)) ∧
    (e.r.semW = .served → exec (.mvTwSem n a b) s = .next (s.setRun e.id (step { e.r with semW := .notQueued }))) ∧
    (e.r.semW = .queued → exec (.mvTwSem n a b) s = .next s) ∧
    (e.r.semW = .notQueued → (512 ≤ v ∨ 2 ^ 32 ≤ m → stops (.mvTwSem n a b) illegal) ∧
      (v < 512 → m < 2 ^ 32 → s.ownSem e.r.lid v n.toNat = none → stops (.mvTwSem n a b) foreign) ∧
      (∀ tk, v < 512 → m < 2 ^ 32 → s.ownSem e.r.lid v n.toNat = some tk →
        exec (.mvTwSem n a b) s = .next (((s.stookStep v (fun c =>
          c.forceWhole v (outerDemander 6 e.id) (fun h => h.signals v tk n.toNat))).setRun e.id { e.r with semW := .queued }
            ).queueWait tk n.toNat (.engine e.id) m)))

/-- The data words, with their block for those that have one and the rows they name (R229, R230). -/
def dataWord (s : State) (e : MoveEnv) (i : Instr) : Option (List Byte × Nat × Bool) :=
  match dataFields i with
  | some w =>
    let blk := s.mem.read (moveLoc (engDie e.id) + w.blk.toNat) 32
    let c := w.src2.toNat + (match i with | .mvGath _ | .mvScat _ => 1 | _ => 0)
    some (blk, if w.rc then (e.r.a.toList.getD c 0).toNat else (blkOf blk).rows, w.after)
  | none =>
    match i with
    | .mvAtom .. | .mvCsum .. | .mvCsumSrc .. | .mvNvm .. => some ([], 1, false)
    | _ => none

/-- A block's fields that every data word with elements checks (R230, R231): its formats are allowed, its rows are whole bytes and
whole blocks, and its pitches are multiples of the element sizes. -/
def blockHolds (b : Blk) (src dst : Nat → Prop) : Prop :=
  1 ≤ b.cols ∧ b.rsv = false ∧ src b.sf.toNat ∧ dst b.df.toNat ∧ b.cols * elemW b.sf % 8 = 0 ∧ b.cols * elemW b.df % 8 = 0 ∧
    (isBlock b.sf = true ∨ isBlock b.df = true → b.cols % 32 = 0) ∧
    b.sp % (max 1 (elemW b.sf / 8) : Nat) = 0 ∧ b.dp % (max 1 (elemW b.df / 8) : Nat) = 0

/-- A move address of a kind between `lo` and `hi` that is a multiple of `n` (R226, R231). -/
def addressHolds (lo hi n : Nat) (v : DWord) : Prop := lo ≤ v.toNat / 2 ^ 62 ∧ v.toNat / 2 ^ 62 ≤ hi ∧ v.toNat % n = 0

/-- R231 and R233 to R238, R240: what the checks of each data word with a block ask of its registers and its block. That an index
list, and the source and pitch of `mv.win`, need no alignment beyond a byte is the model's choice (log 25). -/
def clauseBlockChecksAreThoseOfTheManual : Prop :=
  ∀ (a : Vector DWord 16) (b : Blk) (w : DataWord),
    let r (x : AReg) : DWord := a[x.toNat]'x.isLt
    let es (f : BitVec 4) : Nat := max 1 (elemW f / 8)
    let plain (f : Nat) : Prop := f ≤ 5 ∨ (10 ≤ f ∧ f ≤ 14)
    let lo := b.ex % 2 ^ 32
    let hi := b.ex / 2 ^ 32
    let ends (k : Nat) : Prop := addressHolds k 1 (es b.df) (r w.dst) ∧ addressHolds 0 1 (es b.sf) (r w.src1)
    let packed (f : BitVec 4) : Nat := (b.rows * (b.cols * elemW f / 8) + 15) / 16 * 16
    let asks (i : Instr) (p : Prop) : Prop := dataOk i a b = true ↔ p
    let sides : Prop := (b.sf.toNat = 9 → ((r w.src1).toNat + lo) % 2 = 0) ∧ (b.df.toNat = 9 → ((r w.dst).toNat + hi) % 2 = 0)
    let rows : Prop := blockHolds b plain plain ∧ b.sf = b.df ∧ hi = 0 ∧ b.gs ≤ 2 ∧ ends 0 ∧ addressHolds 0 1 1 (r w.src2)
    asks (.mvCopy w) (blockHolds b (· ≤ 14) (· ≤ 14) ∧ b.sf = b.df ∧ ends 0 ∧ sides ∧ (isBlock b.sf = false → b.ex = 0)) ∧
    asks (.mvCvt w) (blockHolds b (· ≤ 14) (· ≤ 14) ∧ ends 0 ∧ sides ∧ (isBlock b.sf = false → lo = 0) ∧
      (isBlock b.df = false → hi = 0)) ∧
    asks (.mvMcast w) (blockHolds b plain plain ∧ b.sf = b.df ∧ b.ex ≠ 0 ∧ ends 1 ∧ (r w.dst).toNat / 2 ^ 32 % 64 = 0) ∧
    asks (.mvTpose w) (blockHolds b (fun f => f ≤ 4 ∨ (10 ≤ f ∧ f ≤ 13)) (fun _ => True) ∧ b.sf = b.df ∧ b.ex = 0 ∧ ends 0) ∧
    asks (.mvGath w) rows ∧ asks (.mvScat w) rows ∧
    asks (.mvRed w) ((blockHolds b (· ≤ 4) (· ≤ 2) ∨ blockHolds b (fun f => f = 10 ∨ f = 11) (· = 11) ∧ b.sat = false) ∧
      b.ex = 0 ∧ (b.ns ≠ 0 ∨ b.ac = true) ∧ addressHolds 0 1 (es b.df) (r w.dst) ∧ w.src1.toNat + b.ns ≤ 15 ∧
      ∀ k : Fin 16, w.src1.toNat ≤ k.val → k.val ≤ w.src1.toNat + b.ns → addressHolds 0 1 (es b.sf) a[k.val]) ∧
    asks (.mvZip w) (blockHolds b (· ≤ 2) (fun f => f = 9 ∨ f = 14) ∧ b.dp = 0 ∧ b.ex = 0 ∧ ends 0 ∧
      (b.df.toNat = 9 → ((r w.dst).toNat + packed b.df) % 2 = 0)) ∧
    asks (.mvUnzip w) (blockHolds b (fun f => f = 9 ∨ f = 14) (· ≤ 2) ∧ b.sp = 0 ∧ b.ex = 0 ∧ ends 0 ∧
      (b.sf.toNat = 9 → ((r w.src1).toNat + packed b.sf) % 2 = 0)) ∧
    asks (.mvWin w) (b.rsv = false ∧ b.cols = 0 ∧ b.sf = 0 ∧ b.df = 0 ∧ b.dp = 0 ∧ b.ex = 0 ∧ addressHolds 0 0 1 (r w.src1) ∧
      (r w.dst).toNat < 2 ^ 19 ∧ (r w.dst).toNat / 2 ^ 9 % 2 ^ 7 = 0)

/-- R239 to R242: what the checks of the data words without a block ask, and those of `mv.win` that its windrow decides. -/
def clauseOtherIssueChecksAreThoseOfTheManual : Prop :=
  ∀ (s : State) (id lid : Nat) (a : Vector DWord 16) (last : Option Nat) (d x y : AReg) (op : BitVec 4) (ty : BitVec 2)
    (ret dir : Bool) (qp : BitVec 16) (w : DataWord),
    let r (x : AReg) : DWord := a[x.toNat]'x.isLt
    let asks (i : Instr) (p : Prop) : Prop := s.issueOk id lid a last i = true ↔ p
    let covered (i : Instr) : Prop := match i with
      | .mvCopy _ | .mvGath _ | .mvScat _ | .mvTpose _ | .mvCvt _ | .mvRed _ | .mvMcast _ | .mvZip _ | .mvUnzip _ => True
      | _ => False
    let sum : Prop := addressHolds 0 1 4 (r d) ∧
      ∃ n c, last = some n ∧ (s.eng id).cmds.find? (fun c => c.num = n) = some c ∧ covered c.op
    let at_ := winAt (r w.dst)
    let win := (s.core at_.1).windrows[at_.2.val]
    asks (.mvAtom d x y op ty ret) (op.toNat ≤ 9 ∧ ty.toNat ≤ 2 ∧
      (ty.toNat = 2 → op.toNat = 0 ∨ op.toNat = 1 ∨ op.toNat = 2 ∨ op.toNat = 8 ∨ op.toNat = 9) ∧
      addressHolds 0 0 (if ty.toNat = 1 then 8 else 4) (r d)) ∧
    asks (.mvCsum d) sum ∧ asks (.mvCsumSrc d) sum ∧
    asks (.mvNvm d x y qp dir) (addressHolds 0 0 4096 (r d) ∧ 1 ≤ (r y).toNat ∧ (r y).toNat ≤ 65536 ∧
      s.pairSt (s.lidCtx lid) qp.toNat = 2) ∧
    asks (.mvWin w) (win.en = true ∧ win.base.toNat % 64 = 0 ∧
      ∀ e n, win.served = some (e, n) → ∀ c ∈ (s.eng e).cmds, c.num = n → c.st.gone = true)

/-- A data word whose checks hold (R229, R231, R233 to R242). -/
def dataChecks (s : State) (e : MoveEnv) (i : Instr) (blk : List Byte) (rows : Nat) : Prop :=
  s.issueOk e.id e.r.lid e.r.a e.r.last i = true ∧
  ∀ w, dataFields i = some w → w.blk.toNat % 32 = 0 ∧ dataOk i e.r.a { blkOf blk with rows := rows } = true ∧
    (w.rc = true → rows < 2 ^ 24 ∧
      w.src2.toNat + (match i with | .mvGath _ | .mvScat _ => 1 | _ => 0) ≤ 15)

/-- R222, R224, R229 to R231: a data word stalls while eight commands of its engine are unretired, and then until the retire
counter advances; a failed check ends the run with status 0x03; otherwise the command takes the engine's next number, with the
registers and the block as they stand, and the run goes on. A command of no rows retires at once and does nothing else. -/
def clauseDataWordsIssueACommand : Prop :=
  ∀ (s : State) (e : MoveEnv) (i : Instr) (blk : List Byte) (rows : Nat) (after : Bool), s.moveEnv = some e →
    e.r.atomW = none → dataWord s e i = some (blk, rows, after) →
    let busy := (e.e.cmds.filter (fun c => !c.st.gone)).length
    let stuck := e.r.stuck
    (8 ≤ busy ∨ stuck = some e.e.retire → exec i s = .next (s.setRun e.id { e.r with stuck := some (stuck.getD e.e.retire) })) ∧
    (busy < 8 → stuck ≠ some e.e.retire → ¬dataChecks s e i blk rows → ∀ k, s.kernels.get? e.r.lid = some k → k.st.live = true → k.fl.fk = 0 →
      ∃ t, exec i s = .next t ∧ moveRecord e.r.lid { eng := e.id, pc := e.r.pc.truncate 20, num := 0
                                                     status := BitVec.ofNat 32 (3 + e.r.pc.toNat / 8 % 2 ^ 17 * 2 ^ 13)
                                                     nres := 0, info := 0 } t) ∧
    (busy < 8 → stuck ≠ some e.e.retire → dataChecks s e i blk rows →
      ∃ t r, exec i s = .next t ∧ t.mem = s.mem ∧ (t.eng e.id).issue = e.e.issue + 1 ∧ (t.eng e.id).run = some r ∧
        r.pc = e.r.pc + 8 ∧ r.last = some (e.e.issue + 1) ∧ r.a = e.r.a ∧ r.ended = e.r.ended ∧ r.stuck = none ∧
        (rows = 0 → t.cores = s.cores ∧ t.kernels = s.kernels ∧ (∀ d ∈ (t.eng e.id).cmds, d.st.gone = false → d ∈ e.e.cmds) ∧
          (∀ d ∈ (t.eng e.id).cmds, d ∉ e.e.cmds → d.num = e.e.issue + 1 ∧ d.st = .retired ∧ d.status = 0) ∧
          ((∀ d ∈ e.e.cmds, d.st.gone = true) → e.e.retire ≤ e.e.issue → (t.eng e.id).retire = e.e.issue + 1)) ∧
        (rows ≠ 0 → (∀ d ∈ e.e.cmds, d.num ≠ e.e.issue + 1) → ∃ c, (t.eng e.id).cmds.find? (fun d => d.num = e.e.issue + 1) =
          some c ∧ c.op = i ∧ c.a = e.r.a ∧ c.blk = blk ∧ c.rows = rows ∧ c.st = .issued ∧ c.after = after ∧
          c.lid = e.r.lid ∧ c.pc = e.r.pc.truncate 20 ∧ c.bmp = 0 ∧ c.slots = []) ∧
        (∀ d x y op ty, i = .mvAtom d x y op ty true → r.atomW = some (e.e.issue + 1, y)) ∧
        (∀ w, i = .mvWin w → rows ≠ 0 → ∀ c n, winAt (e.r.a[w.dst.toNat]'w.dst.isLt) = (c, n) →
          (t.core c).windrows[n.val].served = some (e.id, e.e.issue + 1)))

/-- R222 to R228, R239, R243 to R247: the words of a move program that the engine performs itself. -/
def Obligations.MoveProgramsRunTheirWords : Prop :=
  clauseMoveScalarWordsActOnTheRun ∧ clauseMoveJumpFlags ∧ clauseMoveFencesAndTraps ∧ clauseMoveSignalsAndWaits

/-- R161, R181, R222, R223, `xfer`: at the head of its queue it waits for its semaphore, if it has one; once served it starts
a run on the engine that it names, or on a free one of the near transfer die, and leaves the queue; while there is none
it stays. -/
def clauseTransferWordsStartARun : Prop :=
  ∀ (s : State) (c : Nat) (q : Queued) (h : TileHdr) (a b d : DWord), s.queueEnv true = some (c, q) →
    let i := Instr.xfer h a b d
    let die := nearDie c
    let started (t : State) (id : Nat) : Prop := exec i s = .next t ∧ (t.core c).xq = (s.core c).xq.tail ∧ t.mem = s.mem ∧
      ∃ r, (t.eng id).run = some r ∧ r.lid = q.lid ∧ r.core = c ∧ r.team = q.team ∧ r.hdr = h ∧ r.pc.toNat = a.toNat % 2 ^ 20 ∧
        r.a[0] = BitVec.ofNat 64 (c + id * 2 ^ 16 + q.cmdNo.toNat * 2 ^ 32) ∧ r.a[1] = b ∧ r.a[2] = d ∧
        (∀ j (hj : j < 16), 3 ≤ j → r.a[j] = 0) ∧ r.n = Vector.replicate 6 0 ∧ r.ended = false ∧ r.status = 0 ∧
        (t.eng id).issue = (s.eng id).issue ∧ (t.eng id).retire = (s.eng id).retire
    (q.wait = .notQueued → (wordHdr q.word).waitEn = false →
      ∃ t, exec i s = .next t ∧ (t.core c).xq = { q with wait := .served } :: (s.core c).xq.tail ∧ t.mem = s.mem) ∧
    (q.wait = .queued → exec i s = .next s) ∧
    (q.wait = .served → a.toNat / 2 ^ 20 % 2 = 1 →
      let id := die * 128 + a.toNat / 2 ^ 21 % 128
      ((s.eng id).run = none → ∃ t, started t id) ∧ ((s.eng id).run ≠ none → exec i s = .next s)) ∧
    (q.wait = .served → a.toNat / 2 ^ 20 % 2 = 0 →
      ((∃ n, n < 128 ∧ (s.eng (die * 128 + n)).run = none) → ∃ n t, n < 128 ∧ (s.eng (die * 128 + n)).run = none ∧
        started t (die * 128 + n)) ∧
      ((∀ n, n < 128 → (s.eng (die * 128 + n)).run ≠ none) → exec i s = .next s))

/-- The fourteen data words of a move program (R229, R233 to R242). -/
def isDataWord : Instr → Prop
  | .mvCopy _ | .mvGath _ | .mvScat _ | .mvTpose _ | .mvCvt _ | .mvRed _ | .mvMcast _ | .mvWin _ | .mvZip _ | .mvUnzip _ => True
  | .mvAtom .. | .mvCsum _ | .mvCsumSrc _ | .mvNvm .. => True
  | _ => False

/-- R222, R224 and R229: each of the fourteen data words, on an engine that does not stall, with fewer than eight unretired
commands and its checks met, issues its command and the run goes on to the next word. -/
def clauseEveryDataWordCompletes : Prop :=
  ∀ (s : State) (e : MoveEnv) (i : Instr), s.moveEnv = some e → e.r.atomW = none → isDataWord i →
    (e.e.cmds.filter (fun c => !c.st.gone)).length < 8 → e.r.stuck ≠ some e.e.retire →
    (∃ blk rows after, dataWord s e i = some (blk, rows, after) ∧ dataChecks s e i blk rows) →
    ∃ t r, exec i s = .next t ∧ (t.eng e.id).issue = e.e.issue + 1 ∧ (t.eng e.id).run = some r ∧ r.pc = e.r.pc + 8

/-- R161, R181, R222 to R225, R229 to R242: `xfer` starts a run, and its data words issue commands. -/
def Obligations.MoveCommandsAreIssued : Prop :=
  clauseDataWordsIssueACommand ∧ clauseEveryDataWordCompletes ∧ clauseBlockChecksAreThoseOfTheManual ∧
    clauseOtherIssueChecksAreThoseOfTheManual ∧ clauseQueueHeadsQueueTheirWait ∧
    clauseTransferWordsStartARun

/-! ## The elements and the life of move commands (R232 to R260, R285 to R289, R373, R374) -/

/-- The bytes that an access reads: those of its pieces, or the code of an element narrower than a byte. -/
def accBytes (m : Mem) (q : Acc × List Piece) : List Byte :=
  let bs := q.2.flatMap (fun p => (List.range p.n).map (fun j => m.get (p.loc + j)))
  if q.1.w = 0 then bs else [BitVec.ofNat 8 (leNat bs / 2 ^ q.1.bit % 2 ^ q.1.w)]

/-- A record of bytes by address, with a run of bytes added. -/
def recorded (old new : Tbl Byte) (a : Nat) (bs : List Byte) : Prop :=
  ∀ z, new.get? z = if a ≤ z ∧ z < a + bs.length then bs[z - a]? else old.get? z

/-- The element commands: a data word whose boxes perform one element at a time (R249). -/
def elementWord : Instr → Prop
  | .mvCopy _ | .mvCvt _ | .mvZip _ | .mvUnzip _ | .mvTpose _ | .mvMcast _ | .mvGath _ | .mvRed _ | .mvAtom .. => True
  | _ => False

/-- R249 and R251: an attempt at an element makes every access in order only when all of them resolve and none must wait for
an earlier command; then each target holds what the element computes from the bytes read, and no other byte changes. The
element counts once in its box, and its flags are the command's. The bytes read and written are on the command's record, by
their move addresses (R241). -/
def clauseMoveElementsWriteWhatTheyCompute : Prop :=
  ∀ (s s1 s2 : State) (id num box g : Nat) (c : Cmd) (b : BoxSlot) (rs : List (Acc × List Piece)),
    s.cur = .box id num box 1 → (s.eng id).cmd num = some c → elementWord c.op → c.st = .active → c.ue = none →
    c.slot box = some b → (∀ x ∈ s.contribs, ¬(x.eng = id ∧ x.num = num ∧ x.accepted = false)) →
    let m : Mover := { id := id, c := c, box := box }
    let u := c.boxLo box + b.cur / c.perUnit
    let p := c.plan u (b.cur % c.perUnit) g
    s.readIndex m u = (s1, .ok g) → s1.resolveAll m (p.srcs ++ p.old.toList ++ p.dsts) [] = (s2, .ok rs) →
    s2.mustWait m rs = false → s2.mem.wf = true →
    (∀ q ∈ rs, ∀ x ∈ q.2, x.far = false ∧ ∀ y, x.loc ≤ y → y < x.loc + x.n → s2.isLive y = true) →
    (∀ k, s2.kernels.get? c.lid = some k → k.rb = false) →
    let srcs := rs.take p.srcs.length
    let olds := (rs.drop p.srcs.length).take p.old.toList.length
    let dsts := rs.drop (p.srcs.length + p.old.toList.length)
    let out := p.out (srcs.map (accBytes s2.mem)) (olds.flatMap (accBytes s2.mem))
    ∃ t c', exec c.op s = .next t ∧
      (∀ z, (∀ q ∈ dsts, ∀ x ∈ q.2, ¬(x.loc ≤ z ∧ z < x.loc + x.n)) → t.mem.get z = s2.mem.get z) ∧
      (∀ (k : Nat) (a : Acc) (x : Piece) (bs : List Byte), dsts[k]? = some (a, [x]) → out.1[k]? = some bs →
        (∀ q ∈ dsts.take k ++ dsts.drop (k + 1), ∀ y ∈ q.2, y.loc + y.n ≤ x.loc ∨ x.loc + x.n ≤ y.loc) →
        (a.w = 0 → bs.length = x.n → ∀ j (h : j < bs.length), t.mem.get (x.loc + j) = bs[j]) ∧
        (a.w ≠ 0 → a.bit + a.w ≤ 8 → x.n = 1 → ∀ n, n < 8 → (t.mem.get x.loc).getLsbD n =
          if a.bit ≤ n ∧ n < a.bit + a.w then (leNat bs).testBit (n - a.bit) else (s2.mem.get x.loc).getLsbD n)) ∧
      (t.eng id).cmd num = some c' ∧ c'.flags = c.flags ||| out.2 ∧ c'.st = .active ∧
      (∀ a x, dsts = [(a, [x])] → recorded c.wrote c'.wrote a.mva.toNat ((List.range x.n).map (fun i => t.mem.get (x.loc + i)))) ∧
      (∀ a x, srcs = [(a, [x])] → recorded c.readB c'.readB a.mva.toNat ((List.range x.n).map (fun i => s2.mem.get (x.loc + i)))) ∧
      (c.boxLen box ≤ b.cur + 1 → c'.bmp.getLsbD box = true ∧ ∀ x ∈ c'.slots, x.box ≠ box) ∧
      (b.cur + 1 < c.boxLen box → ∃ x ∈ c'.slots, x.box = box ∧ x.cur = b.cur + 1)

/-- R232 to R239: where the elements of each command lie and what they hold, for formats without blocks; the offset of row r
is r times the pitch, and the packed side of `mv.zip` and `mv.unzip` has rows without gaps. That an entry of `mv.scat` at or
beyond the limit reads no source row is the model's choice (log 25). -/
def clauseMoveElementsFollowTheirTables : Prop :=
  ∀ (c : Cmd) (u j g : Nat) (w : DataWord), let b := c.bk
    let ad (r : AReg) (off : Int) : DWord := BitVec.ofInt 64 (((c.reg r).toNat : Int) + off)
    let col (f : BitVec 4) (k : Nat) : Int := ((k * elemW f / 8 : Nat) : Int)
    let p := c.plan u j g
    let src : List DWord := p.srcs.map Acc.mva
    let dst : List DWord := p.dsts.map Acc.mva
    let out (bs : List Byte) : List (List Byte) := (p.out [bs] []).1
    let conv (sat : Bool) (bs : List Byte) : Rnd := convElem b.sf b.df .rne sat (0x7F, 0) (leNat bs)
    let code (v : Nat) : List Byte := leBytes (max 1 (elemW b.df / 8)) v
    isBlock b.sf = false → isBlock b.df = false →
    (c.op = .mvCopy w → src = [ad w.src1 (u * b.sp + col b.sf j)] ∧ dst = [ad w.dst (u * b.dp + col b.df j)] ∧
      ∀ bs, out bs = [bs]) ∧
    (c.op = .mvCvt w → src = [ad w.src1 (u * b.sp + col b.sf j)] ∧ dst = [ad w.dst (u * b.dp + col b.df j)] ∧
      ∀ bs, out bs = [code (conv b.sat bs).code] ∧ (p.out [bs] []).2 = (conv b.sat bs).fl) ∧
    (c.op = .mvZip w → src = [ad w.src1 (u * b.sp + col b.sf j)] ∧
      dst = [ad w.dst ((u * (b.cols * elemW b.df / 8) : Nat) + col b.df j)] ∧ ∀ bs, out bs = [code (conv b.sat bs).code]) ∧
    (c.op = .mvUnzip w → src = [ad w.src1 ((u * (b.cols * elemW b.sf / 8) : Nat) + col b.sf j)] ∧
      dst = [ad w.dst (u * b.dp + col b.df j)] ∧ ∀ bs, out bs = [code (conv false bs).code]) ∧
    (c.op = .mvTpose w → src = [ad w.src1 (u * b.sp + col b.sf j)] ∧ dst = [ad w.dst (j * b.dp + col b.df u)] ∧
      ∀ bs, out bs = [bs]) ∧
    (c.op = .mvMcast w → src = [ad w.src1 (u * b.sp + col b.sf j)] ∧
      dst = ((List.range 64).filter (fun k => b.ex.testBit k)).map (fun k =>
        BitVec.ofInt 64 ((((c.reg w.dst + BitVec.ofNat 64 (k * 2 ^ 32)).toNat : Int) + (u * b.dp + col b.df j)))) ∧
      ∀ bs, ∀ x ∈ out bs, x = bs) ∧
    (c.op = .mvGath w → let k := g * 2 ^ b.gs + j / b.cols
      dst = [ad w.dst ((u * 2 ^ b.gs + j / b.cols : Nat) * b.dp + col b.df (j % b.cols))] ∧
      (k < b.ex % 2 ^ 32 → src = [ad w.src1 (k * b.sp + col b.sf (j % b.cols))] ∧ ∀ bs, out bs = [bs]) ∧
      (b.ex % 2 ^ 32 ≤ k → src = [] ∧ (p.out [] []).1 = [code 0])) ∧
    (c.op = .mvScat w → let k := g * 2 ^ b.gs + j / b.cols
      (k < b.ex % 2 ^ 32 → src = [ad w.src1 ((u * 2 ^ b.gs + j / b.cols : Nat) * b.sp + col b.sf (j % b.cols))] ∧
        dst = [ad w.dst (k * b.dp + col b.df (j % b.cols))]) ∧ (b.ex % 2 ^ 32 ≤ k → src = [] ∧ dst = [])) ∧
    (c.op = .mvRed w → src = (List.range (b.ns + 1)).map (fun i =>
        BitVec.ofInt 64 ((((c.a.toList.getD (w.src1.toNat + i) 0).toNat : Int) + (u * b.sp + col b.sf j)))) ∧
      dst = [ad w.dst (u * b.dp + col b.df j)] ∧ p.old.isSome = b.ac ∧
      (∀ wd sg, ifmt b.sf = some (wd, sg) → ∀ xs old, (p.out xs old).1 = [code (((xs.map (fun x => intOf wd sg (leNat x))).sum +
        (if b.ac then intOf 32 true (leNat old) else 0)) % 2 ^ 32).toNat])) ∧
    (∀ d x y op ty ret, c.op = .mvAtom d x y op ty ret → ty.toNat < 2 → op.toNat < 10 →
      let wd := if ty = 1 then 64 else 32
      let sg (v : Nat) : Int := if v < 2 ^ (wd - 1) then v else (v : Int) - 2 ^ wd
      ∀ old, old.length = wd / 8 →
        let v := leNat old
        let z := (c.reg x).toNat % 2 ^ wd
        dst = [c.reg d] ∧ p.old.isSome = true ∧ (p.out [] old).2 = 0 ∧
        (p.out [] old).1 = [leBytes (wd / 8) (if op = 0 then (v + z) % 2 ^ wd else if op = 1 then (if sg z < sg v then z else v)
          else if op = 2 then (if sg v < sg z then z else v) else if op = 3 then min v z else if op = 4 then max v z
          else if op = 5 then v &&& z else if op = 6 then v ||| z else if op = 7 then v ^^^ z else if op = 8 then z
          else if v = (c.reg y).toNat % 2 ^ wd then z else v)])

/-- R32, R43 to R46, R232, R233, R235 and R238: the elements of the commands that have a block format. A target in one is written
32 elements of a row and their side entry at a time, a source in one is read an element at a time with its block's entry, and
`mv.copy` moves both as they are; the side array of block q of row u is at its base plus (u × blocks of a row + q) entries. -/
def clauseBlockElementsFollowTheirTables : Prop :=
  ∀ (c : Cmd) (u j g : Nat) (w : DataWord), let b := c.bk
    let ad (r : AReg) (off : Int) : DWord := BitVec.ofInt 64 (((c.reg r).toNat : Int) + off)
    let col (f : BitVec 4) (k : Nat) : Int := ((k * elemW f / 8 : Nat) : Int)
    let lo : Int := ((b.ex % 2 ^ 32 : Nat) : Int)
    let hi : Int := ((b.ex / 2 ^ 32 : Nat) : Int)
    let at_ (f : BitVec 4) (q : Nat) : Int := ((u * (b.cols / 32) * sideBytes f + q * sideBytes f : Nat) : Int)
    let packed (f : BitVec 4) : Int := ((u * (b.cols * elemW f / 8) : Nat) : Int)
    let after (f : BitVec 4) : Int := (((b.rows * (b.cols * elemW f / 8) + 15) / 16 * 16 : Nat) : Int)
    let p := c.plan u j g
    let reads (xs : List (DWord × Nat)) : Prop := p.srcs.map (fun a => (a.mva, a.n)) = xs ∧ p.old = none
    let writes (xs : List (DWord × Nat)) : Prop := p.dsts.map (fun a => (a.mva, a.n)) = xs
    let block (f : BitVec 4) : Nat := 32 * elemW f / 8
    let one (f : BitVec 4) : Nat := max 1 (elemW f / 8)
    let side (f : BitVec 4) (bs : List Byte) : Nat × Nat := ((bs.headD 0).toNat, if f = fYF4 then ((bs.drop 1).headD 0).toNat else 0)
    let single (sat : Bool) : Prop := ∀ x y : List Byte, y.length = sideBytes b.sf →
      let r := convElem b.sf b.df .rne sat (side b.sf y) (leNat x)
      p.out [x, y] [] = ([leBytes (one b.df) r.code], r.fl)
    let whole (xs : List (List Byte)) (x : List Byte) (sd : Nat × Nat) : Prop := x.length = block b.sf →
      let r := encodeBlock b.df .rne ((List.range 32).map (fun i =>
        valueOf b.sf sd (leNat x / 2 ^ (i * elemW b.sf) % 2 ^ elemW b.sf)))
      ∃ ys, p.out xs [] = ([ys, BitVec.ofNat 8 r.scale :: (if b.df = fYF4 then [BitVec.ofNat 8 r.spare] else [])], r.fl) ∧
        ys.length = block b.df ∧ ∀ i, i < 32 → leNat ys / 2 ^ (i * elemW b.df) % 2 ^ elemW b.df =
          (r.codes[i]?.getD 0) % 2 ^ elemW b.df
    (c.op = .mvCopy w → isBlock b.sf = true → b.df = b.sf →
      reads [(ad w.src1 (u * b.sp + col b.sf (j * 32)), block b.sf), (ad w.src1 (lo + at_ b.sf j), sideBytes b.sf)] ∧
      writes [(ad w.dst (u * b.dp + col b.df (j * 32)), block b.df), (ad w.dst (hi + at_ b.df j), sideBytes b.df)] ∧
      ∀ x y, p.out [x, y] [] = ([x, y], 0)) ∧
    (c.op = .mvCvt w → isBlock b.sf = true → isBlock b.df = false →
      reads [(ad w.src1 (u * b.sp + col b.sf j), one b.sf), (ad w.src1 (lo + at_ b.sf (j / 32)), sideBytes b.sf)] ∧
      writes [(ad w.dst (u * b.dp + col b.df j), one b.df)] ∧ single b.sat) ∧
    (c.op = .mvCvt w → isBlock b.df = true →
      writes [(ad w.dst (u * b.dp + col b.df (j * 32)), block b.df), (ad w.dst (hi + at_ b.df j), sideBytes b.df)] ∧
      (isBlock b.sf = false → reads [(ad w.src1 (u * b.sp + col b.sf (j * 32)), block b.sf)] ∧ ∀ x, whole [x] x (0x7F, 0)) ∧
      (isBlock b.sf = true →
        reads [(ad w.src1 (u * b.sp + col b.sf (j * 32)), block b.sf), (ad w.src1 (lo + at_ b.sf j), sideBytes b.sf)] ∧
        ∀ x y, y.length = sideBytes b.sf → whole [x, y] x (side b.sf y))) ∧
    (c.op = .mvZip w → isBlock b.sf = false → isBlock b.df = true →
      reads [(ad w.src1 (u * b.sp + col b.sf (j * 32)), block b.sf)] ∧
      writes [(ad w.dst (packed b.df + col b.df (j * 32)), block b.df), (ad w.dst (after b.df + at_ b.df j), sideBytes b.df)] ∧
      ∀ x, whole [x] x (0x7F, 0)) ∧
    (c.op = .mvUnzip w → isBlock b.sf = true → isBlock b.df = false →
      reads [(ad w.src1 (packed b.sf + col b.sf j), one b.sf), (ad w.src1 (after b.sf + at_ b.sf (j / 32)), sideBytes b.sf)] ∧
      writes [(ad w.dst (u * b.dp + col b.df j), one b.df)] ∧ single false)

/-- R52, R237 and R239: every addition of a reduction is rounded once, to FP32 by RNE; four sources form
((a + b) + (c + d)), three ((a + b) + c), two (a + b), then the old value is added where the command accumulates, and the
result is rounded to the destination's format. An FP32 atomic adds the same way, and its minimum and maximum are
those of R51. -/
def clauseReductionsRoundEachAddition : Prop :=
  let F : FFmt := ⟨8, 23, 127, .ieee⟩
  (∀ (x y : Machine.Num × Flags) (a b : ℚ), hasValue x.1 a → hasValue y.1 b →
    (a + b ≠ 0 → ∃ r, correct fFP32 F .rne false (decide (a + b < 0)) |a + b| r ∧
      addFP32 x y = (decodeE fFP32 r.code, x.2 ||| y.2 ||| r.fl)) ∧
    (a + b = 0 → hasValue (addFP32 x y).1 0 ∧ (addFP32 x y).1.neg = (x.1.neg && y.1.neg) ∧ (addFP32 x y).2 = x.2 ||| y.2)) ∧
  (∀ (sf df : BitVec 4) (sat : Bool) (a b c d : Nat) (old : Option Nat), ifmt sf = none →
    let v (k : Nat) : Machine.Num × Flags := (decodeE sf k, 0)
    let ends (y : Machine.Num × Flags) : Rnd :=
      let z := match old with | some o => addFP32 y (decodeE df o, 0) | none => y
      let r := roundTo df .rne sat z.1
      ⟨r.code, z.2 ||| r.fl⟩
    redOut sf df sat [a, b, c, d] old = ends (addFP32 (addFP32 (v a) (v b)) (addFP32 (v c) (v d))) ∧
    redOut sf df sat [a, b, c] old = ends (addFP32 (addFP32 (v a) (v b)) (v c)) ∧
    redOut sf df sat [a, b] old = ends (addFP32 (v a) (v b)) ∧ redOut sf df sat [a] old = ends (v a)) ∧
  (∀ (c : Cmd) (u j g : Nat) (w : DataWord) (xs : List (List Byte)) (old : List Byte), c.op = .mvRed w →
    let r := redOut c.bk.sf c.bk.df c.bk.sat (xs.map leNat) (if c.bk.ac then some (leNat old) else none)
    (c.plan u j g).out xs old = ([leBytes (max 1 (elemW c.bk.df / 8)) r.code], r.fl)) ∧
  ∀ (c : Cmd) (d x y : AReg) (op : BitVec 4) (ret : Bool) (u j g : Nat) (old : List Byte), c.op = .mvAtom d x y op 2 ret →
    old.length = 4 →
    let o := leNat old
    let z := (c.reg x).toNat % 2 ^ 32
    let gives (v : Nat) (fl : Flags) : Prop := ((c.plan u j g).out [] old) = ([leBytes 4 v], fl)
    let p := decodeE fFP32 o
    let q := decodeE fFP32 z
    (op = 8 → gives z 0) ∧ (op = 9 → gives (if o = (c.reg y).toNat % 2 ^ 32 then z else o) 0) ∧
    (∀ a b, op = 0 → hasValue p a → hasValue q b →
      (a + b ≠ 0 → ∃ r, correct fFP32 F .rne false (decide (a + b < 0)) |a + b| r ∧ gives r.code r.fl) ∧
      (a + b = 0 → gives (if p.neg && q.neg then 0x80000000 else 0) 0)) ∧
    (∀ a b, hasValue p a → hasValue q b →
      (op = 1 → gives (if b < a ∨ a = b ∧ q.neg = true then z else o) 0) ∧
      (op = 2 → gives (if a < b ∨ a = b ∧ q.neg = false then z else o) 0)) ∧
    ((∀ n, op = 0 → p = .inf n → q = .inf (!n) → gives 0x7FC00000 fNV) ∧
      (∀ n, op = 0 → p = .inf n → (q = .inf n ∨ ∃ b, hasValue q b) → gives o 0) ∧
      (∀ n, op = 0 → q = .inf n → (∃ a, hasValue p a) → gives z 0)) ∧
    (p.isNaN = true ∨ q.isNaN = true →
      let sig : Flags := if p = .nan true ∨ q = .nan true then fNV else 0
      (op = 0 → gives 0x7FC00000 sig) ∧
      (op = 1 ∨ op = 2 → gives (if q.isNaN = false then z else if p.isNaN = false then o else 0x7FC00000) sig))

/-- A box of a command that has passed an element: the box is complete after its last, and else stands at the next. -/
def passedElement (c : Cmd) (b : BoxSlot) (c' : Cmd) : Prop :=
  (c.boxLen b.box ≤ b.cur + 1 → c'.bmp = c.bmp ||| (1#64 <<< b.box) ∧ ∀ x ∈ c'.slots, x.box ≠ b.box) ∧
  (b.cur + 1 < c.boxLen b.box → ∃ x ∈ c'.slots, x = { b with cur := b.cur + 1 })

/-- R249 and R250: a box of `mv.scat` first reads each of its elements, and saves its row and its code; then it writes each at
the place that the saved row names, and no other byte changes. -/
def clauseScattersReadAndThenWrite : Prop :=
  ∀ (s : State) (id num box : Nat) (c : Cmd) (b : BoxSlot) (w : DataWord),
    s.cur = .box id num box 1 → (s.eng id).cmd num = some c → c.num = num → c.op = .mvScat w → c.st = .active → c.ue = none →
    c.slot box = some b → b.box = box →
    let m : Mover := { id := id, c := c, box := box }
    let u := c.boxLo box + b.cur / c.perUnit
    let j := b.cur % c.perUnit
    (∀ s1 s2 g rs, b.ph = false → s.readIndex m u = (s1, .ok g) → s1.resolveAll m (c.plan u j g).srcs [] = (s2, .ok rs) →
      s2.mustWait m rs = false → (∀ q ∈ rs, ∀ x ∈ q.2, x.far = false) → s2.mem.wf = true →
      ∃ t c', exec c.op s = .next t ∧ t.mem = s2.mem ∧ (t.eng id).cmd num = some c' ∧ c'.st = .active ∧
        let saved := b.saved ++ [(g * 2 ^ c.bk.gs + j / c.bk.cols, rs.flatMap (accBytes s2.mem))]
        (c.boxLen box ≤ b.cur + 1 → ∃ x ∈ c'.slots, x = { b with ph := true, cur := 0, saved := saved }) ∧
        (b.cur + 1 < c.boxLen box → ∃ x ∈ c'.slots, x = { b with cur := b.cur + 1, saved := saved })) ∧
    (∀ k, b.ph = true → b.saved[b.cur]? = some (k, []) →
      ∃ t c', exec c.op s = .next t ∧ t.mem = s.mem ∧ (t.eng id).cmd num = some c' ∧ passedElement c b c') ∧
    ∀ s2 k bs a x, b.ph = true → b.saved[b.cur]? = some (k, bs) → bs ≠ [] →
      (c.plan u (k % 2 ^ c.bk.gs * c.bk.cols + j % c.bk.cols) (k / 2 ^ c.bk.gs)).dsts = [a] →
      s.resolveAll m [a] [] = (s2, .ok [(a, [x])]) → s2.mustWait m [(a, [x])] = false → x.far = false → s2.mem.wf = true →
      (∀ y, x.loc ≤ y → y < x.loc + x.n → s2.isLive y = true) → (∀ k, s2.kernels.get? c.lid = some k → k.rb = false) →
      ∃ t c', exec c.op s = .next t ∧ sameOutside s2 t x.loc x.n ∧ (t.eng id).cmd num = some c' ∧ passedElement c b c' ∧
        recorded c.wrote c'.wrote a.mva.toNat ((List.range x.n).map (fun i => t.mem.get (x.loc + i))) ∧
        (a.w = 0 → bs.length = x.n → ∀ i (h : i < bs.length), t.mem.get (x.loc + i) = bs[i]) ∧
        (a.w ≠ 0 → a.bit + a.w ≤ 8 → x.n = 1 → ∀ n, n < 8 → (t.mem.get x.loc).getLsbD n =
          if a.bit ≤ n ∧ n < a.bit + a.w then (leNat bs).testBit (n - a.bit) else (s2.mem.get x.loc).getLsbD n)

/-- R241: `mv.csum` writes the CRC-32C of the bytes that the command before it has on record, read or written, in ascending order
of their move addresses, as four little-endian bytes; a record stays in that order. -/
def clauseChecksumsCoverTheRecord : Prop :=
  (∀ (t : Tbl Byte) (a : Nat) (bs : List Byte), (t.map (·.1)).Pairwise (· < ·) →
    ((recordBytes t a bs).map (·.1)).Pairwise (· < ·) ∧ recorded t (recordBytes t a bs) a bs) ∧
  ∀ (s s2 : State) (id num : Nat) (c p : Cmd) (b : BoxSlot) (d : AReg) (x : Piece) (src : Bool),
    s.cur = .box id num 0 1 → (s.eng id).cmd num = some c → c.num = num →
    c.op = (if src then .mvCsumSrc d else .mvCsum d) → c.st = .active → c.ue = none → c.slot 0 = some b →
    (s.eng id).cmd (num - 1) = some p →
    let m : Mover := { id := id, c := c, box := 0 }
    let a := bytesAcc (c.reg d) 0 4 false true true
    s.resolveAll m [a] [] = (s2, .ok [(a, [x])]) → s2.mustWait m [(a, [x])] = false → x.n = 4 → x.far = false → s2.mem.wf = true →
    (∀ y, x.loc ≤ y → y < x.loc + 4 → s2.isLive y = true) → (∀ k, s2.kernels.get? c.lid = some k → k.rb = false) →
    ∃ t c', exec c.op s = .next t ∧ sameOutside s2 t x.loc 4 ∧ (t.eng id).cmd num = some c' ∧
      (b.box = 0 → c.boxLen 0 ≤ b.cur + 1 → c'.bmp.getLsbD 0 = true) ∧
      leNat ((List.range 4).map (fun i => t.mem.get (x.loc + i))) =
        (crc32c ((if src then p.readB else p.wrote).map (·.2))).toNat

/-- R242, R249, R272: an active `mv.nvm` first translates its buffer, a granule at a time, and notes where each piece lies; once all
of it is translated and no earlier command holds it back, the request goes to the target with the first block, the count, the
direction, and for a write the bytes of the buffer. Nothing is written. -/
def clauseStorageCommandsSendTheirRequest : Prop :=
  ∀ (s : State) (id num : Nat) (c : Cmd) (b : BoxSlot) (d x y : AReg) (qp : BitVec 16) (dir : Bool),
    s.cur = .box id num 0 1 → (s.eng id).cmd num = some c → c.num = num → c.op = .mvNvm d x y qp dir → c.st = .active → c.ue = none →
    c.slot 0 = some b → b.box = 0 → b.ph = false →
    let m : Mover := { id := id, c := c, box := 0 }
    let base := (c.reg d).toNat % 2 ^ 62
    let ps := nvmPieces c (s.nvmLen c) d
    (∀ va n s2 p, ps[b.saved.length]? = some (va, n) →
      s.resolve m (bytesAcc (c.reg d) ((va - base : Nat) : Int) n dir (!dir) (!dir)) = (s2, .ok [p]) →
      ∃ t c', exec c.op s = .next t ∧ t.mem = s2.mem ∧ t.outbox = s2.outbox ∧ (t.eng id).cmd num = some c' ∧
        ∃ z ∈ c'.slots, z = { b with saved := b.saved ++ [(p.loc, [p.kind.zeroExtend 8])] }) ∧
    (ps.length ≤ b.saved.length →
      let places := s.nvmPlaces b ps
      s.mustWait m [(bytesAcc (c.reg d) 0 (s.nvmLen c) dir (!dir) (!dir), places)] = false →
      (∀ q ∈ places, q.far = false) → s.poison = [] → s.injected = [] → s.mem.wf = true →
      ∃ t c', exec c.op s = .next t ∧ t.mem = s.mem ∧ (t.eng id).cmd num = some c' ∧
        (∃ z ∈ c'.slots, z = { b with ph := true }) ∧
        t.outbox = s.outbox ++ [.nvm (s.lidCtx c.lid) qp.toNat (c.reg x) (c.reg y) dir
          (if dir then places.flatMap (fun q => (List.range q.n).map (fun i => s.mem.get (q.loc + i))) else [])])

/-- R224, R225, R241, R252: an issued command becomes ACTIVE once what it waits for has retired; an ACTIVE command whose boxes
and contributions are complete retires with its flags as status, and the retire counter rises to the greatest number below
which none is unretired. -/
def clauseMoveCommandsStartAndRetire : Prop :=
  ∀ (s : State) (id num : Nat) (c : Cmd), (s.eng id).cmd num = some c →
    let earlier (d : Cmd) : Prop := d ∈ (s.eng id).cmds ∧ d.num < num ∧ d.st.gone = false
    let waits : Prop := match c.op with
      | .mvCsum _ | .mvCsumSrc _ => ∃ d, earlier d ∧ d.num + 1 = num
      | _ => c.after = true ∧ ∃ d, earlier d
    (c.st ≠ .issued ∨ waits → exec (.moveCommandStart id num) s = .next s) ∧
    (c.st = .issued → ¬waits → (∀ w, c.op = .mvWin w → ∃ k, s.kernels.get? c.lid = some k ∧
        k.desc.ownsSem ((s.core (winAt (c.reg w.dst)).1).windrows[(winAt (c.reg w.dst)).2.val]).sem.toNat = true) →
      ∃ t c', exec (.moveCommandStart id num) s = .next t ∧ (t.eng id).cmd num = some c' ∧ c'.st = .active ∧ c'.op = c.op ∧
        t.mem = s.mem) ∧
    (¬(c.st = .active ∧ c.ue = none ∧ s.cmdComplete id c = true) → exec (.moveCommandRetire id num) s = .next s) ∧
    (c.st = .active → c.ue = none → s.cmdComplete id c = true →
      (∀ d ∈ (s.eng id).cmds, d.st.gone = false → (s.eng id).retire < d.num) → (s.eng id).retire ≤ (s.eng id).issue →
      ∃ t, exec (.moveCommandRetire id num) s = .next t ∧ t.mem = s.mem ∧
        (∀ d ∈ (t.eng id).cmds, d.num = num → d.st = .retired ∧ d.status = d.flags.zeroExtend 32 <<< 8) ∧
        (∀ d ∈ (t.eng id).cmds, d.st.gone = false → (t.eng id).retire < d.num) ∧
        ((t.eng id).retire = (s.eng id).issue ∨
          ∃ d ∈ (t.eng id).cmds, d.st.gone = false ∧ d.num = (t.eng id).retire + 1) ∧ (t.eng id).issue = (s.eng id).issue)

/-- R145 and R192: a registration of a range on a core takes a free scoreboard entry when a team of the kernel is there, and
forces the work before it, so that none of it is open on the range, and it is live once none of it is dispatched there; with
no entry free the command is counted once and waits. -/
def clauseScoreboardsRegisterRanges : Prop :=
  ∀ (s : State) (id num core tk : Nat) (c : Cmd) (x : Span), (s.eng id).cmd num = some c → c.st = .active →
    (c.ranges s).filter (fun r => r.1 = core) = [(core, x)] → s.peerCase c.lid core = .served tk →
    (∀ e ∈ (s.core core).sb, ¬(e.2.eng = id ∧ e.2.num = num)) →
    (∀ i, i < 32 → (s.core core).sb.get? i = none → (∀ j, j < i → (s.core core).sb.get? j ≠ none) →
      ∃ t e, exec (.scoreboardRegister id num core) s = .next t ∧ (t.core core).sb.get? i = some e ∧ e.eng = id ∧
        e.num = num ∧ e.lo = x.1 ∧ e.hi = x.2 ∧ e.mark = (s.core core).nextSeq ∧ t.mem = s.mem ∧
        let k := t.core core
        let meets (h : Sheaf) (v : Nat) : Prop := spansMeet (h.foot core v) [x] = true ∨ spansMeet (h.src core v) [x] = true
        (((s.core core).stook.map (·.seq)).Nodup → ∀ h ∈ k.stook, h.seq < e.mark → ∀ v, h.openAt v = true → ¬meets h v) ∧
        (e.live = true ↔ (∀ h ∈ k.stook, h.seq < e.mark → ∀ v, h.dispAt v = true → ¬meets h v) ∧
          (∀ q ∈ k.tq, q.seq < e.mark → spansMeet (q.src core) [x] = false) ∧ t.farHolds core e.mark [x] = false)) ∧
    ((∀ i, i < 32 → (s.core core).sb.get? i ≠ none) → core ∉ c.full →
      ∃ t c', exec (.scoreboardRegister id num core) s = .next t ∧ (t.eng id).cmd num = some c' ∧ c'.full = core :: c.full ∧
        (t.core core).cnt.sbfull = (s.core core).cnt.sbfull + 1 ∧ t.mem = s.mem)

/-- R222, R162 and R182: an ended run whose commands have all retired frees its engine; a run that ended with status 0
signals. -/
def clauseRunsRetireOnceTheirCommandsHave : Prop :=
  ∀ (s : State) (id : Nat) (r : Run), (s.eng id).run = some r →
    (r.ended = false ∨ (∃ c ∈ (s.eng id).cmds, c.st.gone = false) → exec (.moveRunRetire id) s = .next s) ∧
    (r.ended = true → (∀ c ∈ (s.eng id).cmds, c.st.gone = true) →
      ∃ u t : State, exec (.moveRunRetire id) s = .next t ∧ (t.eng id).run = none ∧ (u.eng id).run = none ∧ u.sems = s.sems ∧
        u.kernels = s.kernels ∧ u.mem = s.mem ∧
        t = (if r.status = 0 ∧ r.hdr.sigEn = true ∧ s.liveKernel r.lid = true then
          u.signal r.core r.team r.hdr.sigSem.toNat r.hdr.sigAmt.toNat (decide (r.hdr.scope = 3)) else u).settleKernels)

/-- A move command that ends with a status (R247, R252): its kernel FAILED with its record, or, where the status allows it and
the kernel has the ability, rolling back. -/
def commandEnds (s : State) (i : Instr) (id num : Nat) (c : Cmd) (status : Nat) (info : DWord) (rolls : Bool) : Prop :=
  ∀ k, s.kernels.get? c.lid = some k → k.st.live = true → k.fl.fk = 0 →
    ∃ t, exec i s = .next t ∧
      (k.rb = false ∨ rolls = false → moveRecord c.lid
        { eng := id, pc := c.pc, num := num, status := BitVec.ofNat 32 status ||| (c.flags.zeroExtend 32 <<< 8)
          nres := c.nres, info := info } t) ∧
      (k.rb = true → rolls = true → ∃ k', t.kernels.get? c.lid = some k' ∧ k'.st = .rolling ∧ k'.rbt = true) ∧
      ∀ key st, t.strands.get? key = some st → st.lid = c.lid → st.st = .ended

/-- R257, R265, R370: an uncorrectable error that an active command has met, and an access that no link carries in time, end
the command with status 0x06, whether its access was a read-modify-write, the array, and the box; a kernel with
rollback ability rolls back, any other fails. A timeout gives up what the command has sent to switches and none has accepted. -/
def clauseMoveErrorsEndTheirCommand : Prop :=
  ∀ (s : State) (id num : Nat) (c : Cmd), (s.eng id).cmd num = some c →
    let st (x : Trouble) (arr : Nat) : Nat := 6 + (if x.old then 2 ^ 13 else 0) + arr * 2 ^ 14 + x.box % 64 * 2 ^ 16
    (∀ x, c.ue = some x → c.st = .active →
      commandEnds s (.moveUncorrectableError id num) id num c (st x x.arr.toNat) x.va true) ∧
    (c.ue = none ∨ c.st ≠ .active → exec (.moveUncorrectableError id num) s = .next s) ∧
    (∀ x, c.far = some x → c.st = .active → commandEnds s (.remoteAccessTimeout id num) id num c (st x 3) x.va true) ∧
    (let sent (x : Contribution) : Bool := decide (x.eng = id ∧ x.num = num) && !x.accepted
     (∀ x, c.far = none → s.contribs.find? sent = some x → c.st = .active → commandEnds s (.remoteAccessTimeout id num) id num c
       (6 + 2 ^ 13 + 3 * 2 ^ 14 + x.box % 64 * 2 ^ 16) x.va true) ∧
     (c.far = none → s.contribs.find? sent = none → exec (.remoteAccessTimeout id num) s = .next s)) ∧
    (c.st ≠ .active → exec (.remoteAccessTimeout id num) s = .next { s with contribs := s.contribs.filter (fun x =>
      !decide (x.eng = id ∧ x.num = num) || x.accepted) })

/-- R253 and R288: the event of a suspension, which waits in its die, joins the fault queue of the die, or merges with one of the
same context, code and 64 KiB granule; with 1,024 events queued it waits. Its write bit is that of the access. What has become of
its command meanwhile makes no difference. -/
def clauseSuspensionsPostTheirEvent : Prop :=
  ∀ (s : State) (id num : Nat), let d := s.die (engDie id)
    let mine (f : FaultEvent) : Prop := f.eng = id ∧ f.num = num
    ((∀ f ∈ d.posts, ¬mine f) → exec (.faultEventQueue id num) s = .next s) ∧
    ∀ ps f rest, d.posts = ps ++ f :: rest → (∀ g ∈ ps, ¬mine g) → mine f →
      let same (g : FaultEvent) : Prop := g.ctx = f.ctx ∧ g.code = f.code ∧ g.fva.toNat / 65536 = f.fva.toNat / 65536
      let q := d.faults
      let taken (t : State) : Prop := t.mem = s.mem ∧ (t.die (engDie id)).posts = ps ++ rest ∧
        ∀ c, (s.eng id).cmd num = some c → (∀ g ∈ rest, ¬mine g) → ∃ c', (t.eng id).cmd num = some c' ∧ c' = { c with posted := true }
      ((∀ g ∈ q, ¬same g) → q.length < 1024 → ∃ (t : State) (g : FaultEvent), exec (.faultEventQueue id num) s = .next t ∧
        taken t ∧ (t.die (engDie id)).faults = q ++ [g] ∧ g = { f with behind := g.behind }) ∧
      ((∀ g ∈ q, ¬same g) → 1024 ≤ q.length → exec (.faultEventQueue id num) s = .next s) ∧
      (∀ (k : Nat) (g : FaultEvent), q[k]? = some g → same g → ∃ (t : State) (h : FaultEvent),
        exec (.faultEventQueue id num) s = .next t ∧ taken t ∧ (t.die (engDie id)).faults[k]? = some h ∧
        h = { g with wr := g.wr || f.wr, nmrg := if g.nmrg = 0xFFFFFFFF then g.nmrg else g.nmrg + 1 } ∧
        (t.die (engDie id)).faults.length = q.length)

/-- Two requests of one command. -/
def sameCommand (r q : WalkReq) : Prop := q.eng = r.eng ∧ q.num = r.num

/-- A command that a fault may suspend: ACTIVE, with no error met (R252), no element sent to a switch and not accepted (R255), and
no read values of a scatter to save (R253). -/
def suspendable (s : State) (r : WalkReq) (c : Cmd) : Prop :=
  (s.eng r.eng).cmd r.num = some c ∧ c.st = .active ∧ c.ue = none ∧
    savedBytes { c with slots := c.slots.map (fun b => b.held c) } = 0 ∧
    ∀ x ∈ s.contribs, ¬(x.eng = r.eng ∧ x.num = r.num ∧ x.accepted = false)

/-- The command of a request is suspended with a fault code (R252, R253, R256), its event waiting in the die. -/
def suspendedBy (s t : State) (r : WalkReq) (c : Cmd) (code : BitVec 2) : Prop :=
  (∃ c' st, (t.eng r.eng).cmd r.num = some c' ∧ c'.st = .suspended ∧ c'.posted = false ∧ c'.susp = some (st, r.mva) ∧
    st = BitVec.ofNat 32 (5 + (if r.wbit then 2 ^ 13 else 0) + code.toNat * 2 ^ 14 + r.box % 64 * 2 ^ 16) |||
      (c.flags.zeroExtend 32 <<< 8)) ∧
  ∃ f ∈ (t.die (engDie r.eng)).posts, f = { behind := 0, ctx := s.lidCtx c.lid, code := code, wr := r.wbit, nmrg := 1, fva := r.mva
                                            eng := r.eng, lid := c.lid, num := r.num }

/-- R284 to R286, R253, in a die of which no other walk has finished: a walk that a walker has taken finishes and is counted; the
accesses of which none of the same engine was asked for before have its result. Every such access that its leaf allows finds
the leaf in its engine's TLB and goes on, every other one suspends its command with the fault's code. Where each of its accesses
comes after one of its engine that still waits, the result is kept. A walk that no walker has taken does not finish. That an
uncorrectable error in a table is one that those commands have met (R296), and that of the accesses of one walk each caches or
faults for itself, are the model's choices (logs 25, 13). -/
def clauseWalksFillTheTlbOrSuspend : Prop :=
  ∀ (s s1 : State) (die idx : Nat) (w : Walk) (ue : Option Nat), (s.die die).walks[idx]? = some w → w.out = none →
    let rest := (s.die die).walks.eraseIdx idx
    let e := s.walk die w.ctx w.va
    (w.taken = false → exec (.pageWalkComplete die idx) s = .next s) ∧
    (w.taken = true → (∀ v ∈ rest, v.out = none) → s.walkRead w.ctx e = (s1, ue) →
      (w.req ≠ [] → (∀ r ∈ w.req, ∃ v ∈ rest, ∃ q ∈ v.req, q.eng = r.eng ∧ q.seq < r.seq) →
        ∃ t v, exec (.pageWalkComplete die idx) s = .next t ∧ t.mem = s.mem ∧ (t.die die).twalk = (s.die die).twalk + 1 ∧
          (∀ id, t.eng id = s.eng id) ∧ (t.die die).walks[idx]? = some v ∧ v.req = w.req ∧ v.out = some (e, ue)) ∧
      ((∀ r ∈ w.req, engDie r.eng = die) → (w.req.map (·.seq)).Pairwise (· < ·) →
        (∀ r ∈ w.req, ∀ v ∈ rest, ∀ q ∈ v.req, q.seq ≠ r.seq ∧ (q.eng = r.eng → r.seq < q.seq)) →
        (∀ r ∈ w.req, ∀ c, (s.eng r.eng).cmd r.num = some c → c.st = .active → suspendable s r c) →
        ∃ t, exec (.pageWalkComplete die idx) s = .next t ∧ t.mem = s.mem ∧ (t.die die).twalk = (s.die die).twalk + 1 ∧
          (t.die die).walks.map (fun v => (v.ctx, v.va)) = rest.map (fun v => (v.ctx, v.va)) ∧
          ((w.req.Pairwise (fun r q => ¬sameCommand r q)) → ∀ code, ue = none → e.fin = .fault code →
            (t.die die).tflt = (s.die die).tflt + BitVec.ofNat 32 w.req.length) ∧
          ∀ ls r rs, w.req = ls ++ r :: rs →
            let first : Prop := ∀ q ∈ ls, ¬sameCommand r q
            (∀ l c, ue = some l → (∀ q ∈ rs, ¬sameCommand r q) → suspendable s r c →
              ∃ c', (t.eng r.eng).cmd r.num = some c' ∧ c'.st = .active ∧
                c'.ue = some { va := r.mva, box := r.box, arr := arrCode s1 l, old := false }) ∧
            (∀ code c, ue = none → e.fin = .fault code → first → suspendable s r c → suspendedBy s t r c code) ∧
            (∀ l n code c, ue = none → e.fin = .leaf l n → first →
              s.useLeaf w.ctx w.va l n r.rd r.wr = .error code → suspendable s r c → suspendedBy s t r c code) ∧
            ∀ l n x, ue = none → e.fin = .leaf l n → 0 < n → first → s.useLeaf w.ctx w.va l n r.rd r.wr = .ok x →
              (∃ f, tlbFind (t.die die).tlb w.ctx (w.va / n * n) = some f ∧
                (tlbFind (s.die die).tlb w.ctx (w.va / n * n) = none → f.leaf = l ∧ f.size = n)) ∧
              (tlbFind ((s.die die).l1Of r.eng) w.ctx w.va = none → tlbFind ((s.die die).l1Of r.eng) w.ctx (w.va / n * n) = none →
                (∀ v ∈ rest, ∀ q ∈ v.req, ¬(q.eng = r.eng ∧ q.num = r.num ∧ q.box = r.box)) →
                t.translate w.ctx w.va r = (t, .ok x.1 x.2))))

/-- R277: a line of a die's remote-read buffer may leave it at any time; nothing else changes. -/
def clauseBufferLinesExpire : Prop :=
  ∀ (s : State) (die line : Nat), ∃ t, exec (.rrbLineExpiry die line) s = .next t ∧
    (t.die die).rrb.get? line = none ∧ (∀ l, l ≠ line → (t.die die).rrb.get? l = (s.die die).rrb.get? l) ∧
    { t.die die with rrb := (s.die die).rrb } = s.die die ∧ { t with dies := s.dies } = s

/-- R240, R147 and R249: a row of a `mv.win` begins when the windrow is enabled and has room, and one that has begun goes on as the
windrow then stood, whatever becomes of it. Its bytes, up to the end of a 64 KiB granule of its source or of the row, arrive: they,
or zeros past the command's rows, are at the ring place of the arrived count. The last of them raises the count by 1 and signals
the windrow's semaphore by 1; before, the cursor of bytes within the row rises. -/
def clauseWindrowRowsArriveInOrder : Prop :=
  ∀ (s s1 s2 : State) (id num core tk : Nat) (n : Fin 8) (c : Cmd) (w : DataWord) (rs : List (Acc × List Piece)) (d : Piece),
    (s.eng id).cmd num = some c → c.op = .mvWin w → c.num = num → winAt (c.reg w.dst) = (core, n) →
    let now := (s.core core).windrows[n.val]
    let win := c.row.getD now
    let at_ := win.arrived.toNat
    let p := win.pitch.toNat
    let m : Mover := { id := id, c := c, box := 0 }
    let begins : Prop := now.en = true ∧ now.served = some (id, num) ∧ (now.arrived - now.head).toNat < now.rows.toNat
    let begun : State := s.updCmd id num (fun c => { c with row := some win })
    let o := win.base.toNat + at_ % win.rows.toNat * p
    let row : Int := at_ * c.bk.sp
    let start : Int := ((c.reg w.src1).toNat : Int) + row + c.done
    let k := if at_ < c.rows then min (p - c.done) (65536 - start.toNat % 65536) else p - c.done
    let src := if at_ < c.rows then
      [{ bytesAcc (c.reg w.src1) (row + c.done) k true false false with lo := row, hi := row + p }] else []
    let dst := { bytesAcc (BitVec.ofNat 64 (2 ^ 62 + core * 2 ^ 32)) ((o + c.done : Nat) : Int) k false true true with
      lo := (o : Int), hi := (o : Int) + p }
    let to_ := dspLoc core (o + c.done)
    let i : Instr := .windrowRowArrival id num
    (c.st ≠ .active ∨ c.ue.isSome = true ∨ (c.row = none ∧ ¬begins) → exec i s = .next s) ∧
    (c.st = .active → c.ue = none → c.row ≠ none ∨ begins → c.done < p →
      (∃ k, s.kernels.get? c.lid = some k ∧ k.desc.ownsSem win.sem.toNat = true) →
      begun.resolveAll m src [] = (s1, .ok rs) → s1.resolve m dst = (s2, .ok [d]) → s2.mustWait m (rs ++ [(dst, [d])]) = false →
      d.loc = to_ → d.n = k → d.far = false → (∀ q ∈ rs, ∀ x ∈ q.2, x.far = false) → s2.mem.wf = true →
      s2.peerCase c.lid core = .served tk →
      ∃ u : State, sameOutside s2 u to_ k ∧
        (c.done + k < p → exec i s = .next u ∧ (u.core core).windrows[n.val].arrived = now.arrived ∧
          ∃ c', (u.eng id).cmd num = some c' ∧ c'.done = c.done + k ∧ c'.row = some win) ∧
        (p ≤ c.done + k → exec i s = .next (u.signal core tk win.sem.toNat 1 false) ∧
          (u.core core).windrows[n.val].arrived = win.arrived + 1 ∧
          ∃ c', (u.eng id).cmd num = some c' ∧ c'.done = 0 ∧ c'.row = none) ∧
        (at_ < c.rows → (rs.flatMap (accBytes s2.mem)).length = k →
          ∀ j, j < k → some (u.mem.get (to_ + j)) = (rs.flatMap (accBytes s2.mem))[j]?) ∧
        (c.rows ≤ at_ → ∀ j, j < k → u.mem.get (to_ + j) = 0))

/-- R242 and R370: a storage command that has been sent and completes with status 0 is done, a read with its data in its buffer,
for which it waits where no link reaches the buffer; any other status ends it with status 0x08 and that status, and each byte of
the buffer of a failed read is the old one or one of the data. -/
def clauseStorageCompletionsEndTheirCommand : Prop :=
  ∀ (s : State) (id num : Nat) (c : Cmd) (d x y : AReg) (qp : BitVec 16) (dir : Bool) (b : BoxSlot) (bs : List BoxSlot)
    (status : BitVec 15) (data : List Byte), (s.eng id).cmd num = some c → c.op = .mvNvm d x y qp dir → c.slots = b :: bs →
    let i : Instr := .nvmeCompletion id num status data
    let ps := nvmPieces c (s.nvmLen c) d
    let n := s.nvmLen c
    let cut : Prop := s.linked = false ∧ ∃ (j : Nat) (l : Nat × List Byte), j < ps.length ∧ b.saved[j]? = some l ∧ s.isOwn l.1 = false
    let plain (l : Nat) : Prop := ∃ ks, ps = [((c.reg d).toNat % 2 ^ 62, n)] ∧ b.saved = [(l, ks)] ∧ l < 2 ^ 48 ∧ s.isOwn l = true ∧
      s.mem.wf = true ∧ (∀ z, l ≤ z → z < l + n → s.isLive z = true) ∧ ∀ k, s.kernels.get? c.lid = some k → k.rb = false
    (c.st ≠ .active ∨ b.ph = false ∨ ps.length < b.saved.length ∨ (status = 0 ∧ dir = false ∧ data.length ≠ n) →
      exec i s = .next s) ∧
    (c.st = .active → b.ph = true → b.saved.length ≤ ps.length →
      (status ≠ 0 → commandEnds s i id num c (8 + status.toNat * 2 ^ 13) 0 false) ∧
      (status ≠ 0 → dir = false → ∀ l, plain l → ∃ t, exec i s = .next t ∧ sameOutside s t l n ∧
        ∀ k, k < n → t.mem.get (l + k) = s.mem.get (l + k) ∨ some (t.mem.get (l + k)) = data[k]?) ∧
      (status = 0 → dir = true → ∃ t c', exec i s = .next t ∧ (t.eng id).cmd num = some c' ∧
        c'.bmp.getLsbD b.box = (decide (b.box < 64)) ∧ t.mem = s.mem) ∧
      (status = 0 → dir = false → data.length = n → cut → ∃ t c' y, exec i s = .next t ∧ t.mem = s.mem ∧
        (t.eng id).cmd num = some c' ∧ c'.bmp = c.bmp ∧ c'.far = some y ∧ y.arr = 3 ∧ y.va = c.reg d) ∧
      (status = 0 → dir = false → data.length = n → ¬cut →
        ∃ t c', exec i s = .next t ∧ (t.eng id).cmd num = some c' ∧ c'.bmp.getLsbD b.box = (decide (b.box < 64)) ∧
          ∀ l, plain l → sameOutside s t l n ∧ ∀ k (h : k < data.length), t.mem.get (l + k) = data[k]))

/-- R36, R52, R239, R373: what a switch makes of an element's value with a contribution. That of an `mv.red` is added: modulo 2^32
in INT32, and else once rounded to the element's format; one of an `mv.atom` acts as the atomic does at a memory port. The value is
that of the element's bytes at its home, of which it has as many as its format. -/
def clauseSwitchesAddContributions : Prop :=
  ∀ (x : Contribution) (old : Nat),
    (∀ s : State, s.mem.wf = true → s.merged x = leNat ((List.range x.size).map (fun k => s.mem.get (x.pa + k)))) ∧
    x.size = (if x.fmt = 15 then 8 else elemW x.fmt / 8) ∧
    (x.op = 10 → x.fmt = fI32 → x.apply old = ((old + x.val.toNat) % 2 ^ 32, 0)) ∧
    (x.op = 10 → ∀ F a b, ffmt x.fmt = some F → isBlock x.fmt = false → hasValue (decodeE x.fmt old) a →
      hasValue (decodeE fFP32 x.val.toNat) b →
      (a + b ≠ 0 → ∃ r, correct x.fmt F .rne x.sat (decide (a + b < 0)) |a + b| r ∧ x.apply old = (r.code, r.fl)) ∧
      (a + b = 0 → codeIs x.fmt (x.apply old).1 ((decodeE x.fmt old).neg && (decodeE fFP32 x.val.toNat).neg) 0 ∧
        (x.apply old).2 = 0)) ∧
    (x.op ≠ 10 → ∀ (c : Cmd) (d y z : AReg) (ty : BitVec 2) (ret : Bool) (u j g : Nat), c.op = .mvAtom d y z x.op ty ret →
      x.fmt = (if ty = 0 then fI32 else if ty = 1 then 15 else fFP32) → x.val = c.reg y → x.cmp = c.reg z →
      old < 2 ^ (8 * x.size) →
      (c.plan u j g).out [] (leBytes x.size old) = ([leBytes x.size (x.apply old).1], (x.apply old).2))

/-- R255, R274, R373, R374: a switch applies a contribution once and only over a link, which writes the value that it makes of the
element's at its home, completes the element and gives an atomic its old value; a resent copy changes nothing; once the merged
value is at the memory port, its contributions are gone. -/
def clauseSwitchesTakeContributionsOnce : Prop :=
  (∀ (s : State) (pkg id num elem : Nat),
    let hit (x : Contribution) : Prop := x.pkg = pkg ∧ x.eng = id ∧ x.num = num ∧ x.elem = elem ∧ x.accepted = false
    exec (.contributionResend pkg id num elem) s = .next s ∧
    ((∀ x ∈ s.contribs, ¬hit x) ∨ s.linked = false → exec (.contributionAccept pkg id num elem) s = .next s) ∧
    (∀ ls x rs, s.contribs = ls ++ x :: rs → (∀ y ∈ ls ++ rs, ¬hit y) → hit x → s.linked = true → s.mem.wf = true →
      ∃ t, exec (.contributionAccept pkg id num elem) s = .next t ∧ sameOutside s t x.pa x.size ∧
        t.merged x = (x.apply (s.merged x)).1 % 2 ^ (8 * x.size) ∧ t.contribs = ls ++ rs ++ [{ x with accepted := true }] ∧
        ∀ c b, (s.eng id).cmd num = some c → c.st.gone = false → c.slots.find? (fun b => b.box = x.box) = some b →
          ∃ c', (t.eng id).cmd num = some c' ∧ c'.flags = c.flags ||| x.fl ||| (x.apply (s.merged x)).2 ∧
            (c.boxLen b.box ≤ b.cur + 1 → c'.bmp = c.bmp ||| (1#64 <<< b.box)) ∧
            (b.cur + 1 < c.boxLen b.box → ∃ b' ∈ c'.slots, b'.box = b.box ∧ b'.cur = b.cur + 1) ∧
            ∀ d y z op ty r, c.op = .mvAtom d y z op ty true → (s.eng id).run = some r → r.atomW = some (num, z) →
              ∃ r', (t.eng id).run = some r' ∧ r'.atomW = none ∧
                r'.a[z.toNat]'z.isLt = (if ty = 0 then (BitVec.ofNat 32 (s.merged x)).signExtend 64
                  else BitVec.ofNat 64 (s.merged x)))) ∧
  ∀ (s : State) (pa : Nat), exec (.contributionDeliver pa) s =
    .next { s with contribs := s.contribs.filter (fun y => !(y.accepted && decide (y.pa = pa))) }

/-- R255, R373, R374: contributions to a switch. -/
def Obligations.ContributionsApplyOnce : Prop := clauseSwitchesAddContributions ∧ clauseSwitchesTakeContributionsOnce

/-- R233 to R242, R248 to R251: what the elements of a move command read and write. -/
def Obligations.MoveElementsAreWritten : Prop := 
  clauseMoveElementsWriteWhatTheyCompute ∧ clauseMoveElementsFollowTheirTables ∧ clauseBlockElementsFollowTheirTables ∧
    clauseReductionsRoundEachAddition ∧ clauseScattersReadAndThenWrite ∧ clauseChecksumsCoverTheRecord ∧
    clauseStorageCommandsSendTheirRequest ∧ clauseStoredElementsConvertByTheTable

/-- R145, R222, R224, R252: commands start, register their ranges and retire, and so do runs. -/
def Obligations.MoveCommandsStartAndRetire : Prop :=
  clauseMoveCommandsStartAndRetire ∧ clauseScoreboardsRegisterRanges ∧ clauseRunsRetireOnceTheirCommandsHave

/-- R247, R256, R257, R277, R281 to R288, R370: errors, suspensions, page walks and the remote-read buffer. -/
def Obligations.MoveFaultsSuspendOrEndTheirCommand : Prop :=
  clauseMoveErrorsEndTheirCommand ∧ clauseSuspensionsPostTheirEvent ∧ clauseWalksFillTheTlbOrSuspend ∧
    clauseBufferLinesExpire

/-- R147, R148, R240, R242: the rows of a windrow arrive, and storage commands end. -/
def Obligations.WindrowRowsAndStorageComplete : Prop :=
  clauseWindrowRowsArriveInOrder ∧ clauseStorageCompletionsEndTheirCommand

/-! ## Teams on cores, and the life of kernels (R315 to R320, R333 to R335, R342, R343, R350) -/

/-- A strand stopped at a boundary with everything else but its wait as it was (R317). -/
def stoppedAs (t : State) (key : Nat) (st : Strand) : Prop :=
  ∃ st', t.strands.get? key = some st' ∧ st'.st = .stopped ∧ { st' with st := st.st, wait := st.wait } = st

/-- R317 and R343: a switch that is asked for stops the strands that are BLOCKED and those at a boundary with no live level;
the limit makes every boundary a switch point. A team of a kernel that must not leave is not asked, but a parked one is;
a quantum only asks while teams of the kernel wait. The teams of a gang are asked together, on every core, also where one of
them is in the bank of a core that another team leaves (R337). -/
def clauseSwitchesStopStrandsAtTheirPoints : Prop :=
  ∀ (s : State) (c tk : Nat) (t : Team) (k : Kernel), (s.core c).active = some tk → s.teams.get? tk = some t →
    s.kernels.get? (tk / 512) = some k → s.coreOn c = true →
    (∀ e ∈ s.sems, ∀ w ∈ e.2.q, ∀ key, w.1 = .strand key → ∃ st, s.strands.get? key = some st ∧ st.st = .blocked) →
    let asked (i : Instr) : Prop := (s.core c).switch = false →
      ∃ u, exec i s = .next u ∧ (u.core c).switch = true ∧ (u.core c).due = false ∧ u.mem = s.mem ∧
        ∀ key st, key ∈ teamStrands tk → s.strands.get? key = some st →
          (st.st = .blocked ∨ (st.st = .running ∧ st.loops = []) → stoppedAs u key st) ∧
          (st.st = .running → st.loops ≠ [] → u.strands.get? key = some st)
    let waits : Prop := s.teams.any (fun e => e.2.lid = k.lid && s.waits e.1 e.2) = true
    let leaves (x : Nat) : Prop := ∃ u j, s.teams.get? x = some u ∧ s.kernels.get? (x / 512) = some j ∧
      (u.parked = true ∨ s.mayLeave j = true)
    let alone : Prop := ∀ x ∈ (s.core c).residents, s.gangOf x = none ∨ ∃ u, s.teams.get? x = some u ∧ u.parked = true
    let cs := s.switchSet s.cores.length [c]
    let together (i : Instr) : Prop := (s.cores.map (·.1)).Nodup →
      ((∀ d ∈ cs, s.maySwitch s.gangAway d = true) → ∃ u, exec i s = .next u ∧ u.mem = s.mem ∧
        ∀ d ∈ cs, (u.core d).switch = true ∧ ∀ x ∈ (s.core d).residents, ∀ y, s.teams.get? x = some y → y.parked = false →
          ∀ r, s.gangOf x = some r → ∀ z ∈ s.gangOn r, (u.core z).switch = true) ∧
      ((∃ d ∈ cs, s.maySwitch s.gangAway d = false) → exec i s = .next s)
    (alone → t.parked = true ∨ (∀ x ∈ tk :: (s.core c).spent, leaves x) → asked (.teamSwitchRequest c)) ∧
    (t.parked = false ∨ cs.length ≠ 1 → together (.teamSwitchRequest c)) ∧
    (t.parked = false → s.mayLeave k = false → exec (.teamSwitchRequest c) s = .next s) ∧
    (k.st.live = true → k.desc.lp = false → s.isGang k.recId = false → waits →
      (alone → asked (.residencyQuantumExpiry c)) ∧ (cs.length ≠ 1 → together (.residencyQuantumExpiry c))) ∧
    (k.st.live = false ∨ k.desc.lp = true ∨ s.isGang k.recId = true ∨ ¬waits →
      exec (.residencyQuantumExpiry c) s = .next s) ∧
    ((s.core c).switch = false → exec (.switchPointTimeout c) s = .next s) ∧
    ((s.core c).switch = true → ∃ u, exec (.switchPointTimeout c) s = .next u ∧ (u.core c).due = true ∧ u.mem = s.mem ∧
      ∀ key st, key ∈ teamStrands tk → s.strands.get? key = some st → st.st = .blocked ∨ st.st = .running →
        stoppedAs u key st)

/-- R317 and R318: with every strand of the active team stopped, a switch exchanges it with the team in the loft bank, whose
strands run or wait again, but for those that a pending park keeps at their `yield` (R344); the spill of the outgoing team
begins where it has a slot. Walker work of the team that is dispatched holds the switch back (R219). A team that left before its
kernel was loaded gets its images and its strands once that is (R335). -/
def clauseCompletedSwitchesExchangeTheTeams : Prop :=
  ∀ (s : State) (c out : Nat) (t : Team), (s.core c).active = some out → s.teams.get? out = some t → s.coreOn c = true →
    let i : Instr := .teamSwitchComplete c
    ((s.core c).switch = false → exec i s = .next s) ∧
    let walking : Prop := ∃ h ∈ (s.core c).stook, h.team = out ∧ (∃ u, h.dispAt u = true) ∧ ∃ d a b x, tileInstr h.word = .twalk d a b x
    ((s.core c).switch = true → s.allStopped out = false ∨ walking → exec i s = .next s) ∧
    ((s.core c).switch = true → s.allStopped out = true → ¬walking → t.blocks = [] → (s.core c).held ≠ some out →
      (∀ tk, (s.core c).held = some tk → ∃ b j, s.teams.get? tk = some b ∧ s.kernels.get? (tk / 512) = some j ∧
        (b.started = true ∨ j.st = .admitted)) →
      ∃ u t', exec i s = .next u ∧ (u.core c).active = (s.core c).held ∧ (u.core c).held = some out ∧
        (u.core c).switch = false ∧ (u.core c).due = false ∧ u.teams.get? out = some t' ∧ t'.place = .held c ∧
        ((u.core c).loft = .spilling ∧ t'.slot ≠ none ∨ (u.core c).loft = .held ∧ t'.slot = t.slot) ∧
        (∀ k st, k ∈ teamStrands out → s.strands.get? k = some st → (s.core c).held = none →
          u.strands.get? k = some st.deliverAll) ∧
        ∀ tk b, (s.core c).held = some tk → s.teams.get? tk = some b → ∃ b', u.teams.get? tk = some b' ∧
          b'.place = .active c ∧ (b.started = true → b'.parked = false ∧ ∀ k st, k ∈ teamStrands tk → k ∉ teamStrands out →
            s.strands.get? k = some st → u.strands.get? k = some (
              if st.st = .stopped ∧ ¬(b.park.isSome = true ∧ b.parked = false ∧ st.yielded = true) then
                { st with st := if st.wait.isSome then .blocked else .running, yielded := false } else st))) ∧
    ∀ (r v : State) (tk d : Nat) (b : Team) (j : Kernel), (r.core d).active = none → (r.core d).held = some tk →
      (r.core d).switch = true → r.coreOn d = true → r.teams.get? tk = some b → r.kernels.get? (tk / 512) = some j →
      b.started = false → j.lid = tk / 512 → j.st ≠ .admitted → r.imagesAway j = false →
      (((r.updCore d (fun x => { x with held := none, loft := .empty, switch := false, due := false })).updTeam tk
        (fun y => { y with place := .active d })).updCore d (fun x => { x with active := some tk })).loadTeam j d = (v, Faults.none) →
      ∃ u, exec (.teamSwitchComplete d) r = .next u ∧ (u.core d).active = some tk ∧ (u.core d).held = none ∧ u.mem = v.mem ∧
        ∀ n, tk % 512 * 4 ≤ n → n < tk % 512 * 4 + 4 → n ≤ j.desc.nsm → ∃ st, u.strands.get? (strandKey j.lid n) = some st ∧
          st.st = .running ∧ st.pc = BitVec.ofNat 32 (0x800000 + j.desc.eoff)

/-- R318 and R319: the spill copies the team's control store and weight halves into its slot; a settled team whose bank is
CLEAN leaves its core for the slot, its accumulator rows and regions copied and its storage on the core zero; an EMPTY
bank is filled from the slot by a team that the core takes, its bytes back in the core's storage, its stook entries back in
their order, and the slot zero. -/
def Obligations.SpilledTeamsLeaveAndReturn : Prop :=
  ∀ (s : State) (c tk n : Nat) (t : Team) (k : Kernel), s.teams.get? tk = some t → s.kernels.get? (tk / 512) = some k →
    t.lid = tk / 512 → t.bank < 2 → c < 512 → s.mem.wf = true →
    let a := s.slotAt k.ctx n
    let own : Prop := a + slotSize ≤ 2 ^ 48 ∧ a % 65536 = 0 ∧ ∀ z, a ≤ z → z < a + slotSize → s.isOwn z = true
    k.ctx = s.lidCtx t.lid → own →
    ((s.core c).loft = .spilling → (s.core c).held = some tk → t.slot = some n →
      ∃ u, exec (.spillComplete c) s = .next u ∧ (u.core c).loft = .clean ∧
        (∀ p ∈ bankParts c t.bank, ∀ i, i < p.2.2 → u.mem.get (a + p.2.1 + i) = s.mem.get (p.1 + i)) ∧
        ∀ z, 2 ^ 48 ≤ z → u.mem.get z = s.mem.get z) ∧
    ((s.core c).loft ≠ .spilling → exec (.spillComplete c) s = .next s) ∧
    ((s.core c).loft = .clean → (s.core c).held = some tk → t.slot = some n → s.settled tk c t = true →
      (s.core c).switch = false → s.coreOn c = true → t.blocks = [] → t.park = none →
      (t.coreParts k.desc c).Pairwise (fun p q => p.2.1 + p.2.2 ≤ q.2.1) → (∀ p ∈ t.coreParts k.desc c,
        0x100000 ≤ p.2.1 ∧ p.2.1 + p.2.2 ≤ slotSize) → ((s.core c).stook.filter (fun h => h.team = tk)).length ≤ 1024 →
      ∃ u t', exec (.evictTeam c) s = .next u ∧ (u.core c).held = none ∧ (u.core c).loft = .empty ∧
        u.teams.get? tk = some t' ∧ t'.place = .saved n ∧ t'.kept = (s.core c).stook.filter (fun h => h.team = tk) ∧
        (u.core c).stook = (s.core c).stook.filter (fun h => h.team ≠ tk) ∧
        (∀ p ∈ t.coreParts k.desc c, ∀ i, i < p.2.2 → u.mem.get (a + p.2.1 + i) = s.mem.get (p.1 + i)) ∧
        ∀ p ∈ t.coreParts k.desc c ++ bankParts c t.bank, ∀ i, i < p.2.2 → u.mem.get (p.1 + i) = 0) ∧
    (∀ v f t', t.place = .saved n → (s.core c).loft = .empty → k.st.live = true → s.coreOn c = true → (s.core c).switch = false →
      s.goesTo tk c t = true → s.imagesAway k = false → s.mayTake c k.desc (s.textImage k) t.kept.length = true →
      let s0 := s.makeRoom c
      let b := s0.freeBank c
      s0.takes c k.desc (s0.textImage k) t.kept.length = true →
      v = s0.restore tk c b n t k → v.kernels.get? k.lid = some f → f.st.live = true → v.teams.get? tk = some t' →
      ∃ u, exec (.loftFill c tk) s = .next u ∧ (u.core c).held = some tk ∧ (u.core c).loft = .filled ∧
        u.teams.get? tk = some { t' with place := .held c } ∧ t'.bank = b ∧ t'.slot = none ∧ t'.kept = [] ∧
        (u.core c).stook.map (fun h => (h.word, h.cmdNo, h.subs, h.wait)) =
          ((s0.core c).stook ++ t.kept).map (fun h => (h.word, h.cmdNo, h.subs, h.wait)) ∧
        (∀ z, a ≤ z → z < a + slotSize → u.mem.get z = 0) ∧
        ((∀ p ∈ t.coreParts k.desc c, 0x100000 ≤ p.2.1 ∧ p.2.1 + p.2.2 ≤ slotSize) → k.desc.accRows.2 ≤ 512 →
          (∀ r ∈ t.owned, r.2 ≤ 2 ^ 23) → k.desc.tsz ≤ 2 ^ 18 →
          ∀ p ∈ bankParts c b ++ t.coreParts k.desc c, ∀ i, i < p.2.2 → u.mem.get (p.1 + i) = s.mem.get (a + p.2.1 + i)))

/-- R82, R138, R151, R168, R180, R316, R335: a team that is next is placed on a free core with its images loaded, its regions and rows
zero beside them, a fresh control store and weight halves in a bank that no other team there uses, its semaphores owned
with count 0, and its strands at the entry with x10 the argument. -/
def clausePlacedTeamsStartFresh : Prop :=
  ∀ (s u1 u : State) (tk c : Nat) (t : Team) (k : Kernel), s.teams.get? tk = some t → s.kernels.get? (tk / 512) = some k →
    k.lid = tk / 512 → t.place = .waiting → k.st.live = true → s.isGang k.recId = false →
    let i : Instr := .teamPlace tk c
    let s0 := s.makeRoom c
    (k.st = .admitted ∨ s.nextTeam k ≠ some tk ∨ s.imagesAway k = true → exec i s = .next s) ∧
    (k.st ≠ .admitted → s.nextTeam k = some tk → s.goesTo tk c t = true → s.imagesAway k = false → s.coreFree c = true →
      s.mayTake c k.desc (s.textImage k) t.kept.length = true → s0.takes c k.desc (s0.textImage k) t.kept.length = true → s.mem.wf = true →
      c < 512 → k.desc.accRows.2 ≤ 512 → k.desc.dsz ≤ 2 ^ 23 → k.desc.tsz ≤ 2 ^ 18 → (∀ r ∈ k.desc.owned, r.2 ≤ 2 ^ 23) →
      (s0.placeFresh tk c k).loadText k c = (u1, Faults.none) → u1.loadData k c = (u, Faults.none) →
      ∃ v t', exec i s = .next v ∧ (v.core c).active = some tk ∧ v.teams.get? tk = some t' ∧ t'.place = .active c ∧
        t'.started = true ∧ t'.cmdNo = 0 ∧ t'.wfmt = #v[fBF16, fBF16] ∧ t'.owned = k.desc.owned ∧ v.mem = u.mem ∧
        (∀ x ∈ (s0.core c).residents, ∀ y, s0.teams.get? x = some y → y.bank < 2 → y.bank ≠ t'.bank) ∧
        (∀ n, tk % 512 * 4 ≤ n → n < tk % 512 * 4 + 4 → n ≤ k.desc.nsm → ∃ st, v.strands.get? (strandKey k.lid n) = some st ∧
          st.st = .running ∧ st.num = n ∧ st.pc = BitVec.ofNat 32 (0x800000 + k.desc.eoff) ∧
          ∀ r : XReg, st.getX r = if r = 10 then k.arg else 0) ∧
        (∀ n, k.desc.sv = true → k.desc.slo ≤ n → n ≤ k.desc.shi → n < 256 → ∃ q, v.sems.get? (semKey tk n) = some q ∧
          q.count = 0 ∧ q.ovf = false ∧ q.q = []) ∧
        (∀ j, k.desc.accRows.1 * 1024 ≤ j → j < k.desc.accRows.2 * 1024 → v.mem.get (accLoc c j) = 0) ∧
        (∀ p ∈ bankParts c t'.bank, ∀ j, j < p.2.2 → v.mem.get (p.1 + j) = 0) ∧
        (∀ r ∈ k.desc.owned, ∀ j, r.1 ≤ j → j < r.2 → k.desc.dsz ≤ j → v.mem.get (dspLoc c j) = 0) ∧
        (∀ x bs, (s0.placeFresh tk c k).readVirt (s.sliceOf k) k.ctx k.desc.tva k.desc.tsz = (x, ReadEnd.ok bs) →
          (∀ j (h : j < bs.length), v.mem.get (ispLoc c j) = bs[j]) ∧
          ∀ j, bs.length ≤ j → j < 0x40000 → v.mem.get (ispLoc c j) = 0) ∧
        ∀ x bs, u1.readVirt (s.sliceOf k) k.ctx k.desc.dva k.desc.dsz = (x, ReadEnd.ok bs) →
          ∀ j (h : j < bs.length), v.mem.get (dspLoc c j) = bs[j])

/-- R333 and R335: once its images are in place the strands of an ADMITTED kernel's placed teams start, and the kernel
is RUNNING when its producers have triggered and in its PROLOGUE otherwise; a failed image read fails it. -/
def clauseLoadedKernelsStartTheirStrands : Prop :=
  ∀ (s u v : State) (lid : Nat) (k : Kernel), s.kernels.get? lid = some k →
    let teams := s.placed lid
    let r := teams.foldl (fun (r : State × Faults) p => if r.2.fk = 0 then r.1.loadTeam k p.2 else r) (s, Faults.none)
    let unfired : Prop := ∃ r ∈ k.producers, ∃ rc l j, s.recs.get? r = some rc ∧ l ∈ rc.lids ∧ l ≠ lid ∧ j.lid = l ∧
      s.kernels.get? l = some j ∧ j.fired = false ∧ j.st ≠ .draining ∧ s.allTriggered l j = false ∧ s.allEnded l j = false
    (k.st ≠ .admitted ∨ s.imagesAway k = true → exec (.kernelLoadComplete lid) s = .next s) ∧
    (∀ f, k.st = .admitted → s.imagesAway k = false → k.fl.fk = 0 → r = (u, f) → f.fk ≠ 0 → u.kernels = s.kernels →
      ∃ t k', exec (.kernelLoadComplete lid) s = .next t ∧ t.kernels.get? lid = some k' ∧ k'.st = .failed ∧ k'.fl.fk = f.fk) ∧
    (k.st = .admitted → s.imagesAway k = false → r = (u, Faults.none) → u.loadMoves k = (v, Faults.none) → v.kernels = s.kernels → v.teams = s.teams →
      ∃ t, exec (.kernelLoadComplete lid) s = .next t ∧
        (∀ p, teams = [p] → p.1 / 512 = lid → k.lid = lid → (∃ n, p.1 % 512 * 4 ≤ n ∧ n < p.1 % 512 * 4 + 4 ∧ n ≤ k.desc.nsm) →
          (∀ x, s.teams.get? p.1 = some x → x.lid = lid ∧ x.num = p.1 % 512) →
          ∃ k', t.kernels.get? lid = some k' ∧
            (k'.st = .running ∨ k'.st = .prologue) ∧ (s.producersFired k = true → k'.st = .running) ∧
            (unfired → k'.st = .prologue) ∧
            ∀ n, p.1 % 512 * 4 ≤ n → n < p.1 % 512 * 4 + 4 → n ≤ k.desc.nsm →
              ∃ st, t.strands.get? (strandKey lid n) = some st ∧ st.st = .running ∧
                st.pc = BitVec.ofNat 32 (0x800000 + k.desc.eoff)))

/-- R265 and R350: once the work of a kernel that rolls back has stopped, its logged granules hold their old bytes again, restored
in descending order of their entries, free of poison, and it is admitted anew without rollback ability, on cores that admission
would choose; no granary entry of its context is left on a core that it used, and the entries of other cores stay (R203). -/
def clauseRollbackRestoresTheLoggedGranules : Prop :=
  ∀ (s : State) (lid : Nat) (k : Kernel), s.kernels.get? lid = some k →
    let gone := (k.used.foldl (fun (s : State) c => s.emptyGranary c k.ctx) (s.restoreLog k)).dropTeams k true
    (k.st ≠ .rolling ∨ s.workGone lid = false ∨ (gone.relaunchCores true k = none ∧ gone.relaunchCores false k = none) →
      exec (.rollbackComplete lid) s = .next s) ∧
    (∀ cs, k.st = .rolling → s.workGone lid = true → gone.relaunchCores true k = none → gone.relaunchCores false k = some cs →
      exec (.rollbackComplete lid) s = .next (cs.foldl State.makeRoom s)) ∧
    (∀ cs, k.st = .rolling → s.workGone lid = true → gone.relaunchCores true k = some cs → k.lid = lid →
      ∃ t k', exec (.rollbackComplete lid) s = .next t ∧ t.kernels.get? lid = some k' ∧ k'.st = .admitted ∧ k'.rb = false ∧
        k'.rbt = true ∧ k'.log = [] ∧ k'.fl.fk = 0 ∧
        (∀ key st, t.strands.get? key = some st → st.lid ≠ lid) ∧
        (∀ n c, cs[n]? = some c → n < k.desc.teams → ∃ u, t.teams.get? (teamKey lid n) = some u ∧ u.place = .active c ∧ u.started = false) ∧
        (s.isGang k.recId = true → ∀ c ∈ cs, ∀ d ∈ cs, c / 64 = d / 64) ∧
        (s.isGang k.recId = false → k.desc.lp = true → cs.length = k.desc.teams) ∧
        (∀ c ∈ k.used, ∀ e ∈ (t.core c).gran, e.ctx ≠ k.ctx) ∧ (∀ c, c ∉ k.used → (t.core c).gran = (s.core c).gran) ∧
        (∀ c ∈ cs, ∀ x, (s.core c).active = some x → ∃ u, (x, u) ∈ s.teams ∧ u.lid = lid) ∧
        ((∀ e ∈ s.teams, e.2.lid = lid → e.2.slot = none) → s.mem.wf = true →
          (∀ e ∈ (((s.ctxs.get? (s.lidCtx lid)).map (·.slots)).getD []), e.2 ≠ lid) →
          (∀ e ∈ k.log, s.isOwn e.1 = true ∧ e.1 % 256 = 0 ∧ e.1 + 256 ≤ 2 ^ 48 ∧ ∀ y, e.1 ≤ y → y < e.1 + 256 → s.isLive y = true) →
          let old (p : Nat) := par (s.cfgWord k.ctx 4) 0 48 + 288 * p + 0x20
          (∀ e ∈ k.log, ∀ f ∈ k.log, e.1 + 256 ≤ old f.2 ∨ old f.2 + 256 ≤ e.1) →
          ∀ pre g p suf, k.log = pre ++ (g, p) :: suf → (∀ e ∈ suf, e.1 ≠ g) →
            (∀ i, i < 256 → t.mem.get (g + i) = s.mem.get (old p + i)) ∧
            ∀ w ∈ t.poison, w % 32 = 0 → ¬(g ≤ w ∧ w < g + 256)))

/-- R342: a sample records the occupancy of each pipe of a record; the end of a window discards the samples, and moves a core
only where every sample of a pipe is at least three quarters, or at most one quarter, of its depth. -/
def clausePipesAreSampledAndRebalanced : Prop :=
  ∀ (s : State) (r : Nat) (rc : Rec), s.recs.get? r = some rc →
    (∃ t rc', exec (.pipeOccupancySample r) s = .next t ∧ t.recs.get? r = some rc' ∧ { t with recs := s.recs } = s ∧
      { rc' with pipes := rc.pipes } = rc ∧ ∀ n p, rc.pipes.get? n = some p →
        rc'.pipes.get? n = some { p with samples := p.samples ++ [p.q.length] }) ∧
    ∃ t rc', exec (.pipeRebalanceWindow r) s = .next t ∧ t.recs.get? r = some rc' ∧ { rc' with pipes := rc.pipes } = rc ∧
      (∀ n p, rc.pipes.get? n = some p → rc'.pipes.get? n = some { p with samples := [] }) ∧
      ((∀ e ∈ rc.pipes, e.2.samples = [] ∨ ((∃ n ∈ e.2.samples, 4 * n < 3 * e.2.depth) ∧
        ∃ n ∈ e.2.samples, e.2.depth < 4 * n)) → t.teams = s.teams) ∧ { t with recs := s.recs, teams := s.teams } = s

/-- R316 to R318, R343: how a switch is asked for and made. -/
def Obligations.TeamsSwitchAtTheirPoints : Prop :=
  clauseSwitchesStopStrandsAtTheirPoints ∧ clauseCompletedSwitchesExchangeTheTeams

/-- R82, R265, R316, R333, R335, R342, R350: teams are placed, kernels load, roll back, and are rebalanced. -/
def Obligations.KernelsArePlacedLoadedAndRolledBack : Prop :=
  clausePlacedTeamsStartFresh ∧ clauseLoadedKernelsStartTheirStrands ∧ clauseRollbackRestoresTheLoggedGranules ∧
    clausePipesAreSampledAndRebalanced

/-! ## The host window, queues, completion records and events (R321 to R332, R377 to R381) -/

/-- A sealed packet that its receiver accepts (R379) on a connection of its context `c`: its tag verifies, its number is below
2^62, and it is of the phase in use with a number above the highest, a retransmission (`dup`) in that phase, or the first of a
new phase. `u` is the state with the keys that it leaves. -/
structure Accepted (s : State) (p : Sealed) (c : Ctx) (dup : Bool) (u : State) : Prop where
  ctx : s.ctxs.get? p.ctx.toNat = some c
  conn : c.conns.getD p.port.toNat false = true
  tag : p.tagOk = true
  num : p.seq.toNat < 2 ^ 62
  fresh : ∃ k k', c.keys = some k ∧ u = s.updCtx p.ctx.toNat (fun x => { x with keys := some k' }) ∧
    ((dup = true ∧ p.phase = k.phase ∧ p.seq.toNat ≤ k.high ∧ p.dup = true ∧ k' = k) ∨
      (dup = false ∧ p.phase = k.phase ∧ k.high < p.seq.toNat ∧ k' = { k with high := p.seq.toNat }) ∨
      (dup = false ∧ p.phase ≠ k.phase ∧ k.both = true ∧ 0 < p.seq.toNat ∧
        k' = { k with phase := p.phase, both := false, high := p.seq.toNat, answers := [] }))

/-- The device's keys of a context, and the context that holds them. -/
def holdsKeys (s : State) (p : Sealed) (c : Ctx) (k : Keys) : Prop := s.ctxs.get? p.ctx.toNat = some c ∧ c.keys = some k

/-- R378, R379: what the device sends to a context leaves under the next number of the phase in which it sends, with the key and
the salt that HKDF-Expand gives of its secret, over the transport headers, which the model leaves free (log 10), and the security
header; a packet that would reach 2^62 ends the session instead; an answer is kept for a retransmission of its request, which
gets it again byte for byte (R378). -/
def clauseAnswersAreSealed : Prop :=
  ∀ (s : State) (p : Sealed) (c : Ctx) (k : Keys) (bs : List Byte), holdsKeys s p c k →
    let n := k.sent + 1 + (if k.sendPhase then 2 ^ 63 else 0)
    let cover : SealOut :=
      { key := Config.hkdfExpand k.tx [0x6B, 0x65, 0x79] 32
        nonce := Config.hkdfExpand k.tx [0x73, 0x61, 0x6C, 0x74] 4 ++ leBytes 8 n
        header := BitVec.ofNat 64 n
        aad := Config.transportHeaders k.sent ++ leBytes 8 n }
    let put (k' : Keys) : State := s.updCtx p.ctx.toNat (fun x => { x with keys := some k' })
    (k.sent + 1 < 2 ^ 62 →
      let give (o : Out) : State := (put { k with sent := k.sent + 1, answers := k.answers.set p.seq.toNat o }).emit o
      s.ack p bs = give (.rdmaAck p.ctx p.port cover bs) ∧ s.nak p = give (.rdmaNak p.ctx p.port cover)) ∧
    (2 ^ 62 ≤ k.sent + 1 → ∀ x, c.session = some x → s.ack p bs = s.endSess x)

/-- A host write of the connection of a packet waits for a link (R370). -/
def waitsBefore (s : State) (p : Sealed) : Prop :=
  ∃ x ∈ s.held, ∃ q : Sealed, q.ctx = p.ctx ∧ q.port = p.port ∧
    ((∃ va ps bs, x = .write q va ps bs) ∨ ∃ off ws, x = .window q off ws)

/-- A word of the host window, as the write of R323 that stores it. -/
def windowWord? (p : Sealed) (i : Instr) : Prop :=
  (∃ q v, i = .tailWrite p q v) ∨ (∃ q v, i = .cheadWrite p q v) ∨ (∃ q, i = .queueRestart p q) ∨ (∃ v, i = .eheadWrite p v) ∨
    i = .erestart p ∨ (∃ h, i = .storageConnect p h) ∨ (∃ h, i = .storageDisconnect p h) ∨
    (∃ h off v, i = .registerWrite (.pair p h off) v)

/-- R379 and R301: a packet on no connection is discarded; a tag that does not verify, a number already passed that is no
retransmission, and a phase that is not due, the old one after the new among them, take the context to ERROR with nothing
written; a verified number of 2^62 ends the session. -/
def clauseSealedPackets : Prop :=
  ∀ (s : State) (p : Sealed) (i : Instr) (c : Ctx) (k : Keys), windowWord? p i → s.ctxs.get? p.ctx.toNat = some c →
    (c.keys = none ∨ c.conns.getD p.port.toNat false = false → exec i s = .next s) ∧
    (c.keys = some k → c.conns.getD p.port.toNat false = true →
      (2 ^ 62 ≤ p.seq.toNat → p.tagOk = true → ∀ n, c.session = some n → exec i s = .next (s.endSess n)) ∧
      (p.tagOk = false → exec i s = .next (s.toError p.ctx.toNat)) ∧
      (p.seq.toNat < 2 ^ 62 → (p.dup = false ∧ p.phase = k.phase ∧ p.seq.toNat ≤ k.high) ∨
          (p.phase ≠ k.phase ∧ (k.both = false ∨ p.seq.toNat = 0)) →
        exec i s = .next (s.toError p.ctx.toNat)))

/-- R377 and R396: outside CONFIG_LOCKED and RUN a window write is refused with nothing written but the keys of the seal; a
retransmission has no further effect and is answered as its first copy was, once that has an answer; a queue that the context
does not own is refused. A tail write behind a host write of its connection that waits for a link waits with it (R279, R370; that
it is the tail write that waits is the model's choice, log 33). -/
def clauseWindowWritesAreGuarded : Prop :=
  ∀ (s u : State) (p : Sealed) (i : Instr) (c : Ctx) (dup : Bool), windowWord? p i → Accepted s p c dup u →
    (dup = true → ∀ k, c.keys = some k →
      (∀ o, k.answers.get? p.seq.toNat = some o → exec i s = .next (u.emit o)) ∧
      (k.answers.get? p.seq.toNat = none → exec i s = .next u)) ∧
    (dup = false → c.isLocked = false → (∀ q v, i = .tailWrite p q v → ¬waitsBefore s p) → exec i s = .next (u.nak p)) ∧
    ∀ (qid : BitVec 12) (v : Word), dup = false →
      (waitsBefore s p → exec (.tailWrite p qid v) s = .next { u with held := u.held ++ [.window p (qid.toNat * 64) [v]] }) ∧
      (c.isLocked = true → (∀ q, s.queues.get? qid.toNat = some q → q.ctx ≠ p.ctx.toNat) →
        (¬waitsBefore s p → exec (.tailWrite p qid v) s = .next (u.nak p)) ∧ exec (.cheadWrite p qid v) s = .next (u.nak p) ∧
        exec (.queueRestart p qid) s = .next (u.nak p))

/-- R322, R324, R332: a valid tail lies within the ring and does not pass back over the old one; a valid chead or ehead lies
between the old one and what the device has written; an invalid tail or chead only posts event 0x21, an invalid ehead is
ignored; restart leaves HALTED while the context is in RUN. -/
def clauseHostPointersMoveQueues : Prop :=
  clauseSealedPackets ∧ clauseAnswersAreSealed ∧ clauseWindowWritesAreGuarded ∧
  ∀ (s u : State) (p : Sealed) (c : Ctx) (qid : BitVec 12) (q : Queue) (v : Word), Accepted s p c false u → c.isLocked = true →
    s.queues.get? qid.toNat = some q → q.ctx = p.ctx.toNat →
    let bad (b : Nat) : List Byte := leBytes 64 (0x21 + p.ctx.toNat * 2 ^ 8 + qid.toNat * 2 ^ 16 + b * 2 ^ 32 + v.toNat * 2 ^ 64)
    let okTail : Prop := (v - q.head).toNat ≤ 2 ^ q.b.lsz.toNat ∧ (v - q.tail).toNat ≤ (v - q.head).toNat
    (okTail → ¬waitsBefore s p → exec (.tailWrite p qid v) s = .next ((u.updQueue qid.toNat (fun q => { q with tail := v })).ack p [])) ∧
    (¬okTail → ¬waitsBefore s p → exec (.tailWrite p qid v) s = .next ((u.postEvent p.ctx.toNat (bad 0)).ack p [])) ∧
    ((v - q.chead).toNat ≤ (q.ctail - q.chead).toNat →
      exec (.cheadWrite p qid v) s = .next ((u.updQueue qid.toNat (fun q => { q with chead := v })).ack p [])) ∧
    ((q.ctail - q.chead).toNat < (v - q.chead).toNat →
      exec (.cheadWrite p qid v) s = .next ((u.postEvent p.ctx.toNat (bad 1)).ack p [])) ∧
    (q.st = .halted → c.st = .run →
      exec (.queueRestart p qid) s = .next ((u.updQueue qid.toNat (fun q => { q with st := .active })).ack p [])) ∧
    (q.st ≠ .halted ∨ c.st ≠ .run → exec (.queueRestart p qid) s = .next (u.ack p [])) ∧
    (∃ (t : State) (c' : Ctx), exec (.eheadWrite p v) s = .next (t.ack p []) ∧ t.ctxs.get? p.ctx.toNat = some c' ∧
      { t with ctxs := u.ctxs } = u ∧
      ((v - c.ehead).toNat ≤ (c.etail - c.ehead).toNat → c'.ehead = v ∧ (c.est ≠ 2 → c'.est = c.est) ∧
        (c.est = 2 → c'.est = if (c.etail - v).toNat < c.ringSize then 1 else 2)) ∧
      ((c.etail - c.ehead).toNat < (v - c.ehead).toNat → t.ctxs.get? p.ctx.toNat = u.ctxs.get? p.ctx.toNat)) ∧
    (c.est ≠ 3 → exec (.erestart p) s = .next (u.ack p [])) ∧
    (c.est = 3 → exec (.erestart p) s =
      .next (((u.updCtx p.ctx.toNat (fun c => { c with est := 1 })).postRing p.ctx.toNat).ack p []))

/-- R380, R381 and R323: conn in IDLE or FAILED reads the Connect data and goes to CONNECTING, or fails where that read does, or
keeps the read until a link reaches its package (R370); disc ends a pair that no command uses; the configuration fields take
writes only in IDLE and FAILED, the address fields only in an access that holds the whole of them; a Connect that ends leaves
READY or FAILED with its status, and a pair that fails leaves FAILED with 0x0370, a disc that waits for its commands kept. -/
def clauseStoragePairsChangeState : Prop :=
  ∀ (s u : State) (p : Sealed) (c : Ctx) (h : BitVec 4) (v : Word), Accepted s p c false u → c.isLocked = true →
    let n := p.ctx.toNat
    let x := s.pair n h.toNat
    let put (y : Pair) (t : State) : State := t.setPair n h.toNat y
    let far := u.farAway (if x.port then 2 else 0) n x.cdva.toNat 1024 false
    (x.sst = 0 ∨ x.sst = 3 →
      (∀ t bs, far = false → u.readVirt (if x.port then 2 else 0) n x.cdva.toNat 1024 = (t, .ok bs) →
        exec (.storageConnect p h) s = .next (((put { x with sst := 1 } t).emit (.nvmConnect n h.toNat)).ack p [])) ∧
      (∀ t e, far = false → u.readVirt (if x.port then 2 else 0) n x.cdva.toNat 1024 = (t, e) → (∀ bs, e ≠ .ok bs) →
        ∃ nst, exec (.storageConnect p h) s = .next ((put { x with sst := 3, nst := nst } t).ack p [])) ∧
      (far = true → ∃ t : State, exec (.storageConnect p h) s = .next (t.ack p []) ∧ (t.pair n h.toNat).sst = 1 ∧
        t.held = s.held ++ [.connect n h.toNat] ∧ t.outbox = s.outbox) ∧
      exec (.registerWrite (.pair p h 0x1C) v) s = .next ((put { x with nsid := v } u).ack p []) ∧
      exec (.registerWrite (.pair p h 0x18) v) s =
        .next ((put { x with tport := v.truncate 16, port := v.getLsbD 16 } u).ack p []) ∧
      exec (.registerWrite (.pair p h 0x28) v) s =
        .next ((put { x with qsz := v.truncate 16, lbs := (v >>> 16).truncate 16 } u).ack p []) ∧
      (∀ off ∈ [0x08, 0x0C, 0x10, 0x14, 0x20, 0x24], exec (.registerWrite (.pair p h off) v) s = .next ((put x u).ack p [])) ∧
      ∀ (w0 w1 w2 w3 : Word) (lo hi : Word),
        (∃ t : State, exec (.rdmaWriteVirtual p 1 (BitVec.ofNat 64 (0x40008 + 64 * h.toNat))
            ([w0, w1, w2, w3].flatMap (fun w => leBytes 4 w.toNat))) s = .next (t.ack p []) ∧ { t with ctxs := u.ctxs } = u ∧
          t.pair n h.toNat = { x with taddr := #v[w0, w1, w2, w3] }) ∧
        ∃ t : State, exec (.rdmaWriteVirtual p 1 (BitVec.ofNat 64 (0x40020 + 64 * h.toNat))
            (leBytes 4 lo.toNat ++ leBytes 4 hi.toNat)) s = .next (t.ack p []) ∧ { t with ctxs := u.ctxs } = u ∧
          t.pair n h.toNat = { x with cdva := BitVec.ofNat 52 (lo.toNat + 2 ^ 32 * hi.toNat) }) ∧
    (x.sst = 1 ∨ x.sst = 2 → exec (.storageConnect p h) s = .next (u.ack p []) ∧
      ∀ off : BitVec 6, off.toNat ≠ 0 → exec (.registerWrite (.pair p h off) v) s = .next ((put x u).ack p [])) ∧
    (s.pairBusy n h.toNat = false →
      exec (.storageDisconnect p h) s = .next ((put { x with sst := 0, disc := false } u).ack p [])) ∧
    (s.pairBusy n h.toNat = true →
      exec (.storageDisconnect p h) s = .next ((put { x with disc := true } u).ack p [])) ∧
    ∀ (nst id : BitVec 16),
      (x.sst = 1 →
        exec (.storageConnectComplete p.ctx h true nst id) s = .next (put { x with sst := 2, nst := nst, cntlid := id } s) ∧
        exec (.storageConnectComplete p.ctx h false nst id) s = .next (put { x with sst := 3, nst := nst } s)) ∧
      (x.sst ≠ 1 → ∀ ok, exec (.storageConnectComplete p.ctx h ok nst id) s = .next s) ∧
      (x.sst ≠ 2 → exec (.storagePairFailure p.ctx h) s = .next s) ∧
      (x.sst = 2 → exec (.storagePairFailure p.ctx h) s = .next ((s.pairCmds n h.toNat).foldl (fun t e =>
        t.endCmd e.1 e.2 (BitVec.ofNat 32 (0x08 + 0x0370 * 2 ^ 13)) 0) (put { x with sst := 3, nst := 0x0370 } s)))

/-- The launch record at count `head`, its slot numbers taken modulo the ring (R325). -/
def recordRun (q : Queue) (n : Nat) : List Nat :=
  (List.range n).map (fun i => q.b.lva.toNat + 64 * ((q.head.toNat + i) % 2 ^ q.b.lsz.toNat))

/-- A queue has taken an unreadable record of one slot (R326). -/
def tookUnreadable (t u : State) (qid : Nat) (q : Queue) : Prop :=
  ∀ q', t.queues.get? qid = some q' → ∃ r q'', u.recs.get? t.nextRec = some r ∧ r.bad = some 4 ∧ r.qid = qid ∧ r.ctx = q.ctx ∧
    r.st = .ready ∧ u.nextRec = t.nextRec + 1 ∧ u.queues.get? qid = some q'' ∧ q''.head = q'.head + 1 ∧
    q''.fetched = some t.nextRec ∧ u.mem = t.mem

/-- R322 and R326: an ACTIVE queue with room for one record fetches the one at head once tail covers it; a ring that faults in
translation halts the queue with cause 2, and a slot that meets an uncorrectable error counts as an unreadable record of
one slot, whose fields the model leaves free. While no link reaches another package, the fetch waits where the first slot or one
of the record's own ns + 1 slots lies there (R370). -/
def clauseRecordsAreFetched : Prop :=
  ∀ (s t : State) (qid : BitVec 12) (q : Queue), s.queues.get? qid.toNat = some q →
    let i : Instr := .launchRecordFetch qid
    let have_ := (q.tail - q.head).toNat
    let first := s.dropLines.readSlots (qid.toNat / 1024) q.ctx (recordRun q 1)
    let reach (t : State) (n : Nat) : Prop := ∀ a ∈ recordRun q n, t.farAway (qid.toNat / 1024) q.ctx a 64 false = false
    let near : Prop := reach s 1
    (q.st ≠ .active ∨ q.fetched.isSome = true ∨ have_ = 0 ∨ ¬near → exec i s = .next s) ∧
    (q.st = .active → q.fetched = none → 0 < have_ → near →
      (∀ va, first = (t, .fault va) → exec i s = .next (t.haltQueue qid.toNat 2 va)) ∧
      (∀ l, first = (t, .ue l) → ∃ u, exec i s = .next u ∧ tookUnreadable t u qid.toNat q) ∧
      ∀ h, first = (t, .ok h) →
        let ns := leNat h / 2 ^ 8 % 16
        let all := t.readSlots (qid.toNat / 1024) q.ctx (recordRun q (ns + 1))
        (have_ < ns + 1 ∨ ¬reach t (ns + 1) → exec i s = .next t) ∧
        (ns + 1 ≤ have_ → reach t (ns + 1) →
          (∀ u bs, all = (u, .ok bs) → exec i s = .next (u.takeRecord qid.toNat q (leNat bs) ns)) ∧
          (∀ u l, all = (u, .ue l) → ∃ v, exec i s = .next v ∧ tookUnreadable u v qid.toNat q) ∧
          ∀ u va, all = (u, .fault va) → exec i s = .next (u.haltQueue qid.toNat 2 va)))

/-- The header of a record that is well formed (R325, R326). -/
def headerOk (s : State) (q : Queue) (n : Nat) : Prop :=
  n / 16 % 16 = 0 ∧ n / 2 ^ 14 % 4 = 0 ∧ n / 2 ^ 32 % 2 ^ 32 = q.head.toNat ∧
    (n / 2 ^ 12 % 2 = 1 → (s.cfgWord q.ctx 5).toNat % 2 ^ 32 ≠ 0)

/-- A state in which a queue has taken record `r` of number `n` and `ns` + 1 slots. -/
def tookRecord (s : State) (qid : Nat) (q : Queue) (n ns : Nat) (t : State) (r : Rec) : Prop :=
  ∃ q', t.recs.get? s.nextRec = some r ∧ t.nextRec = s.nextRec + 1 ∧
    t.queues.get? qid = some q' ∧ q'.head = q.head + BitVec.ofNat 32 (ns + 1) ∧ q'.fetched = some s.nextRec ∧
    q'.open_ = q.open_ ++ [s.nextRec] ∧ r.form.toNat = n % 16 ∧ r.es = (n / 2 ^ 13 % 2 == 1) ∧ r.rb = (n / 2 ^ 12 % 2 == 1) ∧
    r.utag.toNat = n / 2 ^ 16 % 2 ^ 16 ∧ r.seq.toNat = n / 2 ^ 32 % 2 ^ 32 ∧ r.qid = qid ∧ r.ctx = q.ctx ∧ r.st = .ready

/-- R326 and R336: the record that a queue takes is the one after head with the fields of its header; head moves past its
slots; a mark of one slot whose header is right is well formed, and an unknown form, a wrong seq, a reserved bit of the
header, and rb without a write log make it malformed. -/
def clauseRecordHeaders : Prop :=
  ∀ (s : State) (qid : Nat) (q : Queue) (n ns : Nat), s.queues.get? qid = some q →
    let form := n % 16
    (form = 5 ∨ form = 0 ∨ 6 ≤ form ∨ ¬headerOk s q n →
      ∃ r, tookRecord s qid q n ns (s.takeRecord qid q n ns) r ∧ (s.takeRecord qid q n ns).mem = s.mem ∧
        (form ≠ 5 ∨ ¬headerOk s q n → r.bad = some 2) ∧
        (form = 5 → headerOk s q n → n / 2 ^ 64 = 0 → ns = 0 → r.bad = none))

/-- The bits `w` wide at position `p` of a record. -/
def recBits (n p w : Nat) : Nat := n / 2 ^ p % 2 ^ w

/-- The bodies of R336, R338 and R339 that break no rule: the descriptors' addresses, the arguments, the join's count, and the
least and most teams of each stage. -/
def bodyIs (n ns : Nat) (ks : List Nat) (as : List Word) (J : Nat) (stages : List (Nat × Nat)) : Prop :=
  let at_ (p m : Nat) : List Nat := (List.range m).map (fun i => recBits n (p + 128 * i) 52)
  let arg (p m : Nat) : List Word := (List.range m).map (fun i => BitVec.ofNat 32 (recBits n (p + 128 * i) 32))
  (∀ a ∈ ks, a % 64 = 0) ∧
  match n % 16 with
  | 1 => ns = 0 ∧ onlyFields n [(0, 64), (64, 52), (128, 64), (192, 1)] = true ∧ ks = at_ 64 1 ∧ as = arg 128 1 ∧ J = 0 ∧ stages = []
  | 2 =>
    let m := recBits n 64 3 + 1
    2 ≤ m ∧ ns = (32 + 16 * m + 63) / 64 - 1 ∧
      onlyFields n ((0, 67) :: (List.range m).flatMap (fun i => [(128 + 128 * i, 52), (192 + 128 * i, 32)])) = true ∧
      ks = at_ 128 m ∧ as = arg 192 m ∧ J = 0 ∧ stages = []
  | 3 =>
    let S := recBits n 64 3 + 1
    let P := recBits n 72 5
    let B := recBits n 80 8
    let pipe (i p w : Nat) : Nat := recBits n (128 + 128 * S + 64 * i + p) w
    P ≤ 16 ∧ 1 ≤ B ∧ B ≤ 64 ∧ ns = (16 + 16 * S + 8 * P + 63) / 64 - 1 ∧
      onlyFields n ([(0, 64), (64, 3), (72, 5), (80, 8)] ++
        (List.range S).flatMap (fun i => [(128 + 128 * i, 52), (192 + 128 * i, 32), (224 + 128 * i, 10), (240 + 128 * i, 10)]) ++
        (List.range P).flatMap (fun i => [(128 + 128 * S + 64 * i, 6), (136 + 128 * S + 64 * i, 17)])) = true ∧
      (∀ i < P, pipe i 0 3 < S ∧ pipe i 3 3 < S ∧ pipe i 0 3 ≠ pipe i 3 3 ∧ pipe i 16 4 ∈ [0, 1, 2, 10, 11, 12, 13] ∧
        pipe i 20 4 ∈ [0, 1, 2, 10, 11, 12, 13]) ∧
      stages = (List.range S).map (fun i => (recBits n (224 + 128 * i) 10, recBits n (240 + 128 * i) 10)) ∧
      (∀ x ∈ stages, 1 ≤ x.1 ∧ x.1 ≤ x.2 ∧ x.2 ≤ 512) ∧ (stages.map (·.1)).sum ≤ B ∧ B ≤ (stages.map (·.2)).sum ∧
      ks = at_ 128 S ∧ as = arg 192 S ∧ J = 0
  | 4 => ns = 0 ∧ onlyFields n [(0, 64), (64, 16), (128, 52), (192, 32)] = true ∧ J = recBits n 64 16 ∧ J ≠ 0 ∧
      ks = at_ 128 1 ∧ as = arg 192 1 ∧ stages = []
  | _ => False

/-- The descriptors of a record as its slice's die reads them: `none` where one cannot be read. -/
def descriptorsRead (die ctx : Nat) : State → List Nat → State × Option (List (Option KDesc))
  | s, [] => (s, some [])
  | s, a :: as =>
    match s.readVirt die ctx a 192 with
    | (s, .ok bs) => ((descriptorsRead die ctx s as).1, (descriptorsRead die ctx s as).2.map (parseDesc bs :: ·))
    | (s, _) => (s, none)

/-- R334 and R335: where the fields of a kernel descriptor stand, and the descriptors that are well formed. -/
def clauseDescriptorsAreParsed : Prop :=
  ∀ bs : List Byte,
    let f (p w : Nat) : Nat := recBits (leNat bs) p w
    let regions := (List.range 16).map (fun i => (f (512 + 64 * i) 23, f (544 + 64 * i) 24, f (568 + 64 * i) 2))
    let owned := (regions.filter (fun r => r.2.2 ≠ 0 ∧ r.2.1 ≠ 0)).map (fun r => (r.1, r.1 + r.2.1))
    let d : KDesc :=
      { nsm := f 32 11, lp := f 43 1 == 1, tw := f 44 1 == 1, slo := f 64 8, shi := f 72 8, sv := f 80 1 == 1, eoff := f 96 18,
        tva := f 128 52, tsz := f 192 19, dsz := f 224 24, dva := f 256 52, mva := f 320 52, moff := f 384 20, msz := f 416 21,
        abase := f 448 9, acnt := f 464 10, regions := regions }
    let good : Prop := onlyFields (leNat bs) descFields = true ∧ f 0 16 = 0xA7D1 ∧ f 16 8 = 1 ∧ d.slo ≤ d.shi ∧
      d.eoff % 4 = 0 ∧ d.eoff < d.tsz ∧ d.tsz % 4 = 0 ∧ d.tsz ≤ 0x40000 ∧ d.dsz ≤ 0x800000 ∧ d.moff % 8 = 0 ∧
      d.moff + d.msz ≤ 0x100000 ∧ d.abase + (if d.acnt = 0 then 512 else d.acnt) ≤ 512 ∧
      (∀ r ∈ regions, r.1 % 64 = 0 ∧ r.2.1 % 64 = 0 ∧ (r.2.2 = 0 → r.2.1 = 0) ∧ r.1 + r.2.1 ≤ 0x800000 ∧
        (2 ≤ r.2.2 → r.1 % 4096 = 0)) ∧
      owned.Pairwise (fun a b => a.2 ≤ b.1 ∨ b.2 ≤ a.1) ∧ firstOutside owned 17 0 d.dsz = none
    (good → parseDesc bs = some d) ∧ (¬good → parseDesc bs = none)

/-- R326, R335 to R339: a record of forms 1 to 4 with a right header is malformed where its body or a descriptor breaks a rule,
unreadable where a descriptor cannot be read, and else well formed with its descriptors and arguments; a gang or a pipeline has
at most 64 teams, a stage at most those of its descriptor; while a descriptor is out of reach the record is not taken (R370); a
child counts toward the open join that it names, and without one, or beyond
its count, it is malformed. -/
def clauseRecordBodies : Prop :=
  clauseDescriptorsAreParsed ∧
  ∀ (s : State) (qid : Nat) (q : Queue) (n ns : Nat), s.queues.get? qid = some q → headerOk s q n → 1 ≤ n % 16 → n % 16 ≤ 4 →
    let t := s.takeRecord qid q n ns
    let child : Prop := n % 16 = 1 ∧ recBits n 192 1 = 1
    let join (j : Nat) : Prop := s.openJoin q (recBits n 160 32) = some j ∧ ∃ x, s.recs.get? j = some x ∧ 0 < x.joinSeen
    ((∀ ks as J stages, ¬bodyIs n ns ks as J stages) → ∃ r, tookRecord s qid q n ns t r ∧ r.bad = some 2 ∧
      ∀ j, child → join j → r.parent = some j) ∧
    (child → (∀ j, ¬join j) → ∃ r, tookRecord s qid q n ns t r ∧ r.bad = some 2 ∧ r.parent = none) ∧
    ∀ ks as J stages, bodyIs n ns ks as J stages →
      ¬child ∨ (∃ j, j < s.nextRec ∧ join j) →
      ((∃ a ∈ ks, s.farAway (qid / 1024) q.ctx a 192 false = true) → t = s) ∧ (
      (∀ a ∈ ks, s.farAway (qid / 1024) q.ctx a 192 false = false) → (child → s.linked = true) →
      ∃ r, tookRecord s qid q n ns t r ∧ (¬child → r.parent = none) ∧
        (∀ j, child → j < s.nextRec → join j → r.parent = some j ∧
          ∃ x y, s.recs.get? j = some x ∧ t.recs.get? j = some y ∧ y = { x with joinSeen := x.joinSeen - 1 }) ∧
        ∀ s1, (¬child ∧ s1 = s) ∨ (child ∧ ∃ j, join j ∧ s1 = s.updRec j (fun x => { x with joinSeen := x.joinSeen - 1 })) →
        ((descriptorsRead (qid / 1024) q.ctx s1 ks).2 = none → r.bad = some 4) ∧
        ∀ ds, (descriptorsRead (qid / 1024) q.ctx s1 ks).2 = some ds →
          let known := ds.filterMap id
          let ok : Prop := known.length = ds.length ∧ (n % 16 = 2 ∨ n % 16 = 3 → (known.map (fun d => (d.nsm + 4) / 4)).sum ≤ 64) ∧
            (n % 16 = 3 → ∀ x ∈ stages.zip known, x.1.2 ≤ (x.2.nsm + 4) / 4)
          (ok → r.bad = none ∧ r.descs = known ∧ r.args = as ∧ r.joinLeft = J ∧ r.stages = stages) ∧ (¬ok → r.bad = some 2))

/-- A record of a queue counts as complete for the records after it: it has gone, or it is an admitted continuation (R339). -/
def countsDone (s : State) (o : Nat) : Prop :=
  s.recs.get? o = none ∨ ∃ y, s.recs.get? o = some y ∧ y.form = 4 ∧ y.bad = none ∧ y.st ≠ .ready

/-- The record `r` of a queue competes for admission (R327, R339): the oldest parent of a join whose children have retired and
whose earlier records are done, or else the fetched record, once es lets it or every earlier record is done. -/
def competes (s : State) (q : Queue) (r : Nat) (x : Rec) : Prop :=
  let earlier (o : Nat) : Prop := ∀ p ∈ q.open_.takeWhile (· ≠ o), countsDone s p
  let parent (o : Nat) : Prop := o ∈ q.open_ ∧ ∃ y, s.recs.get? o = some y ∧ y.joinReady = true ∧ y.lids = [] ∧ y.st = .admitted ∧ earlier o
  s.recs.get? r = some x ∧
    ((parent r ∧ ∀ o ∈ q.open_.takeWhile (· ≠ r), ¬parent o) ∨
      ((∀ o, ¬parent o) ∧ q.fetched = some r ∧ (x.es = true ∨ earlier r)))

/-- R327, R328: among the ACTIVE queues of a slice whose candidate fits, those of the highest priority compete, an aged record at
3, each for its weight of consecutive admissions and then the next in rising id; the slices offer in turn. -/
def clauseSlicesChoose : Prop :=
  ∀ (s : State) (slice : Nat), (s.queues.map (·.1)).Pairwise (· < ·) →
    let os := s.offers slice
    (∀ w p wt, (w, p, wt) ∈ os ↔ ∃ q r x, s.queues.get? w = some q ∧ w / 1024 = slice ∧ q.st = .active ∧ competes s q r x ∧
      s.fits q x = true ∧ p = (if x.aged then 3 else q.b.pri.toNat) ∧ wt = q.b.wgt.toNat + 1) ∧
    (s.winner slice = none ↔ os = []) ∧
    (∀ w p, s.winner slice = some (w, p) → (∃ wt, (w, p, wt) ∈ os) ∧ (∀ o ∈ os, o.2.1 ≤ p) ∧
      ∀ last n, ((s.die slice).wrr.get? p).getD (0, 2 ^ 32) = (last, n) →
        let more : Prop := ∃ wt, (last, p, wt) ∈ os ∧ n < wt
        (more → w = last) ∧
        (¬more → (s.die slice).wrr.get? p ≠ none → (∃ o ∈ os, o.2.1 = p ∧ last < o.1) →
          last < w ∧ ∀ o ∈ os, o.2.1 = p → last < o.1 → w ≤ o.1) ∧
        (¬more → (s.die slice).wrr.get? p = none ∨ (∀ o ∈ os, o.2.1 = p → o.1 ≤ last) → ∀ o ∈ os, o.2.1 = p → w ≤ o.1)) ∧
    (∀ m, s.nextSlice = some m ↔ ∃ i < 4, m = (s.turn + 1 + i) % 4 ∧ s.winner m ≠ none ∧
      ∀ j < i, s.winner ((s.turn + 1 + j) % 4) = none)

/-- R327, R328, R329, R337, R339, R345: the queue that its slice chooses, when the slice's turn has come, admits its record with
a completion slot reserved: a malformed record completes with status 2, an unreadable one with 4, a mark and a continuation
are admitted without a kernel; a kernel record's kernel and every member of a gang are admitted at once, with the records
before that have not completed as producers; a ready parent is admitted as a kernel with none; a queue that is not chosen
admits nothing; a record that has waited competes at priority 3. A record that lacks only stook entries has the teams of the
cores chosen for it give up those beyond 512 first (R188; which cores is the model's free choice, log 28). -/
def clauseRecordsAreAdmitted : Prop :=
  clauseSlicesChoose ∧
  ∀ (s : State) (qid : BitVec 12) (q : Queue) (r : Nat) (x : Rec), s.queues.get? qid.toNat = some q → competes s q r x →
    let slice := qid.toNat / 1024
    let i : Instr := .recordAdmission qid
    let short (cs : List Nat) : Prop := q.st = .active ∧
      (x.joinReady = true ∨ (q.hasSlot = true ∧ x.bad = none ∧ x.form ≠ 5 ∧ x.form ≠ 4)) ∧
      s.planIn true x = none ∧ ∃ p, s.planIn false x = some p ∧ p.flatten = cs ∧ cs ≠ []
    (∃ t, exec (.recordAging qid) s = .next t ∧ t.recs.get? r = some { x with aged := true } ∧ { t with recs := s.recs } = s) ∧
    (∀ cs, short cs → exec i s = .next (cs.foldl State.makeRoom s)) ∧
    ((∀ cs, ¬short cs) → (∀ p, s.winner slice ≠ some (qid.toNat, p)) ∨ s.nextSlice ≠ some slice → exec i s = .next s) ∧
    ∀ p, s.winner slice = some (qid.toNat, p) → s.nextSlice = some slice →
      let took (t : State) : Prop := ∃ q', t.queues.get? qid.toNat = some q' ∧ q'.fetched = none ∧ q'.resv = q.resv + 1 ∧
        q'.head = q.head ∧ q'.open_ = q.open_ ∧ t.turn = slice ∧
        (t.die slice).wrr.get? p = some (qid.toNat, match (s.die slice).wrr.get? p with
          | some (last, n) => if last = qid.toNat then n + 1 else 1
          | none => 1)
      (x.joinReady = false → ∀ st : BitVec 8, x.bad = some st →
        ∃ t x', exec i s = .next t ∧ took t ∧ t.recs.get? r = some x' ∧ x'.st = .complete st ∧ t.mem = s.mem ∧
          t.strands = s.strands ∧ t.kernels = s.kernels) ∧
      (x.joinReady = false → x.bad = none → x.form = 5 ∨ x.form = 4 →
        ∃ t x', exec i s = .next t ∧ took t ∧ t.recs.get? r = some x' ∧ x'.st = .admitted ∧ x'.lids = x.lids ∧ t.mem = s.mem ∧
          t.strands = s.strands ∧ t.kernels = s.kernels) ∧
      (∀ d a cs, x.bad = none → x.descs = [d] → x.args = [a] → x.lids = [] → s.plan x = some [cs] →
        x.joinReady = true ∨ x.form = 1 →
        let ps := if x.es ∧ x.joinReady = false then q.open_.takeWhile (· ≠ r) else []
        (∀ e ∈ s.kernels, e.2.recId ∈ ps → e.2.fired = true ∨ e.2.st.live = true) →
        ∃ t x' k, exec i s = .next t ∧ (x.joinReady = false → took t) ∧ t.recs.get? r = some x' ∧ x'.st = .admitted ∧
          x'.lids = [s.nextLid] ∧ t.kernels.get? s.nextLid = some k ∧ k.st = .admitted ∧ k.desc = d ∧ k.arg = a ∧ k.recId = r ∧
          k.ctx = x.ctx ∧ (∀ o, o ∈ k.producers ↔ o ∈ ps ∧ ¬countsDone s o) ∧
          t.nextLid = if s.nextLid + 1 = 2 ^ 32 then 1 else s.nextLid + 1) ∧
      (∀ cs, x.joinReady = false → x.bad = none → x.form = 2 ∨ x.form = 3 → x.es = false → x.lids = [] → s.plan x = some cs →
        x.args.length = x.descs.length → cs.length = x.descs.length →
        ∃ t x', exec i s = .next t ∧ took t ∧ t.recs.get? r = some x' ∧ x'.st = .admitted ∧ x'.lids.length = x.descs.length)

/-- R322 and R325 to R328: how a queue fetches its records, what it takes from a header, and how they are admitted. -/
def Obligations.RecordsAreFetchedAndAdmitted : Prop :=
  clauseRecordsAreFetched ∧ clauseRecordHeaders ∧ clauseRecordBodies ∧ clauseRecordsAreAdmitted

/-- R329: where the fields of a completion record stand. -/
def clauseCompletionLayout : Prop :=
  ∀ (s : State) (q : Queue) (x : Rec) (status : BitVec 8), x.qid < 4096 → (∀ l ∈ x.lids, l < 2 ^ 32) →
    let n := leNat (s.completionBytes q x status)
    n % 2 ^ 8 = status.toNat ∧ n / 2 ^ 8 % 2 ^ 4 = x.form.toNat ∧
    n / 2 ^ 31 % 2 = (if q.ctail.toNat / 2 ^ q.b.csz.toNat % 2 = 0 then 1 else 0) ∧ n / 2 ^ 32 % 2 ^ 16 = x.utag.toNat ∧
    n / 2 ^ 48 % 2 ^ 16 = x.qid ∧ n / 2 ^ 64 % 2 ^ 32 = x.seq.toNat ∧ n / 2 ^ 96 % 2 ^ 32 = x.lids.headD 0 ∧
    (status = 0 → n / 2 ^ 192 = 0)

/-- Nothing of a kernel is left: it is gone, or it has reached an end of R333 with no sheaf, and no transfer, of it on a core and no
contribution of it on its way. -/
def kernelEnded (s : State) (l : Nat) : Prop :=
  s.kernels.get? l = none ∨ ∃ k, s.kernels.get? l = some k ∧ k.st ∈ [.retired, .failed, .stopped, .serviced] ∧
    (∀ c ∈ s.cores, (∀ h ∈ c.2.stook, h.lid ≠ l) ∧ ∀ x ∈ c.2.tq, x.lid ≠ l) ∧ ∀ x ∈ s.contribs, x.lid ≠ l

/-- R330: the status of a record that can complete: that of a malformed or unreadable one, 0 for a mark once every earlier record
is done, and for its kernels, once all have ended, 1 if one failed, else 3 or 5 if one was stopped, else 0. -/
def clauseRecordsEndWithAStatus : Prop :=
  ∀ (s : State) (r : Nat) (x : Rec) (q : Queue), s.recs.get? r = some x → s.queues.get? x.qid = some q →
    let some_ (st : KSt) : Prop := ∃ l ∈ x.lids, ∃ k, s.kernels.get? l = some k ∧ k.st = st
    (x.st = .ready → s.recStatus r x = none) ∧
    (∀ st, x.st = .complete st → s.recStatus r x = some st) ∧
    (x.st = .admitted → x.form = 5 →
      ((∀ o ∈ q.open_.takeWhile (· ≠ r), countsDone s o) → s.recStatus r x = some 0) ∧
      (¬(∀ o ∈ q.open_.takeWhile (· ≠ r), countsDone s o) → s.recStatus r x = none)) ∧
    (x.st = .admitted → x.form ≠ 5 →
      (x.lids = [] ∨ (∃ l ∈ x.lids, ¬kernelEnded s l) → s.recStatus r x = none) ∧
      (x.lids ≠ [] → (∀ l ∈ x.lids, kernelEnded s l) →
        (some_ .failed → s.recStatus r x = some 1) ∧
        (¬some_ .failed → some_ .stopped → s.recStatus r x = some 3) ∧
        (¬some_ .failed → ¬some_ .stopped → some_ .serviced → s.recStatus r x = some 5) ∧
        (¬some_ .failed → ¬some_ .stopped → ¬some_ .serviced → s.recStatus r x = some 0)))

/-- R322, R329, R330, R339: the completion record of the record of a queue that completed first goes to the slot at ctail, and ctail
advances; those known to have completed keep their order, and of those that complete at once the earlier in the ring is first. The
record, its kernels and its reserved slot are gone; with hof a status that is not 0 halts the queue with cause 1; a write
that faults halts it with cause 3, and while it is so halted, or the ring is full, nothing is written. A child lowers its
join's count and records whether it retired; the last leaves the parent ready, or complete with status 1 and fk 7. -/
def clauseCompletionsAreWritten : Prop :=
  clauseRecordsEndWithAStatus ∧
  ∀ (s u : State) (r : Nat) (x : Rec) (q q' : Queue) (status : BitVec 8), s.recs.get? r = some x →
    s.queues.get? x.qid = some q → s.recStatus r x = some status →
    let i : Instr := .completionRecordWrite r
    let va := q.b.cva.toNat + 128 * (q.ctail.toNat % 2 ^ q.b.csz.toNat)
    let w := s.writeVirt (x.qid / 1024) x.ctx va (s.completionBytes q x status)
    let first : Prop := q.done.head? = some r ∨ (q.done = [] ∧ r ∈ q.open_ ∧
      ∀ o ∈ q.open_.takeWhile (· ≠ r), ∀ y, s.recs.get? o = some y → s.recStatus o y = none)
    let waits : Prop := ¬first ∨ (q.st = .halted ∧ q.hc = 3) ∨ 2 ^ q.b.csz.toNat ≤ (q.ctail - q.chead).toNat ∨
      s.farAway (x.qid / 1024) x.ctx va 128 true = true
    (waits → exec i s = .next s) ∧
    (¬waits →
      (∀ a, w = (u, some a) → exec i s = .next (if q.st = .active then u.haltQueue x.qid 3 a else u)) ∧
      (w = (u, none) → u.queues.get? x.qid = some q' → u.recs = s.recs →
        ∃ t e, exec i s = .next t ∧ t.recs.get? r = none ∧ (∀ l ∈ x.lids, t.kernels.get? l = none) ∧
          t.queues.get? x.qid = some e ∧ e.ctail = q'.ctail + 1 ∧ e.resv = q'.resv - 1 ∧ r ∉ e.open_ ∧ r ∉ e.done ∧ e.head = q'.head ∧
          (status ≠ 0 → q.b.hof = true → q.st = .active → e.st = .halted ∧ e.hc = 1) ∧
          (status = 0 ∨ q.b.hof = false ∨ q.st ≠ .active → e.st = q'.st ∧ e.hc = q'.hc) ∧
          ∀ j y, x.parent = some j → j ≠ r → s.recs.get? j = some y →
            let bad := y.joinBad || decide (status ≠ 0)
            ∃ y', t.recs.get? j = some y' ∧ y'.joinLeft = y.joinLeft - 1 ∧ y'.joinBad = bad ∧
              (2 ≤ y.joinLeft → y'.st = y.st ∧ y'.joinReady = y.joinReady) ∧
              (y.joinLeft = 1 → bad = false → y'.st = y.st ∧ y'.joinReady = true) ∧
              (y.joinLeft = 1 → bad = true → y'.st = .complete 1 ∧ y'.fl = some { Faults.none with fk := 7 })))

/-- R288, R332: the events that may be posted next are, of X0, whichever came first of the backlog's oldest and its oldest
translation fault of the context, and each other die's oldest translation fault; after a write that faulted it is that event again; an event that a context cannot hold, with 256 waiting, is lost and
counted; one of a ring that is not in use is dropped. -/
def clauseEventsWait : Prop :=
  ∀ (s : State) (n : Nat) (c : Ctx) (e : List Byte), s.ctxs.get? n = some c →
    let fault (d : Nat × Die) (i : Nat) (f : FaultEvent) : Prop := d.2.faults[i]? = some f ∧ f.ctx = n ∧
      ∀ j < i, ∀ g, d.2.faults[j]? = some g → g.ctx ≠ n
    let oldest (x : List Byte × Option (Nat × Nat)) : Prop := x.2 = none ∧ c.waiting.head? = some x.1
    let ofDie (x : List Byte × Option (Nat × Nat)) (k : Nat) : Prop := ∃ d ∈ s.dies, d.1 = k ∧ ∃ i f, fault d i f ∧ x = (f.bytes, some (k, i))
    let first : Prop := c.waiting = [] ∨ ∃ i f, fault (0, s.die 0) i f ∧ f.behind = 0
    (∀ x, x ∈ s.nextEvents n c ↔
      (c.retry = none ∧ ((¬first ∧ oldest x) ∨ ∃ k, (first ∨ k ≠ 0) ∧ ofDie x k)) ∨ (c.retry = some 0 ∧ oldest x) ∨ ∃ k, c.retry = some (k + 1) ∧ ofDie x k) ∧
    { s.postEvent n e with ctxs := s.ctxs } = s ∧
    (s.postEvent n e).ctxs.get? n = some (if c.est = 0 then c else if 256 ≤ c.waiting.length then { c with elost := c.elost + 1 }
      else { c with waiting := c.waiting ++ [e] })

/-- R332: an event goes to the slot at etail of a ring that is in use and has room, with its phase bit, and etail advances;
a full ring holds it, and a write that faults halts the ring with the event left where it waits. -/
def clauseEventsArePosted : Prop :=
  clauseEventsWait ∧
  ∀ (s : State) (ctx : BitVec 6) (c : Ctx), s.ctxs.get? ctx.toNat = some c →
    let n := ctx.toNat
    let i : Instr := .eventRingPost ctx
    let va := (c.word 1).toNat % 2 ^ 52 + 64 * (c.etail.toNat % c.ringSize)
    let slot (e : List Byte) (u : State) (a : Option Nat) : Prop :=
      s.writeVirt 0 n va (if c.etail.toNat / c.ringSize % 2 = 0 then leBytes 64 (leNat e + 2 ^ 511) else e) = (u, a)
    (c.est = 0 ∨ c.est = 3 → exec i s = .next s) ∧
    (c.est = 1 ∨ c.est = 2 →
      (c.ringSize ≤ (c.etail - c.ehead).toNat → exec i s = .next (s.updCtx n (fun c => { c with est := 2 }))) ∧
      ((c.etail - c.ehead).toNat < c.ringSize →
        (s.nextEvents n c = [] ∨ s.farAway 0 n va 64 true = true → exec i s = .next s) ∧
        (s.nextEvents n c ≠ [] → s.farAway 0 n va 64 true = false → ∃ x ∈ s.nextEvents n c, ∀ u,
          (slot x.1 u none → exec i s = .next ((u.takeEvent n x.2).updCtx n (fun c => { c with
            etail := c.etail + 1, retry := none, est := if c.ringSize ≤ (c.etail + 1 - c.ehead).toNat then 2 else 1 }))) ∧
          ∀ a, slot x.1 u (some a) → exec i s = .next (u.updCtx n (fun c => { c with
            est := 3, retry := some ((x.2.map (fun p => p.1 + 1)).getD 0) })))))

/-- R322, R329, R330, R332: completion records and events, as they are laid out and written to their rings. That the lid of a record
of a gang or a pipeline is that of member 0, and when a kernel of an ended stage is over, are the model's choices (logs 26, 30). -/
def Obligations.CompletionsAndEventsFillTheirRings : Prop :=
  clauseCompletionLayout ∧ clauseCompletionsAreWritten ∧ clauseEventsArePosted

/-- R322 to R324, R332, R377 to R381: the host's accesses to the window of its context. That both ports of a context share one
sequence number and one highest number accepted is the model's choice (log 33). -/
def Obligations.HostWindowMovesQueuesAndPairs : Prop := clauseHostPointersMoveQueues ∧ clauseStoragePairsChangeState

/-! ## Management requests, contexts and their sessions (R299 to R314, R253, R287, R289) -/

/-- A request can be made in its session: the session is established and of the kind `k`, the secured message verifies, no
firmware is changing, no request waits, and the device is READY (R302, R306 to R308, R386, R389). -/
structure Asks (s : State) (m : Mgmt) (k : SessKind) : Prop where
  sess : s.sessions.get? m.sess = some k
  sound : m.sound = true
  quiet : s.activating = []
  first : s.requests = []
  ready : s.dev = .ready

/-- A request of the operation `op` whose payload is `n` bytes long. -/
def ask (m : Mgmt) (op : BitVec 8) (n : Nat) : Mgmt := { m with op := op, len := BitVec.ofNat 32 n }

/-- The response to a request of the operation `op` (R308): the request's first word, a result, a length and a payload. -/
def answered (m : Mgmt) (op : BitVec 8) (res : BitVec 8) (bs : List Byte) (t : State) : State :=
  t.emit (.resp m.sess (leBytes 4 (op.toNat + m.ctx.toNat * 2 ^ 8 + m.tag.toNat * 2 ^ 16) ++ leBytes 4 res.toNat ++
    leBytes 4 bs.length ++ bs))

/-- A request of R311: who may make it (1 the administrator, 2 the tenant of the context, 3 both), its number, and the length of
its payload, which the spec leaves to its fields (log 31). -/
def requestOf : Instr → Option (Mgmt × Nat × BitVec 8 × Nat)
  | .create m .. => some (m, 1, 0x01, 68)
  | .grant m .. => some (m, 1, 0x02, 16)
  | .release m .. => some (m, 1, 0x03, 16)
  | .writeConfig m _ ws => some (m, 1, 0x04, 4 + 8 * ws.length)
  | .readConfig m .. => some (m, 3, 0x05, 8)
  | .bindQueue m .. => some (m, 1, 0x06, 24)
  | .unbindQueue m .. => some (m, 1, 0x07, 4)
  | .lock m => some (m, 1, 0x08, 0)
  | .getReport m .. => some (m, 2, 0x09, 32)
  | .start m => some (m, 2, 0x0A, 0)
  | .stop m => some (m, 3, 0x0B, 0)
  | .teardown m => some (m, 1, 0x0C, 0)
  | .resumeOne m .. => some (m, 2, 0x10, 12)
  | .resumeRange m .. => some (m, 2, 0x11, 16)
  | .failCommand m .. => some (m, 2, 0x12, 12)
  | .readSuspension m .. => some (m, 2, 0x13, 12)
  | .setPackage m .. => some (m, 1, 0x20, 4)
  | .countersRead m _ offs => some (m, 1, 0x21, 4 + 4 * offs.length)
  | .countersWrite m _ os vs => some (m, 1, 0x21, 4 + 4 * (os.length + vs.length))
  | .errorLogRead m .. => some (m, 1, 0x22, 8)
  | .errorLogClear m .. => some (m, 1, 0x22, 8)
  | .errorLogPop m .. => some (m, 1, 0x22, 8)
  | .inject m .. => some (m, 1, 0x23, 20)
  | .loadImage m _ g => some (m, 1, 0x24, 132 + g.body.length)
  | .activate m .. => some (m, 1, 0x25, 8)
  | .startDeviceCold m => some (m, 1, 0x26, 4)
  | .startDeviceWarm m => some (m, 1, 0x26, 4)
  | .retrainLink m .. => some (m, 1, 0x27, 4)
  | .spare m .. => some (m, 1, 0x28, 8)
  | .retireCore m .. => some (m, 1, 0x29, 4)
  | .fenceIn m .. => some (m, 1, 0x2A, 8)
  | .fenceOut m .. => some (m, 1, 0x2A, 8)
  | _ => none

/-- The payload of a request of R311, as its fields lie one after another (the model's choice, log 31). -/
def payloadOf : Instr → List Byte
  | .create _ q digest => leBytes 4 q.toNat ++ digest
  | .grant _ base size | .release _ base size => leBytes 8 base.toNat ++ leBytes 8 size.toNat
  | .writeConfig _ off ws => leBytes 4 off ++ ws.flatMap (fun w => leBytes 8 w.toNat)
  | .readConfig _ off n => leBytes 4 off ++ leBytes 4 n
  | .bindQueue _ b =>
    leBytes 4 (b.qid.toNat + b.pri.toNat * 2 ^ 16 + b.wgt.toNat * 2 ^ 18 + (if b.hof then 2 ^ 22 else 0)) ++
      leBytes 4 (b.lsz.toNat + b.csz.toNat * 2 ^ 8) ++ leBytes 8 b.lva.toNat ++ leBytes 8 b.cva.toNat
  | .unbindQueue _ qid => leBytes 4 qid.toNat
  | .getReport _ nonce => nonce
  | .resumeOne _ eng num | .failCommand _ eng num | .readSuspension _ eng num => leBytes 4 eng ++ leBytes 8 num
  | .resumeRange _ lo hi => leBytes 8 lo.toNat ++ leBytes 8 hi.toNat
  | .setPackage _ pkg => leBytes 4 pkg.toNat
  | .countersRead _ die offs => leBytes 4 die ++ offs.flatMap (leBytes 4)
  | .countersWrite _ die offs vs => leBytes 4 (die + 2 ^ 31) ++ offs.flatMap (leBytes 4) ++ vs.flatMap (fun v => leBytes 4 v.toNat)
  | .errorLogRead _ unit arr => leBytes 4 unit.toNat ++ leBytes 4 (arr % 256)
  | .errorLogClear _ unit arr => leBytes 4 unit.toNat ++ leBytes 4 (arr % 256 + 256)
  | .errorLogPop _ unit arr => leBytes 4 unit.toNat ++ leBytes 4 (arr % 256 + 512)
  | .inject _ unit arr addr arm iue => leBytes 4 unit.toNat ++ leBytes 4 arr ++ leBytes 8 addr.toNat ++
      leBytes 4 ((if arm then 1 else 0) + (if iue then 2 else 0))
  | .loadImage _ dies g => leBytes 4 dies.toNat ++ imageBytes g ++ g.sig
  | .activate _ dies idx => leBytes 4 dies.toNat ++ leBytes 4 idx.toNat
  | .startDeviceCold _ => leBytes 4 0
  | .startDeviceWarm _ => leBytes 4 1
  | .retrainLink _ link => leBytes 4 link
  | .spare _ unit (.row r) => leBytes 4 unit.toNat ++ leBytes 4 r
  | .spare _ unit (.channel c) => leBytes 4 unit.toNat ++ leBytes 4 (c + 2 ^ 31)
  | .retireCore _ core => leBytes 4 core.toNat
  | .fenceIn _ unit => leBytes 4 unit.toNat ++ leBytes 4 1
  | .fenceOut _ unit => leBytes 4 unit.toNat ++ leBytes 4 0
  | _ => []

/-- A request names a context, and one that waits names the same (R302). -/
def waitsForContext (s : State) (m : Mgmt) : Prop :=
  m.op.toNat < 0x20 ∧ ∃ i ∈ s.requests, ∃ h, headerOf i = some h ∧ h.op.toNat < 0x20 ∧ h.ctx = m.ctx

/-- R302, R306 to R311, R389: where the fields of a request stand; a request in no established session has no effect, and one that
does not verify fails its session; one that reaches X0 while its firmware changes waits, and so does one that names a context that
an earlier waiting request names; the operation byte selects the operation, to which the payload belongs; an operation the device
does not know, a length that is not that of the operation's payload and a payload above 4,096 bytes are malformed (result 1); a
session that the operation does not allow gets result 2, if the request is not malformed; nothing else changes. -/
def clauseRequestsAreCheckedInOrder : Prop :=
  (∀ (m : Mgmt) (payload : List Byte), mgmtOf m.sess m.sound (leBytes 4 (m.op.toNat + m.ctx.toNat * 2 ^ 8 + m.tag.toNat * 2 ^ 16) ++
    leBytes 4 m.len.toNat ++ payload) = some m) ∧
  ∀ (s : State) (i : Instr) (m : Mgmt) (w : Nat) (op : BitVec 8) (len : Nat) (k : SessKind), requestOf i = some (m, w, op, len) →
    (s.sessions.get? m.sess = none → exec i s = .next s.taken) ∧
    (∀ t, s.sessions.get? m.sess = some (.opening t) → exec i s = .next s.taken) ∧
    ((∀ x, s.cur ≠ .waiting x) → s.taken = s) ∧
    (∀ x, s.cur = .waiting x → s.taken = { s with requests := s.requests.erase x }) ∧
    (s.sessions.get? m.sess = some k → (k = .admin ∨ ∃ c, k = .tenant c) →
      (m.sound = false → exec i s = .next (s.taken.endSess m.sess)) ∧
      (m.sound = true → (∃ a ∈ s.activating, ∃ ds ∈ a.2, 0 ∈ ds) ∨ waitsForContext s m → ∀ x, s.cur = .event x →
        exec i s = .next { s with requests := s.requests ++ [x] }) ∧
      (m.sound = true → s.activating = [] → s.requests = [] →
        (m.op = op →
          (m.len.toNat ≠ len ∨ 4096 < m.len.toNat → exec i s = .next (answered m m.op 1 [] s)) ∧
          ((k = .admin ∧ w = 2) ∨ (∃ c, k = .tenant c ∧ (w = 1 ∨ c ≠ m.ctx.toNat)) →
            exec i s = .next (answered m m.op 1 [] s) ∨ exec i s = .next (answered m m.op 2 [] s))) ∧
        (m.op ≠ op →
          (m.op.toNat ∉ [0x01, 0x02, 0x03, 0x04, 0x05, 0x06, 0x07, 0x08, 0x09, 0x0A, 0x0B, 0x0C, 0x10, 0x11, 0x12, 0x13, 0x14, 0x20,
              0x21, 0x22, 0x23, 0x24, 0x25, 0x26, 0x27, 0x28, 0x29, 0x2A] ∨ (payloadOf i).length ≠ m.len.toNat →
            exec i s = .next (answered m m.op 1 [] s)) ∧
          ((payloadOf i).length = m.len.toNat →
            (∀ p ∈ [((0x08 : BitVec 8), Instr.lock m), (0x0A, .start m), (0x0B, .stop m), (0x0C, .teardown m),
              (0x09, .getReport m (payloadOf i))], m.op = p.1 → exec i s = exec p.2 s) ∧
            ∀ (base size : DWord) (qid : BitVec 12) (eng num : Nat), eng < 2 ^ 32 → num < 2 ^ 64 →
              ∀ p ∈ [((0x02 : BitVec 8), Instr.grant m base size), (0x03, .release m base size), (0x11, .resumeRange m base size),
                (0x07, .unbindQueue m qid), (0x10, .resumeOne m eng num), (0x12, .failCommand m eng num),
                (0x13, .readSuspension m eng num), (0x05, .readConfig m eng (num % 2 ^ 32))],
              m.op = p.1 → payloadOf i = payloadOf p.2 → exec i s = exec p.2 s))))

/-- R301, R310, R311: a request about a context that is FREE gets result 4, if it is not malformed. -/
def clauseFreeContextsAreNamed : Prop :=
  ∀ (s : State) (m : Mgmt) (k : SessKind), Asks s m k → s.ctxs.get? m.ctx.toNat = none →
    (k = .admin → ∀ (base size : DWord) (qid : BitVec 12),
      ∀ p ∈ [((0x03 : BitVec 8), Instr.release (ask m 0x03 16) base size), (0x08, .lock (ask m 0x08 0)), (0x0B, .stop (ask m 0x0B 0)),
        (0x0C, .teardown (ask m 0x0C 0)), (0x05, .readConfig (ask m 0x05 8) 0 0), (0x07, .unbindQueue (ask m 0x07 4) qid)],
      exec p.2 s = .next (answered m p.1 4 [] s)) ∧
    (k = .tenant m.ctx.toNat → ∀ (lo hi : DWord),
      ∀ p ∈ [((0x0A : BitVec 8), Instr.start (ask m 0x0A 0)), (0x0B, .stop (ask m 0x0B 0)),
        (0x11, .resumeRange (ask m 0x11 16) lo hi), (0x10, .resumeOne (ask m 0x10 12) 0 0),
        (0x12, .failCommand (ask m 0x12 12) 0 0), (0x13, .readSuspension (ask m 0x13 12) 0 0)],
      exec p.2 s = .next (answered m p.1 4 [] s))

/-- R17, R202, R300, R301, R307: CREATE makes a context CONFIG_UNLOCKED with a configuration block of zeros but for its
quota; a live context, a device without its package number, and a digest or a quota that does not fit are refused. -/
def clauseContextsAreCreated : Prop :=
  ∀ (s : State) (m : Mgmt) (q : BitVec 6) (digest : List Byte), Asks s m .admin → digest.length = 64 →
    let i : Instr := .create (ask m 0x01 68) q digest
    let fits : Prop := (∀ c ∈ s.ctxs, c.2.digest ≠ digest) ∧ q.toNat + (s.ctxs.map (fun c => c.2.q)).sum ≤ 32
    (32 < q.toNat → exec i s = .next (answered m 0x01 1 [] s)) ∧
    (q.toNat ≤ 32 → s.ctxs.get? m.ctx.toNat ≠ none → exec i s = .next (answered m 0x01 4 [] s)) ∧
    (q.toNat ≤ 32 → s.ctxs.get? m.ctx.toNat = none →
      (s.pkg = none → exec i s = .next (answered m 0x01 3 [] s)) ∧
      (s.pkg ≠ none → ¬fits → exec i s = .next (answered m 0x01 6 [] s)) ∧
      (s.pkg ≠ none → fits → ∃ c, exec i s = .next (answered m 0x01 0 [] { s with ctxs := s.ctxs.set m.ctx.toNat c }) ∧
        c.st = .unlocked ∧ c.q = q.toNat ∧ c.digest = digest ∧ c.grants = [] ∧ c.queues = [] ∧ c.session = none ∧ c.est = 0 ∧
        c.word 6 = BitVec.ofNat 64 q.toNat ∧ ∀ j, j ≠ 6 → c.word j = 0))

/-- R293, R300, R305: in CONFIG_UNLOCKED a GRANT of a range of whole granules of the own package that meets no other adds it,
and a RELEASE of an exact grant removes it; either leaves the granules not live, reading zero, and no other memory changes.
In CONFIG_LOCKED and RUN any change of the frozen set, even to the value held, sends the context to ERROR with result 3. -/
def clauseGrantsAndTheFrozenSet : Prop :=
  ∀ (s : State) (m : Mgmt) (c : Ctx) (base size : DWord), Asks s m .admin → s.ctxs.get? m.ctx.toNat = some c →
    let n := m.ctx.toNat
    let x := base.toNat
    let z := size.toNat
    let whole : Prop := x % 65536 = 0 ∧ z % 65536 = 0 ∧ 0 < z ∧ s.isOwn x = true ∧ s.isOwn (x + z - 1) = true
    let dead (t : State) : Prop := (∀ y, x ≤ y → y < x + z → t.isLive y = false) ∧ t.strands = s.strands ∧
      (s.mem.wf = true → (∀ y, x ≤ y → y < x + z → t.mem.get y = 0) ∧ sameOutside s t x z)
    (c.st = .unlocked → whole →
      (64 ≤ c.grants.length ∨ (∃ e ∈ s.ctxs, ∃ g ∈ e.2.grants, x < g.1 + g.2 ∧ g.1 < x + z) →
        exec (.grant (ask m 0x02 16) base size) s = .next (answered m 0x02 6 [] s)) ∧
      (c.grants.length < 64 → (∀ e ∈ s.ctxs, ∀ g ∈ e.2.grants, x + z ≤ g.1 ∨ g.1 + g.2 ≤ x) →
        ∃ t, exec (.grant (ask m 0x02 16) base size) s = .next (answered m 0x02 0 [] t) ∧ dead t ∧
          t.ctxs.get? n = some { c with grants := c.grants ++ [(x, z)] }) ∧
      ((x, z) ∉ c.grants → exec (.release (ask m 0x03 16) base size) s = .next (answered m 0x03 1 [] s)) ∧
      ((x, z) ∈ c.grants → ∃ t, exec (.release (ask m 0x03 16) base size) s = .next (answered m 0x03 0 [] t) ∧ dead t ∧
        t.ctxs.get? n = some { c with grants := c.grants.erase (x, z) })) ∧
    (s.pkg ≠ none → ¬whole → exec (.grant (ask m 0x02 16) base size) s = .next (answered m 0x02 1 [] s)) ∧
    (c.st = .locked ∨ c.st = .run →
      (whole → exec (.grant (ask m 0x02 16) base size) s = .next (answered m 0x02 3 [] (s.leaveRun n .error))) ∧
      exec (.release (ask m 0x03 16) base size) s = .next (answered m 0x03 3 [] (s.leaveRun n .error)) ∧
      (∀ qid, exec (.unbindQueue (ask m 0x07 4) qid) s = .next (answered m 0x07 3 [] (s.leaveRun n .error))) ∧
      (∀ b, bindingOk b = true →
        exec (.bindQueue (ask m 0x06 24) b) s = .next (answered m 0x06 3 [] (s.leaveRun n .error))) ∧
      ∀ v, exec (.writeConfig (ask m 0x04 12) 0x28 [v]) s = .next (answered m 0x04 3 [] (s.leaveRun n .error))) ∧
    (c.st = .error → whole → exec (.grant (ask m 0x02 16) base size) s = .next (answered m 0x02 3 [] s) ∧
      exec (.release (ask m 0x03 16) base size) s = .next (answered m 0x03 3 [] s))

/-- R300 to R302, R305, R307 to R311: the checks of a request and how contexts are made and granted memory. -/
def clauseContextsAreMadeAndGranted : Prop :=
  clauseRequestsAreCheckedInOrder ∧ clauseFreeContextsAreNamed ∧ clauseContextsAreCreated ∧ clauseGrantsAndTheFrozenSet

/-- A value that word `j` of the configuration block may take (R291, R303). -/
def configFits (s : State) (j : Nat) (v : DWord) : Prop :=
  let n := v.toNat
  let base (tier : Nat) : Prop := n % 2 ^ 16 = 0 ∧ s.isOwn (n % 2 ^ 48) = true ∧ n / 2 ^ 40 % 2 = tier
  match j with
  | 0 => n % 2 ^ 15 = 0
  | 1 => n % 2 ^ 12 = 0 ∧ n / 2 ^ 56 % 2 ^ 4 ≤ 10
  | 2 => n % 2 ^ 16 = 0
  | 3 => n % 2 ^ 12 ≤ 2048
  | 4 => n % 2 ^ 12 = 0
  | 5 => True
  | 6 => True
  | 7 => True
  | j =>
    match j % 4 with
    | 0 => n % 2 ^ 21 = 0
    | 1 => True
    | 2 => base 0
    | _ => base 1

/-- R4 and R303: WRITE CONFIG changes the RW bits of a word whose fields are in range, and no others; one that is not in
range writes nothing; READ CONFIG answers the bytes of the block, the state among them. -/
def clauseConfigurationBlock : Prop :=
  ((List.range 12).map cfgMask = [0x0000FFFFFFFFFFFF, 0x0F0FFFFFFFFFFFFF, 0x0000FFFFFFFFFFFF, 0x0000FFFF00000FFF, 0x0000FFFFFFFFFFFF,
    0x00000000FFFFFFFF, 0, 0, 0x000FFFFFFFFFFFFF, 0x00FFFFFFFFFFFFFF, 0x0000FFFFFFFFFFFF, 0x0000FFFFFFFFFFFF] ∧
    ∀ j, 12 ≤ j → cfgMask j = cfgMask (8 + j % 4)) ∧
  ∀ (s : State) (m : Mgmt) (c : Ctx) (j : Nat) (v : DWord), s.ctxs.get? m.ctx.toNat = some c → j < 24 →
    let i : Instr := .writeConfig (ask m 0x04 12) (8 * j) [v]
    let lock : Nat := match c.st with | .locked => 1 | .run => 2 | .error => 3 | _ => 0
    (Asks s m .admin → c.st = .unlocked →
      (¬configFits s j v → exec i s = .next (answered m 0x04 1 [] s)) ∧
      (configFits s j v → ∃ c', exec i s = .next (answered m 0x04 0 [] (s.updCtx m.ctx.toNat (fun x =>
          { x with cfg := putCfg j [v] x.cfg }))) ∧ c' = { c with cfg := putCfg j [v] c.cfg } ∧
        c'.word j = (c.word j &&& ~~~cfgMask j) ||| (v &&& cfgMask j) ∧ ∀ l, l ≠ j → c'.word l = c.word l)) ∧
    (Asks s m .admin ∨ Asks s m (.tenant m.ctx.toNat) →
      exec (.readConfig (ask m 0x05 8) (8 * j) 8) s = .next (answered m 0x05 0
        (leBytes 8 ((c.word j).toNat + if j = 6 then lock * 2 ^ 32 else 0)) s) ∧
      exec (.readConfig (ask m 0x05 8) (8 * j) 193) s = .next (answered m 0x05 1 [] s))

/-- R321 and R322: BIND QUEUE gives a free queue id to the context, BOUND with every count 0; UNBIND QUEUE of a queue of the
context removes it; a queue id in use, or a 257th queue, gets result 6. Bits of the payload that the map reserves are ignored (R4). -/
def clauseQueuesAreBound : Prop :=
  ∀ (s : State) (m : Mgmt) (c : Ctx) (b : Binding), Asks s m .admin → s.ctxs.get? m.ctx.toNat = some c → c.st = .unlocked →
    let ok : Prop := 4 ≤ b.lsz.toNat ∧ b.lsz.toNat ≤ 16 ∧ 4 ≤ b.csz.toNat ∧ b.csz.toNat ≤ 16 ∧
      b.lva.toNat % 4096 = 0 ∧ b.cva.toNat % 4096 = 0
    (¬ok → exec (.bindQueue (ask m 0x06 24) b) s = .next (answered m 0x06 1 [] s)) ∧
    (ok →
      (s.queues.get? b.qid.toNat ≠ none ∨ 256 ≤ c.queues.length → exec (.bindQueue (ask m 0x06 24) b) s = .next (answered m 0x06 6 [] s)) ∧
      (s.queues.get? b.qid.toNat = none → c.queues.length < 256 →
        ∃ t q c', exec (.bindQueue (ask m 0x06 24) b) s = .next (answered m 0x06 0 [] t) ∧ t.queues = s.queues.set b.qid.toNat q ∧
          q.ctx = m.ctx.toNat ∧ q.b = b ∧ q.st = .bound ∧ q.tail = 0 ∧ q.head = 0 ∧ q.chead = 0 ∧ q.ctail = 0 ∧ q.resv = 0 ∧
          t.ctxs.get? m.ctx.toNat = some c' ∧ b.qid.toNat ∈ c'.queues ∧ { c' with queues := c.queues } = c ∧
          { t with queues := s.queues, ctxs := s.ctxs } = s)) ∧
    (b.qid.toNat ∉ c.queues → exec (.unbindQueue (ask m 0x07 4) b.qid) s = .next (answered m 0x07 1 [] s)) ∧
    (b.qid.toNat ∈ c.queues → ∃ t c', exec (.unbindQueue (ask m 0x07 4) b.qid) s = .next (answered m 0x07 0 [] t) ∧
      t.queues.get? b.qid.toNat = none ∧ (∀ n, n ≠ b.qid.toNat → t.queues.get? n = s.queues.get? n) ∧
      t.ctxs.get? m.ctx.toNat = some c' ∧ b.qid.toNat ∉ c'.queues ∧ { c' with queues := c.queues } = c ∧ t.mem = s.mem)

/-- R291, R301, R304, R322, R332: the checks of LOCK; LOCK of a context whose checks pass raises its generation and brings its event ring into use;
START by its tenant makes its queues ACTIVE; neither is allowed in another state. -/
def clauseLockAndStart : Prop :=
  ∀ (s : State) (m : Mgmt) (c : Ctx), s.ctxs.get? m.ctx.toNat = some c →
    let n := m.ctx.toNat
    (Asks s m .admin →
      (c.st ≠ .unlocked → exec (.lock (ask m 0x08 0)) s = .next (answered m 0x08 3 [] s)) ∧
      (c.st = .unlocked → s.lockOk n c = false → exec (.lock (ask m 0x08 0)) s = .next (answered m 0x08 1 [] s)) ∧
      (c.st = .unlocked → s.lockOk n c = true → ∃ t c', exec (.lock (ask m 0x08 0)) s = .next (answered m 0x08 0 [] t) ∧
        { t with ctxs := s.ctxs } = s ∧ t.ctxs.get? n = some c' ∧ c'.st = .locked ∧
        (c'.word 7).toNat = ((c.word 7).toNat % 2 ^ 32 + 1) % 2 ^ 32 ∧ (∀ j, j ≠ 7 → c'.word j = c.word j) ∧
        c'.est = 1 ∧ c'.ehead = 0 ∧ c'.etail = 0 ∧ c'.elost = 0 ∧ c'.waiting = [] ∧ c'.grants = c.grants ∧
        c'.queues = c.queues)) ∧
    (let root := (c.word 0).toNat % 2 ^ 48
     let field (w k : Nat) : Nat := (c.word (8 + 4 * w + k)).toNat
     let all := c.areas ++ ((List.range 4).flatMap c.windowExtents).map (·.1)
     let base (x tier : Nat) : Prop := x % 65536 = 0 ∧ s.isOwn x = true ∧ x / 2 ^ 40 % 2 = tier
     s.lockOk n c = true ↔ root ≠ 0 ∧ s.inGrants n root (root + 0x8000) = true ∧
      (∀ w < 4, field w 1 / 2 ^ 32 % 2 ^ 24 ≠ 0 → field w 0 % 2 ^ 21 = 0 ∧ base (field w 2 % 2 ^ 48) 0 ∧ base (field w 3 % 2 ^ 48) 1) ∧
      (∀ x ∈ all, s.inGrants n x.1 x.2 = true) ∧
      (∀ w < 4, ∀ x ∈ c.windowExtents w, x.1.1 / 2 ^ 40 % 2 = x.2 ∧ (x.1.2 - 1) / 2 ^ 40 = x.1.1 / 2 ^ 40) ∧
      all.Pairwise (fun a b => a.2 ≤ b.1 ∨ b.2 ≤ a.1)) ∧
    (Asks s m (.tenant n) →
      (c.st ≠ .locked → exec (.start (ask m 0x0A 0)) s = .next (answered m 0x0A 3 [] s)) ∧
      (c.st = .locked → ∃ t, exec (.start (ask m 0x0A 0)) s = .next (answered m 0x0A 0 [] t) ∧
        t.ctxs.get? n = some { c with st := .run } ∧ { t with ctxs := s.ctxs, queues := s.queues } = s ∧
        ∀ qid q, s.queues.get? qid = some q →
          t.queues.get? qid = some (if q.ctx = n then { q with st := .active } else q)))

/-- R312: the report holds the magic word, the version, the context's id, state and generation, its queues, the nonce, the
configuration block and the eight measurements, and ends with the device's signature over all of it. -/
def clauseReports : Prop :=
  ∀ (s : State) (m : Mgmt) (c : Ctx) (nonce : List Byte), Asks s m (.tenant m.ctx.toNat) → s.ctxs.get? m.ctx.toNat = some c →
    nonce.length = 32 →
    (c.st ≠ .locked → c.st ≠ .run → exec (.getReport (ask m 0x09 32) nonce) s = .next (answered m 0x09 3 [] s)) ∧
    (c.st = .locked ∨ c.st = .run → ∃ r, exec (.getReport (ask m 0x09 32) nonce) s =
        .next (answered m 0x09 0 (r ++ fit 64 (Config.deviceSign r)) s) ∧
      r.length = 0x2F0 + 4 * c.queues.length ∧ leNat (r.take 4) = 0xC7C02001 ∧ r[4]? = some 1 ∧
      r[5]? = some (BitVec.ofNat 8 m.ctx.toNat) ∧ r[6]? = some (if c.st = .locked then 1 else 2) ∧
      leNat ((r.drop 8).take 4) = (c.word 7).toNat % 2 ^ 32 ∧ leNat ((r.drop 0x0C).take 2) = c.queues.length % 2 ^ 16 ∧
      (r.drop 0x10).take 32 = nonce ∧ (r.drop 0x30).take 192 = c.cfgBytes ∧
      ∀ j < 8, (r.drop (0xF0 + 64 * j)).take 64 = fit 64 ((s.meas.get? j).getD []))

/-- R301, R303, R304, R312, R321: what the configuration of a context holds, how it is locked and started, and its report. -/
def clauseContextsAreConfiguredAndStarted : Prop :=
  clauseConfigurationBlock ∧ clauseQueuesAreBound ∧ clauseLockAndStart ∧ clauseReports

/-- Nothing of a context runs: it has no kernel, no record, fetched or not, and no translation fault that waits. -/
structure Idle (s : State) (n : Nat) : Prop where
  kernels : ∀ k ∈ s.kernels, k.2.ctx ≠ n
  recs : ∀ r ∈ s.recs, r.2.ctx ≠ n
  faults : ∀ d ∈ s.dies, ∀ f ∈ d.2.faults ++ d.2.posts, f.ctx ≠ n
  queued : ∀ q ∈ s.queues, q.2.ctx = n → q.2.fetched = none ∧ q.2.open_ = [] ∧ q.2.done = []

/-- R301, R313, R314: STOP leaves a context CONFIG_UNLOCKED, its queues BOUND and its event ring out of use, and TEARDOWN
leaves it FREE, with its queues, session, translations and granted memory gone; a session that ends sends a context in
CONFIG_LOCKED or RUN to ERROR. -/
def Obligations.ContextsStopAndAreScrubbed : Prop :=
  ∀ (s : State) (m : Mgmt) (c : Ctx), s.ctxs.get? m.ctx.toNat = some c →
    let n := m.ctx.toNat
    let overIn (t : State) (st : CtxSt) : Prop := (∃ c', t.ctxs.get? n = some c' ∧ c'.st = st ∧ c'.est = 0 ∧ c'.grants = c.grants ∧
        c'.queues = c.queues ∧ c'.cfg = c.cfg ∧ (c.est ≠ 0 → c'.waiting = [] ∧
          (Idle s n → c'.elost = c.elost + BitVec.ofNat 32 c.waiting.length))) ∧
      (∀ qid q, t.queues.get? qid = some q → q.ctx = n → q.st = .bound) ∧
      (∀ qid q, Idle s n → s.queues.get? qid = some q → t.queues.get? qid = some (if q.ctx = n then { q with st := .bound } else q)) ∧
      (Idle s n → t.mem = s.mem ∧ t.kernels = s.kernels ∧ t.recs = s.recs ∧ t.strands = s.strands) ∧
      ∀ e ∈ t.cores, ∀ g ∈ e.2.gran, g.ctx ≠ n
    (Asks s m .admin ∨ Asks s m (.tenant n) →
      (c.st = .locked ∨ c.st = .run → ∃ t, exec (.stop (ask m 0x0B 0)) s = .next (answered m 0x0B 0 [] t) ∧ overIn t .unlocked) ∧
      (c.isLocked = false → exec (.stop (ask m 0x0B 0)) s = .next (answered m 0x0B 3 [] s))) ∧
    (Asks s m .admin → ∃ t, exec (.teardown (ask m 0x0C 0)) s = .next (answered m 0x0C 0 [] t) ∧ t.ctxs.get? n = none ∧
      (∀ q ∈ t.queues, q.2.ctx ≠ n) ∧ (∀ k ∈ t.kernels, k.2.ctx ≠ n) ∧ (∀ r ∈ t.recs, r.2.ctx ≠ n) ∧
      (∀ d ∈ t.dies, (∀ e ∈ d.2.tlb, e.ctx ≠ n) ∧ (∀ e ∈ d.2.wcache, e.ctx ≠ n) ∧ ∀ x ∈ d.2.l1, ∀ e ∈ x.2, e.ctx ≠ n) ∧
      (∀ k, c.session = some k → t.sessions.get? k = none) ∧
      (∀ g ∈ c.grants, Idle s n → ∀ y, g.1 ≤ y → y < g.1 + g.2 → g.1 % 65536 = 0 → g.2 % 65536 = 0 → s.isOwn y = true →
        t.isLive y = false ∧ (s.mem.wf = true → t.mem.get y = 0))) ∧
    ∀ k, s.sessions.get? k = some (.tenant n) →
      ∃ t c', exec (.heartbeatExpiry k) s = .next t ∧ t.sessions.get? k = none ∧ t.ctxs.get? n = some c' ∧
        c'.session = none ∧ c'.keys = none ∧ c'.conns = [false, false] ∧ c'.grants = c.grants ∧
        c'.st = if c.isLocked then .error else c.st

/-- R253, R254, R287, R289: the service of a suspended command of the tenant's context in RUN. A resume makes it ACTIVE
again, FAIL ends it with the status and the address of its suspension record, READ SUSPENSION answers that record, and a
command that is not suspended gets result 5; RESUME RANGE leaves every other command as it is. INVALIDATE, its checks made, waits
while an access through a translation that the range covers is under way, and then drops every such translation. The payload
lengths, and that a range whose end lies below its start is malformed, are the model's choices (log 31). -/
def Obligations.FaultServiceActsOnSuspendedCommands : Prop :=
  ∀ (s : State) (m : Mgmt) (c : Ctx) (eng num : Nat) (lo hi : DWord), Asks s m (.tenant m.ctx.toNat) →
    s.ctxs.get? m.ctx.toNat = some c → eng < 512 →
    let n := m.ctx.toNat
    let all : List (Instr × BitVec 8) :=
      [(.resumeOne (ask m 0x10 12) eng num, 0x10), (.failCommand (ask m 0x12 12) eng num, 0x12),
        (.readSuspension (ask m 0x13 12) eng num, 0x13)]
    (c.st ≠ .run → ∀ p ∈ all, exec p.1 s = .next (answered m p.2 3 [] s)) ∧
    (c.st = .run → s.suspended n eng num = none → ∀ p ∈ all, exec p.1 s = .next (answered m p.2 5 [] s)) ∧
    (∀ x st va, c.st = .run → (s.eng eng).cmd num = some x → x.st = .suspended → s.lidCtx x.lid = n → x.susp = some (st, va) →
      exec (.resumeOne (ask m 0x10 12) eng num) s = .next (answered m 0x10 0 [] (s.updCmd eng num Cmd.resume)) ∧ x.resume.st = .active ∧
      exec (.failCommand (ask m 0x12 12) eng num) s = .next (answered m 0x12 0 [] (s.endCmd eng num st va)) ∧
      exec (.readSuspension (ask m 0x13 12) eng num) s = .next (answered m 0x13 0 (x.suspension eng) s) ∧
      leNat ((x.suspension eng).take 8) = x.bmp.toNat ∧ leNat (((x.suspension eng).drop 0x28).take 8) = va.toNat ∧
      leNat (((x.suspension eng).drop 0x30).take 4) = st.toNat ∧ leNat (((x.suspension eng).drop 0x34).take 4) = eng ∧
      leNat (((x.suspension eng).drop 0x38).take 8) = num % 2 ^ 64 ∧ (x.slots.length ≤ 4 → (x.suspension eng).length = 64)) ∧
    (c.st = .run → ∃ t, exec (.resumeRange (ask m 0x11 16) lo hi) s = .next (answered m 0x11 0 [] t) ∧ { t with dies := s.dies } = s ∧
      ∀ e k x, (s.eng e).cmd k = some x → (s.dies.get? (e / 128)).any (fun d => (d.engines.get? e).isSome) = true →
        ∃ y, (t.eng e).cmd k = some y ∧
          (x.st = .suspended → s.lidCtx x.lid = n → (∃ p, x.susp = some p ∧ lo.toNat ≤ p.2.toNat ∧ p.2.toNat < hi.toNat) →
            y = x.resume) ∧
          (x.st ≠ .suspended ∨ s.lidCtx x.lid ≠ n ∨ (∀ p, x.susp = some p → ¬(lo.toNat ≤ p.2.toNat ∧ p.2.toNat < hi.toNat)) →
            y = x)) ∧
    ∀ whole,
      let i : Instr := .invalidate (ask m 0x14 (if whole then 0 else 16)) whole lo hi
      (s.usesOld n whole lo hi = true → c.isLocked = true → whole = true ∨ lo.toNat ≤ hi.toNat →
        (∀ x, s.cur = .event x → exec i s = .next { s with requests := [x] }) ∧
        ((∀ x, s.cur ≠ .event x) → exec i s = .next s)) ∧
      (c.isLocked = false → whole = true ∨ lo.toNat ≤ hi.toNat → exec i s = .next (answered m 0x14 3 [] s)) ∧
      (whole = false → hi.toNat < lo.toNat → exec i s = .next (answered m 0x14 1 [] s)) ∧
      (s.usesOld n whole lo hi = false → c.isLocked = true → whole = true ∨ lo.toNat ≤ hi.toNat →
        let hit (e : TlbEntry) : Prop := e.ctx = n ∧ (whole = true ∨ (e.va < hi.toNat ∧ lo.toNat < e.va + e.size))
        ∃ t, exec i s = .next (answered m 0x14 0 [] t) ∧ { t with dies := s.dies } = s ∧
          ∀ d x, s.dies.get? d = some x → ∃ y, t.dies.get? d = some y ∧ y.engines = x.engines ∧
            (∀ e, e ∈ y.tlb ↔ e ∈ x.tlb ∧ ¬hit e) ∧
            ∀ k l, x.l1.get? k = some l → ∃ l', y.l1.get? k = some l' ∧ ∀ e, e ∈ l' ↔ e ∈ l ∧ ¬hit e)

/-- R300 to R305, R307 to R312, R321: the requests that make, configure, lock and start a context. The layout of the payloads, the
order of the checks, that a request in no established session has no effect and that a message that does not verify ends its
session are the model's choices (log 31). -/
def Obligations.ContextsAreMadeConfiguredAndStarted : Prop :=
  clauseContextsAreMadeAndGranted ∧ clauseContextsAreConfiguredAndStarted

/-! ## Device-wide requests, firmware, service and sessions (R17, R290, R295 to R298, R306, R307, R383 to R391) -/

/-- R17 and R293: SET PACKAGE takes a number below 128 while every context is FREE; the memory at its new addresses is not live
and reads zero. -/
def clausePackageNumber : Prop :=
  ∀ (s : State) (m : Mgmt) (n : BitVec 8), Asks s m .admin →
    let i : Instr := .setPackage (ask m 0x20 4) n
    (n.toNat < 128 → s.ctxs = [] → ∃ t, exec i s = .next (answered m 0x20 0 [] t) ∧ (∃ p : BitVec 7, p.toNat = n.toNat ∧ t.pkg = some p) ∧
      (∀ y, n.toNat * 2 ^ 41 ≤ y → y < (n.toNat + 1) * 2 ^ 41 → y < 2 ^ 48 → t.isLive y = false) ∧
      (s.mem.wf = true → sameOutside s t (n.toNat * 2 ^ 41) (2 ^ 41) ∧
        ∀ y, n.toNat * 2 ^ 41 ≤ y → y < (n.toNat + 1) * 2 ^ 41 → t.mem.get y = 0) ∧
      { t with pkg := s.pkg, mem := s.mem, live := s.live, poison := s.poison, injected := s.injected } = s) ∧
    (n.toNat < 128 → s.ctxs ≠ [] → exec i s = .next (answered m 0x20 3 [] s)) ∧
    (128 ≤ n.toNat → exec i s = .next (answered m 0x20 1 [] s))

/-- R139, R290, R371, R372: COUNTERS reads and writes words of a die's counter space, one after another. The low word of a
64-bit counter also latches the high word, which the next read of the high word answers; a write changes that half and no
other. -/
def clauseCounters : Prop :=
  ∀ (s : State) (m : Mgmt) (die : Nat) (offs : List Nat) (v w : Word), Asks s m .admin →
    let d := s.die die
    let n (x : DWord) : Nat := x.toNat
    let read (os : List Nat) : Instr := .countersRead (ask m 0x21 (4 + 4 * os.length)) die os
    let write (os : List (Nat × Word)) : Instr := .countersWrite (ask m 0x21 (4 + 8 * os.length)) die (os.map (·.1)) (os.map (·.2))
    let word (off : Nat) (x : Nat) : Prop := exec (read [off]) s = .next (answered m 0x21 0 (leBytes 4 x) (s.setDie die d))
    let puts (off : Nat) (d' : Die) : Prop := exec (write [(off, v)]) s = .next (answered m 0x21 0 [] (s.setDie die d'))
    let low (x : DWord) : DWord := BitVec.ofNat 64 (n x / 2 ^ 32 * 2 ^ 32 + v.toNat)
    let high (x : DWord) : DWord := BitVec.ofNat 64 (n x % 2 ^ 32 + v.toNat * 2 ^ 32)
    (offs.length ≤ 400 → 4 ≤ die ∨ (∃ o ∈ offs, o % 4 ≠ 0 ∨ 0x480 ≤ o) → exec (read offs) s = .next (answered m 0x21 1 [] s) ∧
      exec (write (offs.map (fun o => (o, v)))) s = .next (answered m 0x21 1 [] s)) ∧
    (die < 4 →
      (∀ p ∈ [(0x00, d.tl1m), (0x08, d.tllm), (0x10, d.twalk), (0x18, d.tmrg), (0x28, d.lvrd), (0x30, d.lvfl)],
        exec (read [p.1]) s = .next (answered m 0x21 0 (leBytes 4 (n p.2 % 2 ^ 32))
          (s.setDie die { d with latch := d.latch.set (p.1 + 4) (BitVec.ofNat 32 (n p.2 / 2 ^ 32)) })) ∧
        (∃ t, exec (read [p.1, p.1 + 4]) s = .next (answered m 0x21 0
          (leBytes 4 (n p.2 % 2 ^ 32) ++ leBytes 4 (n p.2 / 2 ^ 32)) t) ∧ { t with dies := s.dies } = s) ∧
        (d.latch.get? (p.1 + 4) = some w → exec (read [p.1 + 4]) s = .next (answered m 0x21 0 (leBytes 4 w.toNat)
          (s.setDie die { d with latch := d.latch.erase (p.1 + 4) }))) ∧
        (d.latch.get? (p.1 + 4) = none → word (p.1 + 4) (n p.2 / 2 ^ 32))) ∧
      (d.latch = [] → word 0x20 d.tflt.toNat ∧ word 0x24 d.tfqw.toNat) ∧
      (∀ e l, e < 8 → d.links.get? e = some l → d.latch = [] →
        let b := 0x100 + 0x20 * e
        let link (g : Link → Link) : Die := { d with links := d.links.modify e g }
        word b (l.st.code + (if l.spu then 8 else 0) + l.bad.toNat * 16) ∧ word (b + 4) l.swid.toNat ∧
        word (b + 0x10) l.lrtr.toNat ∧ word (b + 0x14) l.lfail.toNat ∧
        (∀ p ∈ [(0x08, l.lcrc), (0x18, l.lflit)], ∃ t, exec (read [b + p.1, b + p.1 + 4]) s = .next (answered m 0x21 0
          (leBytes 4 (n p.2 % 2 ^ 32) ++ leBytes 4 (n p.2 / 2 ^ 32)) t) ∧ { t with dies := s.dies } = s) ∧
        puts b (link id) ∧ puts (b + 4) (link id) ∧ puts (b + 0x08) (link (fun l => { l with lcrc := low l.lcrc })) ∧
        puts (b + 0x0C) (link (fun l => { l with lcrc := high l.lcrc })) ∧ puts (b + 0x10) (link (fun l => { l with lrtr := v })) ∧
        puts (b + 0x14) (link (fun l => { l with lfail := v })) ∧ puts (b + 0x18) (link (fun l => { l with lflit := low l.lflit })) ∧
        puts (b + 0x1C) (link (fun l => { l with lflit := high l.lflit }))) ∧
      (∀ j x, j < 8 → d.windows[j]? = some x → d.latch = [] →
        word (0x400 + 0x10 * j) (x.base.toNat % 2 ^ 32) ∧ word (0x404 + 0x10 * j) (x.base.toNat / 2 ^ 32 % 2 ^ 32) ∧
        word (0x408 + 0x10 * j) (x.size.toNat % 2 ^ 32) ∧ word (0x40C + 0x10 * j) ((x.size.toNat / 2 ^ 32 + 2 ^ 15) % 2 ^ 32)) ∧
      puts 0x00 { d with tl1m := low d.tl1m } ∧ puts 0x04 { d with tl1m := high d.tl1m } ∧
      puts 0x08 { d with tllm := low d.tllm } ∧ puts 0x0C { d with tllm := high d.tllm } ∧
      puts 0x10 { d with twalk := low d.twalk } ∧ puts 0x14 { d with twalk := high d.twalk } ∧
      puts 0x18 { d with tmrg := low d.tmrg } ∧ puts 0x1C { d with tmrg := high d.tmrg } ∧
      puts 0x20 { d with tflt := v } ∧ puts 0x24 { d with tfqw := v } ∧
      puts 0x28 { d with lvrd := low d.lvrd } ∧ puts 0x2C { d with lvrd := high d.lvrd } ∧
      puts 0x30 { d with lvfl := low d.lvfl } ∧ puts 0x34 { d with lvfl := high d.lvfl })

/-- R295, R297, R298: ERROR LOG reads the counters and the entries of an array, clears its counters, or removes its oldest
entry; INJECT writes its injection register; a unit that has no such array is malformed. The arrays of two copies and of
parity, to which the spec gives no number, have logs at numbers of the model's (log 38). -/
def clauseErrorLogs : Prop :=
  ∀ (s : State) (m : Mgmt) (unit : BitVec 16) (arr : Nat) (addr : BitVec 48) (arm iue : Bool), Asks s m .admin →
    let key := unit.toNat * 8 + arr
    let a := s.arr key
    let kind := unit.toNat / 4096
    let inst := unit.toNat % 4096
    let here : Prop := (kind = 0 ∧ inst < 512 ∧ arr < 5) ∨ (kind = 4 ∧ inst < 16 ∧ arr = 0) ∨ (kind = 5 ∧ inst < 4 ∧ arr = 0)
    let more : Prop := (kind = 0 ∧ inst < 512 ∧ arr = 5) ∨ (kind = 2 ∧ inst < 512 ∧ arr = 0) ∨
      (kind = 3 ∧ inst < 32 ∧ inst % 8 = 0 ∧ arr < 2) ∨ (kind = 8 ∧ inst < 4 ∧ arr = 0)
    let q := ask m 0x22 8
    let inj : Instr := .inject (ask m 0x23 20) unit arr addr arm iue
    (¬here ∧ ¬more → exec (.errorLogRead q unit arr) s = .next (answered m 0x22 1 [] s) ∧
      exec (.errorLogClear q unit arr) s = .next (answered m 0x22 1 [] s) ∧
      exec (.errorLogPop q unit arr) s = .next (answered m 0x22 1 [] s)) ∧
    (¬here → exec inj s = .next (answered m 0x23 1 [] s)) ∧
    (here → exec inj s = .next (answered m 0x23 0 [] { s with
      arrays := s.arrays.set key { a with iaddr := addr, arm := arm, iue := iue } })) ∧
    (here ∨ more →
      (∃ bs, exec (.errorLogRead q unit arr) s = .next (answered m 0x22 0 bs s) ∧ leNat (bs.take 8) = a.ecnt.toNat ∧
        leNat ((bs.drop 8).take 8) = a.ucnt.toNat ∧ leNat ((bs.drop 0x10).take 4) = a.lovf.toNat ∧
        (a.log.length ≤ 16 → leNat ((bs.drop 0x14).take 4) = a.log.length ∧ bs.length = 0x220) ∧
        ∀ e (x : LogEntry), e < 16 → a.log[e]? = some x →
          leNat ((bs.drop (0x20 + 32 * e)).take 8) = x.addr.toNat + x.unit.toNat * 2 ^ 48 ∧
          leNat ((bs.drop (0x28 + 32 * e)).take 4) = x.syn.toNat ∧
          leNat ((bs.drop (0x2C + 32 * e)).take 4) = (match x.ctx with | some c => c.toNat + 64 | none => 0) +
            (if x.ue then 128 else 0) + (if x.inj then 256 else 0) + x.chan.toNat * 512 ∧
          leNat ((bs.drop (0x30 + 32 * e)).take 8) = x.cnt.toNat) ∧
      exec (.errorLogClear q unit arr) s = .next (answered m 0x22 0 [] { s with
        arrays := s.arrays.set key { a with ecnt := 0, ucnt := 0, lovf := 0 } }) ∧
      exec (.errorLogPop q unit arr) s = .next (answered m 0x22 0 [] { s with
        arrays := s.arrays.set key { a with log := a.log.tail } }))

/-- R296 and R297: an error that scrub finds in a word raises the counters and enters the log while it has room, with no
context; an uncorrectable one poisons its word; memory that is not live is not refreshed. An error of one of two copies, or of an entry
protected by parity, is counted and logged and changes no result (R295; the numbers of these arrays are the model's, log 38). -/
def clauseScrubErrors : Prop :=
  ∀ (s : State) (unit : BitVec 16) (arr : Nat) (addr : BitVec 48) (ue : Bool) (chan : BitVec 7) (syn : Word), s.dev = .ready →
    let key := unit.toNat * 8 + arr
    let l := unitLoc unit addr.toNat
    let a := s.arr key
    let i : Instr := .scrubError unit arr addr ue chan syn
    (arrKey l = key → arrayAt unit arr = true → l < 2 ^ 48 → s.isOwn l = true → s.isLive l = false → exec i s = .next s) ∧
    (arrKey l = key → arrayAt unit arr = true → l < 2 ^ 48 → s.isOwn l = false →
      ∃ t, exec i s = .next t ∧ (∀ p, p ∈ t.poison ↔ p ∈ s.poison ∨ (ue = true ∧ p = l)) ∧ { t with poison := s.poison } = s) ∧
    (arrayAt unit arr = false → loggedAt unit arr = false → exec i s = .next s) ∧
    (arrayAt unit arr = false → loggedAt unit arr = true → ∃ t, exec i s = .next t ∧ (t.arr key).ecnt = a.ecnt + 1 ∧
      (t.arr key).ucnt = a.ucnt ∧ { t with arrays := s.arrays, dies := s.dies } = s ∧
      ∀ d, (∀ e ∈ (t.die d).tlb, e ∈ (s.die d).tlb) ∧ (∀ e ∈ (t.die d).wcache, e ∈ (s.die d).wcache) ∧
        (t.die d).engines = (s.die d).engines) ∧
    (arrKey l = key → arrayAt unit arr = true → (2 ^ 48 ≤ l ∨ (s.isOwn l = true ∧ s.isLive l = true)) →
      ∃ t, exec i s = .next t ∧ t.mem = s.mem ∧ (t.arr key).ecnt = a.ecnt + 1 ∧
        (t.arr key).ucnt = (if ue then a.ucnt + 1 else a.ucnt) ∧ (∀ p, p ∈ t.poison ↔ p ∈ s.poison ∨ (ue = true ∧ p = l)) ∧
        (16 ≤ a.log.length → (t.arr key).lovf = a.lovf + 1 ∧ (t.arr key).log = a.log) ∧
        (a.log.length < 16 → (t.arr key).lovf = a.lovf ∧ ∃ e, (t.arr key).log = a.log ++ [e] ∧ e.ctx = none ∧ e.ue = ue ∧
          e.cnt = a.ecnt + 1 ∧ e.unit = unit ∧ e.chan = chan ∧ e.syn = syn ∧ e.inj = false) ∧
        { t with arrays := s.arrays, poison := s.poison } = s)

/-- R17, R139, R290, R295 to R298, R371, R372: the package number, the counters of the dies and the error logs. Which offsets
COUNTERS takes, with result 1 for any other, and that a clear of an ERROR LOG keeps its entries are the model's choices (logs 20
and 31). -/
def Obligations.CountersAndErrorLogs : Prop :=
  clausePackageNumber ∧ clauseCounters ∧ clauseErrorLogs ∧ clauseScrubErrors

/-- R383, R384, R386, R388: an image is accepted if its header, index and version are right and its signature verifies (which
stays open, log 10); in ROM only image 0,
then the others go to slot A of the dies they run on and are measured; in READY the image goes to slot B of the dies that
the mask names; a rejected image changes nothing. -/
def clauseImagesAreLoaded : Prop :=
  ∀ (s : State) (m : Mgmt) (dies : BitVec 12) (g : Image), s.sessions.get? m.sess = some .admin → m.sound = true →
    132 + g.body.length ≤ 4096 → s.activating = [] → s.requests = [] →
    let i : Instr := .loadImage (ask m 0x24 (132 + g.body.length)) dies g
    let idx := g.index.toNat
    let ok : Prop := g.magic = 0x59464D31 ∧ idx ≤ 7 ∧ g.body.length = g.bodyLen.toNat ∧
      (s.floors.get? idx).getD 0 ≤ g.version.toNat
    let ends (t : State) : State := if Config.firmwareSigOk (imageBytes g) g.sig then answered m 0x24 0 [] t else answered m 0x24 1 [] s
    let runsOn : List Nat := if idx = 0 then [0] else if idx = 4 ∨ idx = 5 then [4, 5, 6, 7, 8, 9, 10, 11] else [0, 1, 2, 3]
    let x : Loaded := { version := g.version, digest := fit 64 (Config.sha512 (imageBytes g)) }
    (s.dev = .rom ∨ s.dev = .loading ∨ s.dev = .ready → ¬ok → (s.dev = .rom → idx = 0) → (s.dev = .loading → idx ≠ 0) →
      exec i s = .next (answered m 0x24 1 [] s)) ∧
    (ok → (s.dev = .rom ∧ idx = 0) ∨ (s.dev = .loading ∧ idx ≠ 0) →
      ∃ t, exec i s = .next (ends t) ∧ t.dev = .loading ∧ t.meas.get? idx = some x.digest ∧
        (∀ d ∈ runsOn, slotOf t.fwA d idx = some x) ∧ (∀ d k, d ∉ runsOn ∨ k ≠ idx → slotOf t.fwA d k = slotOf s.fwA d k) ∧
        { t with dev := s.dev, fwA := s.fwA, meas := s.meas } = s) ∧
    (ok → s.dev = .ready →
      ∃ t, exec i s = .next (ends t) ∧ { t with fwB := s.fwB } = s ∧
        (∀ d, d < 12 → dies.getLsbD d = true → slotOf t.fwB d idx = some x) ∧
        ∀ d k, (d < 12 → dies.getLsbD d = false) ∨ k ≠ idx → slotOf t.fwB d k = slotOf s.fwB d k) ∧
    (s.dev = .off ∨ (∃ w, s.dev = .starting w) ∨ (s.dev = .rom ∧ idx ≠ 0) ∨ (s.dev = .loading ∧ idx = 0) → idx ≤ 7 →
      exec i s = .next (answered m 0x24 3 [] s)) ∧
    (7 < idx → exec i s = .next (answered m 0x24 1 [] s))

/-- R389: ACTIVATE of an index whose slot B holds an image on each named die begins the exchange, which ends with slots A and
B exchanged, the measurement changed and an event for each context in CONFIG_LOCKED or RUN; the requests that waited for it then
come in their order, and an exchange of the same index on other dies goes on. -/
def clauseImagesAreActivated : Prop :=
  ∀ (s : State) (m : Mgmt) (dies : BitVec 12) (idx : BitVec 8) (k : BitVec 3) (x : Loaded) (d : Nat),
    (Asks s m .admin → dies ≠ 0 →
      let i : Instr := .activate (ask m 0x25 8) dies idx
      (7 < idx.toNat → exec i s = .next (answered m 0x25 1 [] s)) ∧
      (idx.toNat ≤ 7 → (∃ d, d < 12 ∧ dies.getLsbD d = true ∧ slotOf s.fwB d idx.toNat = none) →
        exec i s = .next (answered m 0x25 1 [] s)) ∧
      (idx.toNat ≤ 7 → (∀ d, d < 12 → dies.getLsbD d = true → slotOf s.fwB d idx.toNat ≠ none) →
        ∃ l, exec i s = .next (answered m 0x25 0 [] { s with activating := [(idx.toNat, [l])] }) ∧
          ∀ d, d ∈ l ↔ d < 12 ∧ dies.getLsbD d = true)) ∧
    (s.activating.get? k.toNat = none → exec (.imageActivationComplete k) s = .next s) ∧
    ∀ more, s.activating.get? k.toNat = some ([d] :: more) → slotOf s.fwB d k.toNat = some x →
      ∃ t, exec (.imageActivationComplete k) s = .next t ∧ t.activating.get? k.toNat = (if more = [] then none else some more) ∧
        t.meas.get? k.toNat = some x.digest ∧ slotOf t.fwA d k.toNat = some x ∧
        slotOf t.fwB d k.toNat = slotOf s.fwA d k.toNat ∧ t.mem = s.mem ∧ t.agenda = s.requests.map Agent.waiting ++ s.agenda ∧
        t.requests = s.requests ∧
        ∀ n c, s.ctxs.get? n = some c → (s.ctxs.map (·.1)).Nodup → c.est ≠ 0 → c.waiting.length < 256 →
          ∃ c', t.ctxs.get? n = some c' ∧ c'.waiting = c.waiting ++
            if c.isLocked then [leBytes 64 (0x40 + k.toNat * 2 ^ 32 + x.version.toNat * 2 ^ 64)] else []

/-- R386 and R387: START DEVICE goes to STARTING and trains every link; a cold start asks for the eight images and is
accepted only from LOADING, a warm one only from READY and tears down every context. Once no link is in training the
device is READY, its memory not live, zero and without poison, and the request is answered. A cold start leaves every counter,
error log and core as created and may use spares for units that fail its test; a warm one brings the images 1 to 7 of slot B
to slot A. -/
def clauseDeviceStarts : Prop :=
  ∀ (s : State) (m : Mgmt), s.sessions.get? m.sess = some .admin → m.sound = true → s.activating = [] → s.requests = [] →
    let q := ask m 0x26 4
    let training (t : State) : Prop := ∀ d < 4, ∀ l < 8, ((t.die d).links.get? l).map (·.st) = some .training
    (s.dev ≠ .loading → exec (.startDeviceCold q) s = .next (answered m 0x26 3 [] s)) ∧
    (s.dev = .loading → s.allLoaded = false → exec (.startDeviceCold q) s = .next (answered m 0x26 1 [] s)) ∧
    (s.dev = .loading → s.allLoaded = true → ∃ t, exec (.startDeviceCold q) s = .next t ∧ t.dev = .starting false ∧
      t.starter = some q ∧ training t ∧ { t with dev := s.dev, starter := s.starter, dies := s.dies } = s) ∧
    (s.dev ≠ .ready → exec (.startDeviceWarm q) s = .next (answered m 0x26 3 [] s)) ∧
    (s.dev = .ready → ∃ t, exec (.startDeviceWarm q) s = .next t ∧ t.dev = .starting true ∧ t.starter = some q ∧ training t ∧
      t.ctxs = []) ∧
    ∀ w r, s.starter = some r →
      ((∀ x, s.dev ≠ .starting x) → exec .deviceStartComplete s = .next s) ∧
      (s.dev = .starting w → (∃ d ∈ s.dies, ∃ l ∈ d.2.links, l.2.st = .training) → exec .deviceStartComplete s = .next s) ∧
      (s.dev = .starting w → (∀ d ∈ s.dies, ∀ l ∈ d.2.links, l.2.st ≠ .training) →
        ∃ t, exec .deviceStartComplete s = .next (answered r r.op 0 [] t) ∧ t.dev = .ready ∧ t.live = [] ∧ t.starter = none ∧
          (∀ p ∈ t.poison, p ∈ s.poison ∧ p < 2 ^ 48 ∧ s.isOwn p = false) ∧
          (s.mem.wf = true → (∀ y, s.isOwn y = true → t.mem.get y = 0) ∧ ∀ y, s.isOwn y = false → t.mem.get y = s.mem.get y) ∧
          (w = false → t.pkg = none ∧ t.nextLid = 1 ∧ t.arrays = [] ∧ t.walkers = [] ∧ (∀ c < 512, t.core c = Core.init) ∧
            t.steps = s.steps ∧ (∃ l, t.spares = s.spares ++ l) ∧
            ∀ d < 4, (t.die d).engines = [] ∧ (t.die d).tl1m = 0 ∧ (t.die d).tflt = 0 ∧ (t.die d).windows = (s.die d).windows) ∧
          (w = true → t.pkg = s.pkg ∧ t.nextLid = s.nextLid ∧ t.arrays = s.arrays ∧ t.cores = s.cores ∧ t.dies = s.dies ∧
            t.fwB = [] ∧ t.spares = s.spares ∧ ∀ d x, (s.fwB = [(d, x)] → (x.map (·.1)).Nodup → ∀ idx l, x.get? idx = some l →
              (idx ≠ 0 → slotOf t.fwA d idx = some l) ∧ (idx = 0 → slotOf t.fwA d idx = slotOf s.fwA d idx))))

/-- R383 to R389: firmware images, their activation, and the start of the device. That an image of an index that the device does
not await gets result 3, that two activations of one index stand beside each other, that a warm start brings in the images 1 to 7
of slot B, and that a cold start keeps the count of clock steps are the model's choices (logs 31, 32 and 34). -/
def Obligations.FirmwareIsLoadedAndTheDeviceStarts : Prop :=
  clauseImagesAreLoaded ∧ clauseImagesAreActivated ∧ clauseDeviceStarts

/-- R10, R369, R388, R390, R391: the requests of service. A link that is DOWN trains and one that carries traffic
retrains; a spare is used while one is left; a core retires while its spare is not in use, and once no team is on it the
spare takes its id; a die or attachment is fenced in and out. That a second attachment is fenced like the first (log 42), that a
core retires when it is free of teams, and that RETRAIN of a link in training answers 0 (log 32) are the model's choices. -/
def Obligations.ServiceRequestsTakeUnitsOutAndIn : Prop :=
  ∀ (s : State) (m : Mgmt) (link : Nat) (unit : BitVec 16) (u : SpareUnit) (core : BitVec 16) (l : Link), Asks s m .admin →
    let kind := unit.toNat / 4096
    let inst := unit.toNat % 4096
    let c := core.toNat
    (32 ≤ link → exec (.retrainLink (ask m 0x27 4) link) s = .next (answered m 0x27 1 [] s)) ∧
    (link < 32 → s.link link = l →
      (l.st = .down → exec (.retrainLink (ask m 0x27 4) link) s = .next (answered m 0x27 0 [] (s.setLink link { l with st := .training }))) ∧
      (l.st = .active ∨ l.st = .degraded → exec (.retrainLink (ask m 0x27 4) link) s = .next (answered m 0x27 0 []
        (s.setLink link { l with st := .retraining, lrtr := l.lrtr + 1 }))) ∧
      (l.st = .training ∨ l.st = .retraining → exec (.retrainLink (ask m 0x27 4) link) s = .next (answered m 0x27 0 [] s))) ∧
    (∀ ch, u = .channel ch → kind = 4 → inst < 16 → ch < 64 →
      let used := s.spares.countP (fun x => decide (x.1 = unit.toNat) && match x.2 with | .channel _ => true | .row _ => false)
      (used < 2 → exec (.spare (ask m 0x28 8) unit u) s = .next (answered m 0x28 0 [] { s with spares := s.spares ++ [(unit.toNat, u)] })) ∧
      (2 ≤ used → exec (.spare (ask m 0x28 8) unit u) s = .next (answered m 0x28 6 [] s))) ∧
    (∀ r, u = .row r → (kind = 4 ∧ inst < 16) ∨ (kind = 5 ∧ inst < 4) →
      exec (.spare (ask m 0x28 8) unit u) s = .next (answered m 0x28 0 [] { s with spares := s.spares ++ [(unit.toNat, u)] }) ∨
      exec (.spare (ask m 0x28 8) unit u) s = .next (answered m 0x28 6 [] s)) ∧
    (kind ≠ 4 → kind ≠ 5 → exec (.spare (ask m 0x28 8) unit u) s = .next (answered m 0x28 1 [] s)) ∧
    (512 ≤ c → exec (.retireCore (ask m 0x29 4) core) s = .next (answered m 0x29 1 [] s)) ∧
    (c < 512 → s.spareCores.get? (c / 64 * 4 + c % 64 / 16) ≠ none →
      exec (.retireCore (ask m 0x29 4) core) s = .next (answered m 0x29 6 [] s)) ∧
    (c < 512 → s.spareCores = [] → (∀ k ∈ s.cores, k.2.retired = false) → (s.core c).residents = [] →
      (s.core c).switch = false → (s.core c).loft = .empty →
      ∃ t, exec (.retireCore (ask m 0x29 4) core) s = .next (answered m 0x29 0 [] t) ∧ (t.core c).retired = false ∧
        t.spareCores.get? (c / 64 * 4 + c % 64 / 16) = some c ∧ t.mem = s.mem ∧ t.strands = s.strands) ∧
    (c < 512 → s.spareCores = [] → (∀ k ∈ s.cores, k.2.retired = false) → ∀ tk, (s.core c).active = some tk →
      (s.core c).held = none → (s.core c).switch = false → (s.core c).loft = .empty → s.slotFor tk ≠ none →
      (∃ k, s.kernels.get? (tk / 512) = some k) → (∃ t, s.teams.get? tk = some t) →
      ∃ t, exec (.retireCore (ask m 0x29 4) core) s = .next (answered m 0x29 0 [] t) ∧ (t.core c).retired = true ∧
        (t.core c).switch = true ∧ t.coreOn c = false) ∧
    (∀ x, (kind ≠ 9 ∧ kind ≠ 10) ∨ (kind = 9 ∧ 16 ≤ inst) ∨ (kind = 10 ∧ 8 ≤ inst) → x = Instr.fenceIn (ask m 0x2A 8) unit ∨ x = .fenceOut (ask m 0x2A 8) unit →
      exec x s = .next (answered m 0x2A 1 [] s)) ∧
    (kind = 9 → inst < 16 →
      (∃ t, exec (.fenceIn (ask m 0x2A 8) unit) s = .next (answered m 0x2A 0 [] t) ∧ inst ∈ t.fencedAtt ∧ { t with fencedAtt := s.fencedAtt } = s) ∧
      ∃ t, exec (.fenceOut (ask m 0x2A 8) unit) s = .next (answered m 0x2A 0 [] t) ∧ inst ∉ t.fencedAtt ∧ { t with fencedAtt := s.fencedAtt } = s) ∧
    (kind = 10 → inst < 8 →
      (∃ t, exec (.fenceIn (ask m 0x2A 8) unit) s = .next (answered m 0x2A 0 [] t) ∧ inst ∈ t.fencedDies ∧ ∀ i < 64, t.coreOn (64 * inst + i) = false) ∧
      (inst ∈ s.fencedDies → exec (.fenceIn (ask m 0x2A 8) unit) s = .next (answered m 0x2A 0 [] s)) ∧
      (inst ∉ s.fencedDies → exec (.fenceOut (ask m 0x2A 8) unit) s = .next (answered m 0x2A 0 [] s)) ∧
      (inst ∈ s.fencedDies → ∃ t, exec (.fenceOut (ask m 0x2A 8) unit) s = .next (answered m 0x2A 0 [] t) ∧ inst ∉ t.fencedDies ∧
        t.mem = s.mem ∧ t.strands = s.strands ∧ t.cores = s.cores))

/-- R306, R307, R379, R385: the requests of SPDM on a management connection and in a session. Mutual authentication is
required; the fuse's digest makes the administrator and a context's digest its one tenant; a key that matches neither, a
bad signature and a blank fuse are refused; a second exchange for a context is Busy; any other request is unsupported. The codes of
the requests, answers and errors are those of the SPDM specification, and a second KEY_UPDATE while both phases are accepted ends
the older one: both are the model's choices (log 10). -/
def Obligations.SessionsAreEstablishedAndEnded : Prop :=
  ∀ (s : State) (conn sess : Nat) (nonce key : List Byte) (code : BitVec 8),
    let spdmOut (t : State) (id n : Nat) : State := t.emit (.spdm id n (Config.spdmAnswer s.tick n))
    let no (t : State) (id n : Nat) : State := t.emit (.spdmError id n)
    let secret (info : String) : List Byte :=
      Config.hkdfExpand (Config.exportSecret s.tick sess) (info.toList.map (fun c => BitVec.ofNat 8 c.toNat)) 64
    let first : Keys :=
      { phase := false, both := false, high := 0, answers := [], rx := secret "yelja h2d", tx := secret "yelja d2h"
        sendPhase := false, sent := 0 }
    (s.dev ≠ .off → s.mgmtConns.get? conn ≠ none →
      exec (.getVersion conn) s = .next (spdmOut s conn 0x84) ∧ exec (.getCapabilities conn) s = .next (spdmOut s conn 0xE1) ∧
      exec (.negotiateAlgorithms conn) s = .next (spdmOut s conn 0xE3) ∧ exec (.getDigests conn) s = .next (spdmOut s conn 0x81) ∧
      exec (.getCertificate conn) s = .next (spdmOut s conn 0x82) ∧
      exec (.challenge conn nonce) s = .next (s.emit (.spdm conn 0x83
        (Config.spdmAnswer s.tick 0x83 ++ fit 64 (Config.deviceSign nonce)))) ∧
      (∃ bs, exec (.getMeasurements conn) s = .next (s.emit (.spdm conn 0xE0 bs)) ∧ bs.length = 512 ∧
        ∀ j < 8, (bs.drop (64 * j)).take 64 = fit 64 ((s.meas.get? j).getD [])) ∧
      exec (.unsupportedRequest conn code) s = .next (no s conn 0x07) ∧
      (∀ d, exec (.keyExchange conn false d) s = .next (no s conn 0x05)) ∧
      (∀ d, (∀ x, d = some x → s.tenantBusy x = false) → exec (.keyExchange conn true d) s =
        .next (spdmOut { s with sessions := s.sessions.set s.nextConn (.opening d), nextConn := s.nextConn + 1 } conn 0xE4)) ∧
      ∀ n c x, s.ctxs.get? n = some c → c.digest = x → c.session ≠ none →
        exec (.keyExchange conn true (some x)) s = .next (no s conn 0x03)) ∧
    (s.mgmtConns.get? conn = none → exec (.getVersion conn) s = .next s ∧ exec (.keyExchange conn true none) s = .next s) ∧
    (∀ d admin, s.sessions.get? sess = some (.opening d) →
      let refused (n : Nat) : State := { no s sess n with sessions := s.sessions.erase sess }
      (s.fuseAdmin = none → ∀ ok, exec (.finish sess key ok) s = .next (refused 0x05)) ∧
      (s.fuseAdmin = some admin →
        exec (.finish sess key false) s = .next (refused 0x05) ∧
        (key = admin → exec (.finish sess key true) s = .next { spdmOut s sess 0xE5 with sessions := s.sessions.set sess .admin }) ∧
        (key ≠ admin → (∀ e ∈ s.ctxs, e.2.digest ≠ key) → exec (.finish sess key true) s = .next (refused 0x05)) ∧
        ∀ n c, key ≠ admin → s.ctxs = [(n, c)] → c.digest = key →
          (c.session ≠ none → exec (.finish sess key true) s = .next (refused 0x03)) ∧
          (c.session = none → exec (.finish sess key true) s = .next { spdmOut s sess 0xE5 with
            sessions := s.sessions.set sess (.tenant n)
            ctxs := [(n, { c with session := some sess, keys := some first })] }))) ∧
    (s.sessions.get? sess = some .admin → exec (.heartbeat sess) s = .next (spdmOut s sess 0xE8) ∧
      exec (.keyUpdate sess) s = .next (spdmOut s sess 0xE9) ∧
      exec (.endSession sess) s = .next { spdmOut s sess 0xEC with sessions := s.sessions.erase sess } ∧
      exec (.heartbeatExpiry sess) s = .next { s with sessions := s.sessions.erase sess }) ∧
    (∀ n c k, s.sessions.get? sess = some (.tenant n) → s.ctxs.get? n = some c → c.keys = some k →
      exec (.heartbeat sess) s = .next (spdmOut s sess 0xE8) ∧
      exec (.endSession sess) s = .next ((spdmOut s sess 0xEC).endSess sess) ∧
      ∃ t c', exec (.keyUpdate sess) s = .next t ∧ t.ctxs.get? n = some c' ∧ { t with ctxs := s.ctxs } = spdmOut s sess 0xE9 ∧
        { c' with keys := c.keys } = c ∧ 
        let up (x : List Byte) : List Byte := Config.hkdfExpand x [0x75, 0x70, 0x64] 64
        let k' : Keys := { k with both := true, rx := up k.rx, tx := up k.tx, sendPhase := !k.sendPhase, sent := 0 }
        (k.both = false → c'.keys = some k') ∧
        (k.both = true → c'.keys = some { k' with phase := !k.phase, high := 0, answers := [] })) ∧
    (s.sessions.get? sess = none → exec (.heartbeat sess) s = .next s ∧ exec (.keyUpdate sess) s = .next s ∧
      exec (.endSession sess) s = .next s ∧ exec (.finish sess key true) s = .next s ∧ exec (.heartbeatExpiry sess) s = .next s)

/-! ## Connections and RDMA (R375 to R377, R398), links and windows (R368 to R372, R382), power and the clock (R386, R392,
R393) -/

/-- The physical pieces of an access with R_Key 3 (R398). -/
def physicalOk (s : State) (p : Sealed) (c : Ctx) (pa n : Nat) : Prop :=
  (c.isLocked = true ∨ c.st = .unlocked) ∧ pa < 2 ^ 48 ∧ s.inGrants p.ctx.toNat pa (pa + n) = true

/-- R370, R377, R379, R394, R396 and R398: an RDMA WRITE or READ of granted physical memory acts at its home, without
translation, in CONFIG_UNLOCKED, CONFIG_LOCKED and RUN; outside the grants it is refused and nothing is written. A virtual access
is translated with the context's tables, in CONFIG_LOCKED and RUN only; any other R_Key is refused. A write to another package
waits while no link carries traffic, and one that would change a poisoned word in part is refused whole. A retransmitted request
has no further effect and gets the answer that its first copy had, once that has one. -/
def clauseRdmaReachesTheContextsMemory : Prop :=
  ∀ (s u : State) (p : Sealed) (c : Ctx) (dup : Bool) (pa : DWord) (data : List Byte) (n : Nat), Accepted s p c dup u →
    let a := pa.toNat
    let len := data.length
    let write : Instr := .rdmaWritePhysical p pa data
    (dup = true → ∀ k, c.keys = some k → ∀ key, ∀ i ∈ [write, .rdmaWriteVirtual p key pa data, .rdmaReadPhysical p pa n,
        .rdmaReadVirtual p key pa n],
      (∀ o, k.answers.get? p.seq.toNat = some o → exec i s = .next (u.emit o)) ∧
      (k.answers.get? p.seq.toNat = none → exec i s = .next u)) ∧
    (dup = false → ¬physicalOk s p c a len → exec write s = .next (u.nak p)) ∧
    (dup = false → ¬physicalOk s p c a n → exec (.rdmaReadPhysical p pa n) s = .next (u.nak p)) ∧
    (dup = false → physicalOk s p c a len → 0 < len → a % 32 = 0 → len % 32 = 0 → (∀ y, a ≤ y → y < a + len → s.isOwn y = true) →
      ∃ t : State, exec write s = .next (t.ack p []) ∧
        (s.mem.wf = true → (∀ i (h : i < len), t.mem.get (a + i) = data[i]) ∧
          ((∀ y, a ≤ y → y < a + len → s.isLive y = true) → sameOutside s t a len) ∧
          ∀ z, (z / 65536 < a / 65536 ∨ (a + len - 1) / 65536 < z / 65536) → t.mem.get z = s.mem.get z) ∧
        (∀ y, a ≤ y → y < a + len → t.isLive y = true) ∧ t.strands = s.strands ∧ t.kernels = s.kernels) ∧
    (dup = false → physicalOk s p c a len → (∃ y, y ∈ byGranule a len ∧ s.isOwn y.1 = false) → s.linked = false →
      exec write s = .next { u with held := s.held ++ [.write p a (byGranule a len) data] }) ∧
    (dup = false → physicalOk s p c a n → 0 < n → (∀ y, a ≤ y → y < a + n → s.isOwn y = true) → s.poison = [] → s.injected = [] →
      s.mem.wf = true → ∃ (t : State) (bs : List Byte), exec (.rdmaReadPhysical p pa n) s = .next (t.ack p bs) ∧ t.mem = s.mem ∧
        bs.length = n ∧ ∀ i (h : i < bs.length), bs[i] = s.mem.get (a + i)) ∧
    (∀ key : Word, key ≠ 1 → key ≠ 2 → key ≠ 3 →
      dup = false → exec (.rdmaWriteVirtual p key pa data) s = .next (u.nak p) ∧
      exec (.rdmaReadVirtual p key pa n) s = .next (u.nak p)) ∧
    (c.isLocked = false → dup = false → exec (.rdmaWriteVirtual p 2 pa data) s = .next (u.nak p) ∧
      (¬waitsBefore s p → exec (.rdmaWriteVirtual p 1 pa data) s = .next (u.nak p)) ∧
      exec (.rdmaReadVirtual p 2 pa n) s = .next (u.nak p) ∧ exec (.rdmaReadVirtual p 1 pa n) s = .next (u.nak p)) ∧
    (c.isLocked = true → dup = false →
      let die := if p.port then 2 else 0
      let away (t : State) (ps : List (Nat × Nat)) : Prop := t.linked = false ∧ ∃ x ∈ ps, t.isOwn x.1 = false
      (∀ t f, u.transAll die p.ctx.toNat a len false true = (t, .error f) →
        exec (.rdmaWriteVirtual p 2 pa data) s = .next (t.nak p)) ∧
      (∀ t ps, u.transAll die p.ctx.toNat a len false true = (t, .ok ps) →
        (away t ps → exec (.rdmaWriteVirtual p 2 pa data) s = .next { t with held := t.held ++ [.write p a ps data] }) ∧
        (¬away t ps → (∀ x ∈ ps, x.1 % 32 = 0 ∧ x.2 % 32 = 0) →
          exec (.rdmaWriteVirtual p 2 pa data) s = .next ((t.putPieces ps data).ack p [])) ∧
        ∀ v l, ¬away t ps → t.edgeError p.ctx.toNat ps = (v, some l) → exec (.rdmaWriteVirtual p 2 pa data) s = .next (v.nak p)) ∧
      (∀ t ps, u.transAll die p.ctx.toNat a n true false = (t, .ok ps) →
        exec (.rdmaReadVirtual p 2 pa n) s = .next (match t.readPieces p.ctx.toNat ps with
          | (v, some bs) => v.ack p bs
          | (v, none) => v.nak p)) ∧
      (∀ x k, u.isOwn x = false → 0 < k →
        (u.linked = true → (∀ y ∈ u.poison, wordMeets x k y = false) →
          u.readPieces p.ctx.toNat [(x, k)] = (u, some (u.mem.read x k))) ∧
        (u.linked = false ∨ (∃ y ∈ u.poison, wordMeets x k y = true) → u.readPieces p.ctx.toNat [(x, k)] = (u, none))) ∧
      ∀ q (qid : BitVec 12), u.queueOf p.ctx.toNat qid.toNat = some q → a = 0x40 * qid.toNat →
        exec (.rdmaReadVirtual p 1 pa 16) s = .next (u.ack p
          (leBytes 4 q.tail.toNat ++ leBytes 4 q.head.toNat ++ leBytes 4 q.chead.toNat ++ leBytes 4 q.ctail.toNat)))

/-- R375 and R376: a management connection is accepted while its port has fewer than 64; a context connection only while the
context has a session and none on that port; any other purpose is refused; a request of another kind gets an invalid
request NAK, sealed under the next number on a connection of a context (R378). -/
def clauseConnectionsAreAcceptedOrRefused : Prop :=
  ∀ (s : State) (port : Bool) (b : Byte) (n : BitVec 8) (c : Ctx), s.dev ≠ .off →
    let no : State := s.emit (.refused port)
    exec (.invalidRequest (.management port)) s = .next (s.emit (.invalidNak port)) ∧
    (∀ p d k u, Accepted s p d false u → (u.ctxs.get? p.ctx.toNat).bind (·.keys) = some k → k.sent + 1 < 2 ^ 62 →
      ∃ t x, exec (.invalidRequest (.context p)) s = .next t ∧ t.outbox = s.outbox ++ [.sealedNak p.ctx p.port x] ∧
        x.header.toNat = k.sent + 1 + (if k.sendPhase then 2 ^ 63 else 0) ∧
        ((t.ctxs.get? p.ctx.toNat).bind (·.keys)).map (·.sent) = some (k.sent + 1) ∧ { t with ctxs := s.ctxs, outbox := s.outbox } = s) ∧
    (b ≠ 0 ∨ 64 ≤ s.mgmtConns.countP (fun e => e.2 == port) → exec (.managementConnectionRequest port b) s = .next no) ∧
    (b = 0 → s.mgmtConns.countP (fun e => e.2 == port) < 64 →
      exec (.managementConnectionRequest port b) s = .next { s.emit (.accepted port s.nextConn) with
        mgmtConns := s.mgmtConns.set s.nextConn port, nextConn := s.nextConn + 1 }) ∧
    (b ≠ 1 ∨ s.ctxs.get? n.toNat = none → exec (.contextConnectionRequest port b n) s = .next no) ∧
    (s.ctxs.get? n.toNat = some c →
      (c.session = none ∨ c.conns.getD port.toNat false = true → exec (.contextConnectionRequest port b n) s = .next no) ∧
      (b = 1 → c.session ≠ none → c.conns.getD port.toNat false = false →
        ∃ t c', exec (.contextConnectionRequest port b n) s = .next t ∧ { t with ctxs := s.ctxs } = s.emit (.accepted port n.toNat) ∧
          t.ctxs.get? n.toNat = some c' ∧ { c' with conns := c.conns } = c ∧
          (c.conns.length = 2 → c'.conns.getD port.toNat false = true ∧
            c'.conns.getD (!port).toNat false = c.conns.getD (!port).toNat false)))

/-- The links of every other place, and everything but the links and the events, as they were. -/
def onlyLink (s t : State) (i : Nat) : Prop :=
  (∀ j, j ≠ i → t.link j = s.link j) ∧ t.mem = s.mem ∧ t.strands = s.strands ∧ t.kernels = s.kernels ∧ t.dev = s.dev

/-- R368 to R371, R382: how a link changes state. Training with eight or nine good lanes gives ACTIVE, with four to seven
DEGRADED, else DOWN with lfail up; a retraining reaches ACTIVE by the spare alone; a lane that fails sends a link that carries traffic to RETRAINING with lrtr up, and the
spare may bring it back; a flit that fails its CRC is only counted, and one received before, on this link or another, is
discarded. An event in any other state has no effect. Host accesses that waited for a link go on with the first that carries
traffic. -/
def clauseLinksTrainAndFail : Prop :=
  ∀ (s : State) (i : Nat) (l : Link) (good : BitVec 9) (swid : BitVec 16) (lane : BitVec 4) (seq : Nat), i < 32 →
    (s.die (i / 8)).links.get? (i % 8) = some l →
    (l.st = .training ∨ l.st = .retraining →
      ∀ t, exec (.linkTrainingResult i good swid) s = .next t → t.held = if t.linked then [] else s.held) ∧
    (s.held = [] →
    let n := (List.range 9).countP (fun k => good.getLsbD k)
    let up : Prop := l.st = .active ∨ l.st = .degraded
    let trains : Prop := l.st = .training ∨ l.st = .retraining
    (∃ t, exec (.linkTrainingResult i good swid) s = .next t ∧ onlyLink s t i ∧ (¬trains → t = s) ∧
      (trains → (t.link i).bad = ~~~good ∧ (t.link i).swid = swid ∧ (t.link i).lcrc = l.lcrc ∧ (t.link i).lrtr = l.lrtr ∧
        (8 ≤ n → (t.link i).st = .active ∧ (t.link i).lfail = l.lfail) ∧
        (8 ≤ n → l.st = .retraining → (t.link i).spu = true) ∧ (n = 9 → l.st = .training → (t.link i).spu = false) ∧
        (n < 8 → (t.link i).spu = l.spu) ∧
        (4 ≤ n → n < 8 → (t.link i).st = .degraded ∧ (t.link i).lfail = l.lfail) ∧
        (n < 4 → (t.link i).st = .down ∧ (t.link i).lfail = l.lfail + 1))) ∧
    (∃ t, exec (.linkTrainingTimeout i) s = .next t ∧ onlyLink s t i ∧ (¬trains → t = s) ∧
      (trains → t.link i = { l with st := .down, lfail := l.lfail + 1 })) ∧
    (∃ t, exec (.linkLaneFailure i lane) s = .next t ∧ onlyLink s t i ∧ (¬up ∨ 9 ≤ lane.toNat → t = s) ∧
      (up → lane.toNat < 9 → (t.link i).st = .retraining ∧ (t.link i).lrtr = l.lrtr + 1 ∧ t.ctxs = s.ctxs ∧
        ∀ k < 9, (t.link i).bad.getLsbD k = (l.bad.getLsbD k || decide (k = lane.toNat)))) ∧
    (∃ t, exec (.linkSpareSwap i lane) s = .next t ∧ onlyLink s t i ∧ (l.st ≠ .retraining ∨ l.spu = true → t = s) ∧
      (l.st = .retraining → l.spu = false → lane.toNat < 9 → (t.link i).st = .active ∧ (t.link i).spu = true)) ∧
    (∃ t, exec (.flitCrcFailure i lane) s = .next t ∧ onlyLink s t i ∧ (¬up → t = s) ∧
      (up → t.link i = { l with lcrc := l.lcrc + 1 } ∧ t.ctxs = s.ctxs)) ∧
    (∃ t, exec (.flitReceive i seq) s = .next t ∧ onlyLink s t i ∧ (¬up ∨ (∃ d ∈ s.dies, ∃ x ∈ d.2.links, seq ∈ x.2.seen) → t = s) ∧
      (up → (∀ d ∈ s.dies, ∀ x ∈ d.2.links, seq ∉ x.2.seen) → t.link i = { l with seen := l.seen ++ [seq] } ∧ t.ctxs = s.ctxs)))

/-- R382 and R392: an event of a link, a port or the clock goes to the one context of a device in RUN, and to none that is not
in RUN. -/
def clauseRunEvents : Prop :=
  ∀ (s : State) (n : Nat) (c : Ctx) (port up : Bool) (i : Nat) (l : Link), s.ctxs = [(n, c)] → c.est ≠ 0 →
    c.waiting.length < 256 → s.held = [] →
    let posted (t : State) (e : Nat) : Prop := t.ctxs = [(n, if c.st = .run then { c with
      waiting := c.waiting ++ [leBytes 64 e] } else c)]
    (s.dev = .off ∨ s.carrier.getD port.toNat false = up → exec (.portCarrierChange port up) s = .next s) ∧
    (s.dev ≠ .off → s.carrier.getD port.toNat false ≠ up → ∃ t, exec (.portCarrierChange port up) s = .next t ∧
      t.carrier = s.carrier.set port.toNat up ∧ { t with carrier := s.carrier, ctxs := s.ctxs } = s ∧
      posted t (0x31 + port.toNat * 2 ^ 32 + up.toNat * 2 ^ 40)) ∧
    (i < 32 → (s.die (i / 8)).links.get? (i % 8) = some l → (l.st = .training ∨ l.st = .retraining) →
      ∃ t, exec (.linkTrainingTimeout i) s = .next t ∧ posted t (0x30 + i * 2 ^ 32)) ∧
    (s.dev ≠ .off → 2200 < s.mhz → ∃ t v, exec (.clockStep false) s = .next t ∧
      posted t (0x41 + v * 2 ^ 32) ∧ (v = (s.mhz - 275) / 4 ∨ v = (s.mhz - 275) / 4 + 1))

/-- R392 and R393: the clock goes up and down in steps of 68.75 MHz between 550 MHz and 1.1 GHz, and not up while it is
held; every die counts each step. THERMAL HOLD takes it to its lowest step. -/
def clauseClock : Prop :=
  ∀ (s : State), s.dev ≠ .off →
    let one (t : State) (k : Nat) : Prop := t.dies = s.dies ∧ t.steps = s.steps.map (· + BitVec.ofNat 32 k)
    (s.mhz ≤ 2200 → exec (.clockStep false) s = .next s) ∧
    (2200 < s.mhz → ∃ t, exec (.clockStep false) s = .next t ∧ t.mhz = s.mhz - 275 ∧ one t 1 ∧ t.mem = s.mem) ∧
    (s.hold = true ∨ 4400 ≤ s.mhz → exec (.clockStep true) s = .next s) ∧
    (s.hold = false → s.mhz < 4400 → ∃ t, exec (.clockStep true) s = .next t ∧ t.mhz = s.mhz + 275 ∧ one t 1 ∧ t.mem = s.mem) ∧
    (∀ k ≤ 8, s.mhz = 2200 + 275 * k → ∃ t, exec .thermalHold s = .next t ∧ t.hold = true ∧ t.mhz = 2200 ∧ one t k ∧ t.mem = s.mem) ∧
    exec .thermalRelease s = .next { s with hold := false }

/-- R386, R387 and R393: power brings an OFF device to ROM with its ports up; without power, or after a trip, everything is
lost but the fuses and the maps of spares, spare cores and fences, a core whose retirement was under way among them; other
packages keep their memory; a device that has power keeps its state when power is applied. -/
def clausePower : Prop :=
  ∀ (s : State),
    (s.dev ≠ .off → exec .powerApplied s = .next s) ∧
    (s.dev = .off → exec .powerApplied s = .next { s with dev := .rom, carrier := [true, true] }) ∧
    ∀ i ∈ [Instr.powerRemoved, .thermalTrip, .flowLossTrip], ∃ t, exec i s = .next t ∧ t.dev = .off ∧ t.ctxs = [] ∧
      t.kernels = [] ∧ t.strands = [] ∧ t.queues = [] ∧ t.sessions = [] ∧ t.pkg = none ∧ t.fwA = [] ∧ t.fwB = [] ∧ t.live = [] ∧
      t.fuseAdmin = s.fuseAdmin ∧ t.fuseFast = s.fuseFast ∧ t.floors = s.floors ∧ t.spares = s.spares ∧
      t.fencedDies = s.fencedDies ∧ t.fencedAtt = s.fencedAtt ∧
      ((∀ c ∈ s.cores, c.2.retired = false) → t.spareCores = s.spareCores) ∧
      (∀ c ∈ s.cores, c.2.retired = true → t.spareCores.get? (c.1 / 64 * 4 + c.1 % 64 / 16) ≠ none) ∧
      (s.mem.wf = true → (∀ y, s.isOwn y = true ∨ (2 ^ 48 ≤ y ∧ y < 2 ^ 48 + 2 ^ 38) → t.mem.get y = 0) ∧
        ∀ y, y < 2 ^ 48 → s.isOwn y = false → t.mem.get y = s.mem.get y)

/-- R372: a list of at most 8 windows of whole 2 MiB, each of one package, is kept by every die that has a link in training; it
takes effect there once no move of any kernel, on any die, is in flight to an address that it adds or removes, and a later list replaces one that waits; a
list that breaks these rules has no effect. -/
def clauseReductionWindows : Prop :=
  ∀ (s : State) (ws : List RedWindow),
    let ok : Prop := ws.length ≤ 8 ∧ ∀ w ∈ ws, w.base.toNat % 2 ^ 21 = 0 ∧ w.size.toNat % 2 ^ 21 = 0 ∧ 0 < w.size.toNat ∧
      w.base.toNat / 2 ^ 41 = (w.base.toNat + w.size.toNat - 1) / 2 ^ 41
    (¬ok → exec (.windowListAdvertise ws) s = .next s) ∧
    (ok → ∃ t, exec (.windowListAdvertise ws) s = .next t ∧ { t with dies := s.dies } = s ∧
      ∀ d x, s.dies.get? d = some x →
        ((∃ l ∈ x.links, l.2.st = .training) → t.dies.get? d = some { x with newWindows := some ws }) ∧
        ((∀ l ∈ x.links, l.2.st ≠ .training) → t.dies.get? d = some x)) ∧
    { s.settleWindows with dies := s.dies } = s ∧
    ∀ d x, s.dies.get? d = some x →
      (x.newWindows = none → s.settleWindows.dies.get? d = some x) ∧
      ∀ vs, x.newWindows = some vs →
        let changed := ((x.windows.filter (fun w => w ∉ vs)) ++ (vs.filter (fun w => w ∉ x.windows))).map (fun w =>
          (w.base.toNat, w.base.toNat + w.size.toNat))
        (s.movesTo changed = true → s.settleWindows.dies.get? d = some x) ∧
        (s.movesTo changed = false → s.settleWindows.dies.get? d = some { x with windows := vs, newWindows := none }) ∧
        ((∀ y ∈ s.dies, ∀ e ∈ y.2.engines, ∀ c ∈ e.2.cmds, c.st.gone = true) → s.contribs = [] → s.movesTo changed = false)

/-- R372, R382, R386, R387, R392, R393: the package's power, clock, windows and the events they post. -/
def clausePowerClockAndWindows : Prop := clauseRunEvents ∧ clauseClock ∧ clausePower ∧ clauseReductionWindows

/-- R375 to R377, R398: connections, and RDMA of a context's memory. That both ports count packets together, that a host write waits
in the device while its link is down, and what answers a retransmission are the model's choices (log 33). -/
def Obligations.ConnectionsAndRdmaReachTheContext : Prop :=
  clauseRdmaReachesTheContextsMemory ∧ clauseConnectionsAreAcceptedOrRefused

/-- R368 to R372, R382, R386, R392, R393: links, windows, power and the clock. The steps of a thermal hold and a list that breaks
R372 (log 34), what removing power leaves (log 3) and a retraining that has eight good lanes (log 32) are the model's choices. -/
def Obligations.LinksPowerAndTheClock : Prop := clauseLinksTrainAndFail ∧ clausePowerClockAndWindows

/-! ## The machine as a whole: fetch and decode, the memory, reset -/

/-- The step from `s`, whose agent acts in `t`, is the word or event `i`: an uncorrectable error met in its fetch takes its place
(R296), and the step counts what it did (`State.count`). -/
def runs (s t : State) (i : Instr) : Prop :=
  (∀ v, t.fetchCheck = (v, true) → step s = .next (v.count t i)) ∧
  ∀ v u, t.fetchCheck = (v, false) → exec i v = .next u → step s = .next (u.count v i)

/-- R84, R144, R145, R280, R290, R295, R329, R371: what a step counts beside its instruction's effect: the slot whose word has
issued, the lines of an access that was performed, counters of banks, stalls and flits whose rates the model leaves free (log 9),
the word in which a strand waits and the step of its issue, the records that have completed, and windows that take effect; nothing
else changes. A fetch meets an error only where a strand issues a word and the core's instruction scratchpad may hold one. -/
def clauseStepsCount : Prop :=
  ∀ (s t : State) (i : Instr),
    let u := s.count t i
    { u with cores := s.cores, teams := s.teams, dies := s.dies, strands := s.strands, queues := s.queues } = s ∧
    (∀ c, ∃ last cnt, u.core c = { s.core c with last := last, cnt := cnt }) ∧
    (∀ c, s.performed t = true → (u.core c).cnt.bkacc = (s.core c).cnt.bkacc + BitVec.ofNat 64 ((t.accesses i).lines c)) ∧
    (∀ c, s.performed t = false → s.stalled t = false → s.moved t = none → (u.core c).cnt = (s.core c).cnt) ∧
    (∀ k v, s.teams.get? k = some v → ∃ r, u.teams.get? k = some { v with regions := r } ∧
      ∀ j (h : j < 16), r[j] = { (v.regions[j]) with cfl := (r[j]).cfl }) ∧
    (∀ d, ∃ l q w n, u.die d = { s.die d with links := l, tfqw := q, windows := w, newWindows := n }) ∧
    (t.env = none → u.strands = s.strands) ∧
    (∀ e, t.env = some e → (∀ k, k ≠ e.key → u.strands.get? k = s.strands.get? k) ∧
      ∀ st, s.strands.get? e.key = some st → u.strands.get? e.key =
        some (if st.wait.isSome then { st with held := some i, issue := if e.st.hasIssued then e.st.issue else t.tick } else st)) ∧
    (∀ k q, s.queues.get? k = some q → u.queues.get? k = some { q with done :=
      (q.done ++ q.open_.filter (fun r => !q.done.contains r && (s.recs.get? r).any (fun x => (s.recStatus r x).isSome))) }) ∧
    (∀ c sl e, t.cur = .strand c sl → t.env = some e →
      let waits : Prop := ∃ st w, s.strands.get? e.key = some st ∧ st.wait = some w ∧ (w = .engine ∨ ∃ r, w = .full r)
      let before : Prop := ∃ w, e.st.wait = some w ∧ w ≠ .engine ∧ ∀ r, w ≠ .full r
      (¬before → ¬waits → (u.core c).last = sl) ∧ (before ∨ waits → (u.core c).last = (s.core c).last)) ∧
    ((t.poison = [] ∧ t.injected = []) ∨ (∀ c sl, t.cur ≠ .strand c sl) → t.fetchCheck = (t, false))

/-- R64, R71, R89, R100, R218, R280: the step of the agent that is next runs the instruction that the bytes at its program counter
decode to, or what the manual makes of a word that is illegal or lies out of range; a strand that waits in a word runs that word as
it was fetched. -/
def Obligations.StepRunsTheDecodedInstruction : Prop :=
  clauseStepsCount ∧
  ∀ (s : State) (a : Agent) (as : List Agent), s.agenda = a :: as →
    let t : State := { s with cur := a, tick := s.tick + 1, agenda := as }
    (∀ c sl e i, a = .strand c sl → t.env = some e → e.st.wait ≠ none → e.st.held = some i → runs s t i) ∧
    (∀ c sl e i, a = .strand c sl → t.env = some e → e.st.wait = none ∨ e.st.held = none →
      let pc := e.st.pc.toNat
      let w : Word := BitVec.ofNat 32 (s.mem.num (ispLoc c (pc - 0x800000)) 4)
      (pc < 0x800000 ∨ 0x840000 ≤ pc → runs s t (.fetchAddressTrap e.st.pc)) ∧
      (0x800000 ≤ pc → pc < 0x840000 → (∀ x ∈ (s.core c).stale, x.1 ≠ pc - 0x800000) →
        (decodeStrand w = some i → runs s t i) ∧ (decodeStrand w = none → runs s t (.illegalInstruction w)))) ∧
    (∀ n r i, a = .engine n → (s.eng n).run = some r → r.ended = false →
      let w : DWord := BitVec.ofNat 64 (s.mem.num (moveLoc (n / 128) + r.pc.toNat) 8)
      (r.pc.toNat % 8 ≠ 0 ∨ 2 ^ 20 < r.pc.toNat + 8 ∨ decodeMove w = none → runs s t .illegalMoveWord) ∧
      (r.pc.toNat % 8 = 0 → r.pc.toNat + 8 ≤ 2 ^ 20 → decodeMove w = some i → runs s t i)) ∧
    (∀ n r h hd x b d y i, a = .walker n → s.walkers.get? n = some r → (s.core r.core).sheaf r.seq = some h →
      tileInstr h.word = .twalk hd x b d → h.subs.head? = some (.disp y) →
      let w : Word := BitVec.ofNat 32 (s.mem.num (dspLoc r.core (b.toNat % 2 ^ 23 + 4 * r.wpc.toNat)) 4)
      let words : Int := b.toNat / 2 ^ 23 % 2 ^ 9
      (r.wpc < 0 ∨ words < r.wpc ∨ decodeWalker w = none → runs s t .walkerIllegalWord) ∧
      (0 ≤ r.wpc → r.wpc ≤ words → decodeWalker w = some i →
        runs s t (if 2 ^ 24 ≤ r.steps then .walkerStepLimit else i))) ∧
    (∀ c q u h i, a = .tile c q u → (s.core c).sheaf q = some h → u < h.subs.length → decodeTile h.word = some i →
      queuedWord i = none → runs s t i) ∧
    (∀ c x q i, a = .queue c x → (if x then (s.core c).xq.head? else (s.core c).tq.head?) = some q →
      decodeTile q.word = some i → queuedWord i = some x → runs s t i) ∧
    (∀ e n b k c, a = .box e n b k → (s.eng e).cmds.find? (fun c => c.num = n) = some c → issuesMove c.op = true →
      runs s t c.op) ∧
    (∀ i, a = .event i ∨ (a = .waiting i ∧ i ∈ s.requests) → i.kind = .event → misfetch i = false → runs s t i)

/-- No state stops the machine: every step answers a next state. That an event whose condition does not
hold changes nothing, and that a step never answers `noAgent`, because it fetches for an agent that exists, are the model's choices
(log 5). -/
def Obligations.EveryStepAnswersANextState : Prop := ∀ s : State, ∃ t, step s = .next t

/-- R55 to R72, R217: words that the manual writes out beside their instructions decode to them, and words that it calls
illegal decode to none. -/
def Obligations.WordsOfTheManualDecode : Prop :=
  decodeStrand 0x00700293 = some (.addi 5 0 7) ∧ decodeStrand 0x00532023 = some (.sw 5 6 0) ∧
  decodeStrand 0x00731463 = some (.bne 6 7 4) ∧ decodeStrand 0x808C9073 = some (.csrrw 0 0x808 25) ∧
  decodeStrand 0x0020120B = some (.lpBegini 4 2) ∧ decodeStrand 0x0041230B = none ∧
  decodeStrand 0x0410230B = some (.lpIdx 6 1) ∧ decodeStrand 0x0000200B = some .lpExit ∧ decodeStrand 0x0A00200B = some .sdone ∧
  decodeStrand 0x0072C00B = some (.semWait 7 5) ∧ decodeStrand 0x5072C00B = some (.wrAdv 7 5) ∧
  decodeStrand 0x06B5378B = some (.vcsLd 15 10 11) ∧ decodeStrand 0x0004300B = some (.tcLd 8) ∧
  decodeStrand 0x0400348B = some (.tcPush 9) ∧ decodeStrand 0x08B5300B = some (.tcForce 10 11) ∧
  decodeStrand 0x0A00300B = some .tcDrain ∧ decodeStrand 0x0462B22B = some (.vfmaF 4 5 6 2) ∧
  decodeTile 0x00FF00F100020000000000000000000000FF00F1000100000000010120903911 = none ∧
  decodeTile 0x00FF00F100020000000000000000000000FF00F1000100080000010120903111 = none ∧
  decodeTile 0x00FF00F100020000000000000000000000FF00F1000100000000010120903112 = some (.tcopy
    { waitSem := 3, waitEn := true, sigSem := 4, sigEn := true, scope := 0, waitAmt := 1, sigAmt := 1, chain := 0 }
    { addr := 0x10000, peer := 0, peerF := false, map := 0, fmt := 1, rows := 15, cols := 255, acc := false, tr := false,
      mask := false }
    { addr := 0x20000, peer := 0, peerF := false, map := 0, fmt := 1, rows := 15, cols := 255, acc := false, tr := false,
      mask := false }) ∧
  decodeMove 0xFFFFFFFFF8002303 = some (.mvAddi 3 2 0xFFFFFFFFF8) ∧ decodeMove 0x0000000000054406 = some (.mvShl 4 4 5) ∧
  decodeMove 0x0000000102003020 = some (.mvSig 3 2 1 0) ∧ decodeMove 0x000000000000003E = some .mvRet ∧
  decodeMove 0x000000000000000C = none ∧
  decodeWalker 0x00008944 = some (.wkAdd 5 2 2) ∧ decodeWalker 0x001022C1 = some (.wkLd 11 8 4) ∧
  decodeWalker 0x00064742 = some (.wkLdx 13 1 9 1) ∧ decodeWalker 0xFFEC3007 = some (.wkBr 12 0x3FFB) ∧
  decodeWalker 0x0000000D = some .wkEnd ∧ decodeWalker 0x0000000E = none

/-- R54 to R72: decoding the encoding of a well-formed instruction gives it back, for every operand that the encoding admits;
an event has no encoding. -/
def Obligations.EncodedInstructionsDecode : Prop :=
  ∀ i : Instr, (i.kind = .event → encode i = none) ∧
    (i.kind ≠ .event → i.wf = true → ∃ w, encode i = some w ∧ w.decode = some i)

/-- The memory of a state is in its canonical form: locations strictly rise, and none listed holds what an unlisted one
reads as (log 4). -/
def Obligations.EveryStepKeepsTheMemoryCanonical : Prop :=
  ∀ s t : State, s.mem.wf = true → step s = .next t → t.mem.wf = true

/-- R4, R386, R387: the device before power is applied: OFF, its memory in canonical form, nothing on it, and its package
number unset. The values that the manual does not give are the model's (log 3). -/
def Obligations.ResetIsTheDeviceWithoutPower : Prop :=
  State.reset.mem.wf = true ∧ State.reset.dev = .off ∧ State.reset.pkg = none ∧ State.reset.ctxs = [] ∧
    State.reset.kernels = [] ∧ State.reset.live = [] ∧ State.reset.nextLid = 1 ∧ State.reset.mhz = 4 * 1100 ∧
    (∀ a, State.reset.mem.get a = 0) ∧ step State.reset = .next { State.reset with tick := 1 }

end
end

