-- ==== Sys2Proof/Laws/Memory.lean ====
section
/-! SUPPORT. Memory: every operation on it keeps the canonical form, a read after a write gives the bytes written, and a
write leaves every other location alone. -/

namespace Sys2Proof.Machine

set_option Elab.async false

/-! ## The canonical form -/

theorem mem_wf_iff (m : Mem) : m.wf = true ↔ m.Pairwise (fun x y => x.1 < y.1) ∧ ∀ c ∈ m, c.2 ≠ 0 := by
  induction m with
  | nil => simp [Mem.wf]
  | cons c m ih =>
    obtain ⟨a, v⟩ := c
    cases m with
    | nil => simp [Mem.wf]
    | cons d m =>
      obtain ⟨b, w⟩ := d
      simp only [Mem.wf, Bool.and_eq_true, bne_iff_ne, ne_eq, decide_eq_true_eq, ih, List.pairwise_cons, List.mem_cons,
        forall_eq_or_imp]
      constructor
      · rintro ⟨⟨hv, hab⟩, ⟨hb, hm⟩, hw, hn⟩
        exact ⟨⟨⟨hab, fun x hx => Nat.lt_trans hab (hb x hx)⟩, hb, hm⟩, hv, hw, hn⟩
      · rintro ⟨⟨⟨hab, -⟩, hb, hm⟩, hv, hw, hn⟩
        exact ⟨⟨hv, hab⟩, ⟨hb, hm⟩, hw, hn⟩

/-- The locations below `a`, at or above it, and a slice of a memory in canonical form are in canonical form. -/
theorem mem_wf_sublist {m n : Mem} (h : m.wf = true) (hs : n.Sublist m) : n.wf = true := by
  rw [mem_wf_iff] at *
  exact ⟨h.1.sublist hs, fun c hc => h.2 c (hs.subset hc)⟩

theorem lt_of_mem_takeWhile {m : Mem} {a : Nat} {c : Nat × Byte} (h : c ∈ m.takeWhile (fun c => c.1 < a)) : c.1 < a := by
  induction m with
  | nil => simp at h
  | cons d m ih =>
    rw [List.takeWhile_cons] at h
    split at h
    · rename_i hd
      rcases List.mem_cons.1 h with rfl | h
      · simpa using hd
      · exact ih h
    · simp at h

theorem le_of_mem_dropWhile {m : Mem} {a : Nat} {c : Nat × Byte} (hm : m.wf = true)
    (h : c ∈ m.dropWhile (fun c => c.1 < a)) : a ≤ c.1 := by
  have hp := ((mem_wf_iff m).1 hm).1
  clear hm
  induction m with
  | nil => simp at h
  | cons d m ih =>
    rw [List.pairwise_cons] at hp
    rw [List.dropWhile_cons] at h
    split at h
    · exact ih h hp.2
    · rename_i hd
      simp only [decide_eq_true_eq, Nat.not_lt] at hd
      rcases List.mem_cons.1 h with rfl | h
      · exact hd
      · exact Nat.le_trans hd (Nat.le_of_lt (hp.1 c h))

/-- Two memories one after the other. -/
theorem mem_wf_append {m n : Mem} {b : Nat} (hm : m.wf = true) (hn : n.wf = true) (h1 : ∀ c ∈ m, c.1 < b)
    (h2 : ∀ c ∈ n, b ≤ c.1) : (m ++ n : Mem).wf = true := by
  rw [mem_wf_iff] at *
  refine ⟨List.pairwise_append.2 ⟨hm.1, hn.1, fun x hx y hy => Nat.lt_of_lt_of_le (h1 x hx) (h2 y hy)⟩, fun c hc => ?_⟩
  rcases List.mem_append.1 hc with hc | hc
  · exact hm.2 c hc
  · exact hn.2 c hc

theorem mem_cellsOf {a : Nat} {bs : List Byte} {c : Nat × Byte} (h : c ∈ cellsOf a bs) : a ≤ c.1 ∧ c.1 < a + bs.length := by
  induction bs generalizing a with
  | nil => simp [cellsOf] at h
  | cons b bs ih =>
    unfold cellsOf at h
    split at h
    · have := ih h; simp only [List.length_cons]; omega
    · rcases List.mem_cons.1 h with rfl | h
      · simp
      · have := ih h; simp only [List.length_cons]; omega

theorem cellsOf_wf (a : Nat) (bs : List Byte) : (cellsOf a bs).wf = true := by
  induction bs generalizing a with
  | nil => rfl
  | cons b bs ih =>
    unfold cellsOf
    split
    · exact ih _
    · rename_i hb
      rw [mem_wf_iff]
      have h := (mem_wf_iff _).1 (ih (a + 1))
      exact ⟨List.pairwise_cons.2 ⟨fun c hc => (mem_cellsOf hc).1, h.1⟩, by simpa using ⟨hb, fun x y hc => h.2 (x, y) hc⟩⟩

/-- Writing keeps the canonical form. -/
theorem write_wf {m : Mem} (h : m.wf = true) (a : Nat) (bs : List Byte) : (m.write a bs).wf = true := by
  unfold Mem.write
  refine mem_wf_append (b := a + bs.length) (mem_wf_append (b := a) (mem_wf_sublist h (List.takeWhile_sublist _)) (cellsOf_wf a bs)
    (fun c hc => lt_of_mem_takeWhile hc) (fun c hc => (mem_cellsOf hc).1)) (mem_wf_sublist h (List.dropWhile_sublist _)) ?_
    (fun c hc => le_of_mem_dropWhile h hc)
  intro c hc
  rcases List.mem_append.1 hc with hc | hc
  · exact Nat.lt_of_lt_of_le (lt_of_mem_takeWhile hc) (Nat.le_add_right _ _)
  · exact (mem_cellsOf hc).2

/-- Zeroing keeps the canonical form. -/
theorem clear_wf {m : Mem} (h : m.wf = true) (a n : Nat) : (m.clear a n).wf = true := by
  unfold Mem.clear
  refine mem_wf_append (b := a + n) (mem_wf_sublist h (List.takeWhile_sublist _)) (mem_wf_sublist h (List.dropWhile_sublist _))
    (fun c hc => ?_) (fun c hc => le_of_mem_dropWhile h hc)
  exact Nat.lt_of_lt_of_le (lt_of_mem_takeWhile hc) (Nat.le_add_right _ _)

/-- A slice of a memory in canonical form is one. -/
theorem slice_wf {m : Mem} (h : m.wf = true) (a n : Nat) : (m.slice a n).wf = true := by
  unfold Mem.slice
  have hs := ((List.takeWhile_sublist (fun c : Nat × Byte => decide (c.1 < a + n))).trans
    (List.dropWhile_sublist (l := m) (fun c => decide (c.1 < a))))
  have hw := (mem_wf_iff _).1 (mem_wf_sublist h hs)
  rw [mem_wf_iff]
  refine ⟨List.pairwise_map.2 (hw.1.imp_of_mem (fun {x y} hx _ hxy => ?_)), ?_⟩
  · have := le_of_mem_dropWhile h ((List.takeWhile_sublist _).subset hx)
    simp only
    omega
  · intro c hc
    obtain ⟨d, hd, rfl⟩ := List.mem_map.1 hc
    exact hw.2 d hd

/-- Pasting a slice keeps the canonical form. -/
theorem paste_wf {m sl : Mem} (h : m.wf = true) (hs : sl.wf = true) (a n : Nat) : (m.paste a n sl).wf = true := by
  unfold Mem.paste
  have hf := (mem_wf_iff _).1 (mem_wf_sublist hs (List.filter_sublist (p := fun c : Nat × Byte => decide (c.1 < n)) (l := sl)))
  have hmid : Mem.wf ((sl.filter (fun c => c.1 < n)).map (fun c => (a + c.1, c.2))) = true := by
    rw [mem_wf_iff]
    refine ⟨List.pairwise_map.2 (hf.1.imp (fun hxy => by simp only; omega)), fun c hc => ?_⟩
    obtain ⟨d, hd, rfl⟩ := List.mem_map.1 hc
    exact hf.2 d hd
  have hin : ∀ c ∈ ((sl.filter (fun c => c.1 < n)).map (fun c => (a + c.1, c.2)) : Mem), a ≤ c.1 ∧ c.1 < a + n := by
    intro c hc
    obtain ⟨d, hd, rfl⟩ := List.mem_map.1 hc
    have := (List.mem_filter.1 hd).2
    simp only [decide_eq_true_eq] at this
    simp only
    omega
  refine mem_wf_append (b := a + n) (mem_wf_append (b := a) (mem_wf_sublist h (List.takeWhile_sublist _)) hmid
    (fun c hc => lt_of_mem_takeWhile hc) (fun c hc => (hin c hc).1)) (mem_wf_sublist h (List.dropWhile_sublist _)) ?_
    (fun c hc => le_of_mem_dropWhile h hc)
  intro c hc
  rcases List.mem_append.1 hc with hc | hc
  · exact Nat.lt_of_lt_of_le (lt_of_mem_takeWhile hc) (Nat.le_add_right _ _)
  · exact (hin c hc).2

theorem setNum_wf {m : Mem} (h : m.wf = true) (a n v : Nat) : (m.setNum a n v).wf = true := write_wf h a _

theorem reset_mem_wf : State.reset.mem.wf = true := rfl

/-! ## Reads -/

theorem get_append_left {xs ys : Mem} {z : Nat} (h : ∀ c ∈ ys, c.1 ≠ z) : Mem.get (xs ++ ys) z = Mem.get xs z := by
  induction xs with
  | nil =>
    show Mem.get ys z = 0
    induction ys with
    | nil => rfl
    | cons c ys ih =>
      obtain ⟨b, v⟩ := c
      simp only [Mem.get, h (b, v) (by simp), if_false]
      exact ih (fun c hc => h c (List.mem_cons_of_mem _ hc))
  | cons c xs ih =>
    obtain ⟨b, v⟩ := c
    simp only [List.cons_append, Mem.get, ih]

theorem get_append_right {xs ys : Mem} {z : Nat} (h : ∀ c ∈ xs, c.1 ≠ z) : Mem.get (xs ++ ys) z = Mem.get ys z := by
  induction xs with
  | nil => rfl
  | cons c xs ih =>
    obtain ⟨b, v⟩ := c
    simp only [List.cons_append, Mem.get, h (b, v) (by simp), if_false]
    exact ih (fun c hc => h c (List.mem_cons_of_mem _ hc))

theorem get_of_none {m : Mem} {z : Nat} (h : ∀ c ∈ m, c.1 ≠ z) : m.get z = 0 := by
  exact get_append_left (xs := []) h

/-- Below `a` a memory reads as its part below `a`; from `a` on as the rest. -/
theorem get_takeWhile {m : Mem} (hm : m.wf = true) {a z : Nat} (hz : z < a) :
    Mem.get (m.takeWhile (fun c => c.1 < a)) z = m.get z := by
  have h := get_append_left (xs := m.takeWhile (fun c => c.1 < a)) (ys := m.dropWhile (fun c => c.1 < a)) (z := z)
    (fun c hc => by have := le_of_mem_dropWhile hm hc; omega)
  rw [List.takeWhile_append_dropWhile] at h
  exact h.symm

theorem get_dropWhile {m : Mem} {a z : Nat} (hz : a ≤ z) : Mem.get (m.dropWhile (fun c => c.1 < a)) z = m.get z := by
  have h := get_append_right (xs := m.takeWhile (fun c => c.1 < a)) (ys := m.dropWhile (fun c => c.1 < a)) (z := z)
    (fun c hc => by have := lt_of_mem_takeWhile hc; omega)
  rw [List.takeWhile_append_dropWhile] at h
  exact h.symm

theorem get_cellsOf (a : Nat) (bs : List Byte) (k : Nat) (h : k < bs.length) : Mem.get (cellsOf a bs) (a + k) = bs[k] := by
  induction bs generalizing a k with
  | nil => simp at h
  | cons b bs ih =>
    unfold cellsOf
    cases k with
    | zero =>
      split
      · rename_i hb
        rw [get_of_none]
        · simp [hb]
        · intro c hc
          have := (mem_cellsOf hc).1
          omega
      · simp [Mem.get]
    | succ k =>
      have hk := ih (a + 1) k (by simpa using h)
      rw [Nat.add_assoc, Nat.add_comm 1 k] at hk
      split
      · simpa using hk
      · simpa [Mem.get] using hk

/-- A byte that was written reads as written. -/
theorem get_write_in {m : Mem} (hm : m.wf = true) (a : Nat) (bs : List Byte) (k : Nat) (h : k < bs.length) :
    (m.write a bs).get (a + k) = bs[k] := by
  unfold Mem.write
  rw [get_append_left (fun c hc => by have := le_of_mem_dropWhile hm hc; omega),
    get_append_right (fun c hc => by have := lt_of_mem_takeWhile hc; omega), get_cellsOf a bs k h]

/-- A write leaves every other byte alone. -/
theorem get_write_out {m : Mem} (hm : m.wf = true) {a z : Nat} {bs : List Byte} (h : z < a ∨ a + bs.length ≤ z) :
    (m.write a bs).get z = m.get z := by
  unfold Mem.write
  rcases h with h | h
  · rw [List.append_assoc, get_append_left (fun c hc => ?_), get_takeWhile hm h]
    rcases List.mem_append.1 hc with hc | hc
    · have := (mem_cellsOf hc).1; omega
    · have := le_of_mem_dropWhile hm hc; omega
  · rw [get_append_right (fun c hc => ?_), get_dropWhile h]
    rcases List.mem_append.1 hc with hc | hc
    · have := lt_of_mem_takeWhile hc; omega
    · have := (mem_cellsOf hc).2; omega

/-- Zeroed bytes read 0, and no other byte changes. -/
theorem get_clear {m : Mem} (hm : m.wf = true) (a n z : Nat) :
    (m.clear a n).get z = if a ≤ z ∧ z < a + n then 0 else m.get z := by
  unfold Mem.clear
  split
  · rename_i h
    refine get_of_none (fun c hc => ?_)
    rcases List.mem_append.1 hc with hc | hc
    · have := lt_of_mem_takeWhile hc; omega
    · have := le_of_mem_dropWhile hm hc; omega
  · rename_i h
    by_cases hz : z < a
    · rw [get_append_left (fun c hc => by have := le_of_mem_dropWhile hm hc; omega), get_takeWhile hm hz]
    · rw [get_append_right (fun c hc => by have := lt_of_mem_takeWhile hc; omega), get_dropWhile (by omega)]

theorem get_cons_ne {b z : Nat} {v : Byte} {m : Mem} (h : b ≠ z) : Mem.get ((b, v) :: m) z = Mem.get m z := by
  simp [Mem.get, h]

/-- A run of bytes of a memory none of whose cells lies below it. -/
theorem bytesOf_eq (n a : Nat) (m : Mem) (hm : m.wf = true) (h : ∀ c ∈ m, a ≤ c.1) :
    bytesOf a n m = (List.range n).map (fun k => m.get (a + k)) := by
  induction n generalizing a m with
  | zero => rfl
  | succ n ih =>
    rw [List.range_succ_eq_map, List.map_cons, List.map_map]
    have shift : ∀ (k : Nat), a + 1 + k = a + (k + 1) := by omega
    cases m with
    | nil =>
      simp only [bytesOf, ih (a + 1) [] rfl (by simp), Mem.get]
      rfl
    | cons c m =>
      obtain ⟨b, v⟩ := c
      have hw := mem_wf_sublist hm (List.sublist_cons_self (b, v) m)
      have hp := ((mem_wf_iff _).1 hm).1
      rw [List.pairwise_cons] at hp
      unfold bytesOf
      split
      · rename_i hb
        subst hb
        rw [ih (b + 1) m hw (fun c hc => hp.1 c hc)]
        simp only [Mem.get, Nat.add_zero, if_true, List.cons.injEq, true_and]
        refine List.map_congr_left (fun k _ => ?_)
        simp only [Function.comp_apply, shift, Nat.succ_eq_add_one]
        rw [if_neg (by omega)]
      · rename_i hb
        have hab : a ≤ b := h (b, v) (by simp)
        rw [ih (a + 1) ((b, v) :: m) hm (fun c hc => by
          rcases List.mem_cons.1 hc with rfl | hc
          · simp only; omega
          · have := hp.1 c hc; simp only at this; omega)]
        rw [List.cons.injEq]
        refine ⟨?_, List.map_congr_left (fun k _ => ?_)⟩
        · refine (get_of_none (fun c hc => ?_)).symm
          rcases List.mem_cons.1 hc with rfl | hc
          · simp only; omega
          · have := hp.1 c hc; simp only at this; omega
        · simp only [Function.comp_apply, shift, Nat.succ_eq_add_one]

/-- A read gives the bytes of its locations. -/
theorem read_eq {m : Mem} (hm : m.wf = true) (a n : Nat) : m.read a n = (List.range n).map (fun k => m.get (a + k)) := by
  unfold Mem.read
  rw [bytesOf_eq n a _ (mem_wf_sublist hm (List.dropWhile_sublist _)) (fun c hc => le_of_mem_dropWhile hm hc)]
  exact List.map_congr_left (fun k _ => get_dropWhile (Nat.le_add_right a k))

/-- A read after a write to the same place gives what was written. -/
theorem read_write {m : Mem} (hm : m.wf = true) (a : Nat) (bs : List Byte) : (m.write a bs).read a bs.length = bs := by
  rw [read_eq (write_wf hm a bs)]
  refine List.ext_getElem (by simp) (fun k h1 h2 => ?_)
  simp only [List.getElem_map, List.getElem_range]
  exact get_write_in hm a bs k h2

/-- A read of bytes that a write does not meet gives what it gave before. -/
theorem read_write_out {m : Mem} (hm : m.wf = true) {a b n : Nat} {bs : List Byte} (h : b + n ≤ a ∨ a + bs.length ≤ b) :
    (m.write a bs).read b n = m.read b n := by
  rw [read_eq (write_wf hm a bs), read_eq hm]
  refine List.map_congr_left (fun k hk => get_write_out hm ?_)
  have := List.mem_range.1 hk
  omega

/-! ## Numbers of bytes -/

@[simp] theorem leBytes_length (n v : Nat) : (leBytes n v).length = n := by
  induction n generalizing v with
  | zero => rfl
  | succ n ih => simp [leBytes, ih]

theorem leNat_leBytes (n v : Nat) : leNat (leBytes n v) = v % 256 ^ n := by
  induction n generalizing v with
  | zero => simp [leBytes, leNat, Nat.mod_one]
  | succ n ih =>
    simp only [leBytes, leNat, ih, BitVec.toNat_ofNat]
    rw [show (256 : Nat) ^ (n + 1) = 256 * 256 ^ n from Nat.pow_succ', @Nat.mod_mul 256 (256 ^ n) v]

/-- A number that was stored is read back, as far as its bytes hold it. -/
theorem num_setNum {m : Mem} (hm : m.wf = true) (a n v : Nat) : (m.setNum a n v).num a n = v % 256 ^ n := by
  unfold Mem.num Mem.setNum
  have h := read_write hm a (leBytes n v)
  rw [leBytes_length] at h
  rw [h, leNat_leBytes]

end Sys2Proof.Machine
end

