-- ==== Sys2Proof/Laws/State.lean ====
section
/-! SUPPORT. What each update of the state does to each field, true by unfolding. -/

namespace Sys2Proof.Machine.State

set_option Elab.async false

variable (s : State)

@[simp] theorem setCore_cur (c : Nat) (v : Core) : (s.setCore c v).cur = s.cur := rfl
@[simp] theorem setCore_agenda (c : Nat) (v : Core) : (s.setCore c v).agenda = s.agenda := rfl
@[simp] theorem setCore_tick (c : Nat) (v : Core) : (s.setCore c v).tick = s.tick := rfl
@[simp] theorem setCore_outbox (c : Nat) (v : Core) : (s.setCore c v).outbox = s.outbox := rfl
@[simp] theorem setCore_mem (c : Nat) (v : Core) : (s.setCore c v).mem = s.mem := rfl
@[simp] theorem setCore_strands (c : Nat) (v : Core) : (s.setCore c v).strands = s.strands := rfl
@[simp] theorem setCore_teams (c : Nat) (v : Core) : (s.setCore c v).teams = s.teams := rfl
@[simp] theorem setCore_kernels (c : Nat) (v : Core) : (s.setCore c v).kernels = s.kernels := rfl
@[simp] theorem setCore_recs (c : Nat) (v : Core) : (s.setCore c v).recs = s.recs := rfl
@[simp] theorem setCore_sems (c : Nat) (v : Core) : (s.setCore c v).sems = s.sems := rfl
@[simp] theorem setCore_cores (c : Nat) (v : Core) : (s.setCore c v).cores = s.cores.set c v := rfl
@[simp] theorem setCore_walkers (c : Nat) (v : Core) : (s.setCore c v).walkers = s.walkers := rfl
@[simp] theorem setCore_dies (c : Nat) (v : Core) : (s.setCore c v).dies = s.dies := rfl
@[simp] theorem setCore_ctxs (c : Nat) (v : Core) : (s.setCore c v).ctxs = s.ctxs := rfl
@[simp] theorem setCore_queues (c : Nat) (v : Core) : (s.setCore c v).queues = s.queues := rfl
@[simp] theorem setCore_sessions (c : Nat) (v : Core) : (s.setCore c v).sessions = s.sessions := rfl
@[simp] theorem setCore_mgmtConns (c : Nat) (v : Core) : (s.setCore c v).mgmtConns = s.mgmtConns := rfl
@[simp] theorem setCore_nextConn (c : Nat) (v : Core) : (s.setCore c v).nextConn = s.nextConn := rfl
@[simp] theorem setCore_nextRec (c : Nat) (v : Core) : (s.setCore c v).nextRec = s.nextRec := rfl
@[simp] theorem setCore_nextLid (c : Nat) (v : Core) : (s.setCore c v).nextLid = s.nextLid := rfl
@[simp] theorem setCore_turn (c : Nat) (v : Core) : (s.setCore c v).turn = s.turn := rfl
@[simp] theorem setCore_live (c : Nat) (v : Core) : (s.setCore c v).live = s.live := rfl
@[simp] theorem setCore_poison (c : Nat) (v : Core) : (s.setCore c v).poison = s.poison := rfl
@[simp] theorem setCore_injected (c : Nat) (v : Core) : (s.setCore c v).injected = s.injected := rfl
@[simp] theorem setCore_arrays (c : Nat) (v : Core) : (s.setCore c v).arrays = s.arrays := rfl
@[simp] theorem setCore_contribs (c : Nat) (v : Core) : (s.setCore c v).contribs = s.contribs := rfl
@[simp] theorem setCore_seats (c : Nat) (v : Core) : (s.setCore c v).seats = s.seats := rfl
@[simp] theorem setCore_dev (c : Nat) (v : Core) : (s.setCore c v).dev = s.dev := rfl
@[simp] theorem setCore_pkg (c : Nat) (v : Core) : (s.setCore c v).pkg = s.pkg := rfl
@[simp] theorem setCore_meas (c : Nat) (v : Core) : (s.setCore c v).meas = s.meas := rfl
@[simp] theorem setCore_fuseAdmin (c : Nat) (v : Core) : (s.setCore c v).fuseAdmin = s.fuseAdmin := rfl
@[simp] theorem setCore_fuseFast (c : Nat) (v : Core) : (s.setCore c v).fuseFast = s.fuseFast := rfl
@[simp] theorem setCore_floors (c : Nat) (v : Core) : (s.setCore c v).floors = s.floors := rfl
@[simp] theorem setCore_mhz (c : Nat) (v : Core) : (s.setCore c v).mhz = s.mhz := rfl
@[simp] theorem setCore_hold (c : Nat) (v : Core) : (s.setCore c v).hold = s.hold := rfl
@[simp] theorem setCore_fencedDies (c : Nat) (v : Core) : (s.setCore c v).fencedDies = s.fencedDies := rfl
@[simp] theorem setCore_fencedAtt (c : Nat) (v : Core) : (s.setCore c v).fencedAtt = s.fencedAtt := rfl
@[simp] theorem setCore_spares (c : Nat) (v : Core) : (s.setCore c v).spares = s.spares := rfl
@[simp] theorem setCore_spareCores (c : Nat) (v : Core) : (s.setCore c v).spareCores = s.spareCores := rfl
@[simp] theorem setCore_carrier (c : Nat) (v : Core) : (s.setCore c v).carrier = s.carrier := rfl
@[simp] theorem setCore_activating (c : Nat) (v : Core) : (s.setCore c v).activating = s.activating := rfl
@[simp] theorem setCore_requests (c : Nat) (v : Core) : (s.setCore c v).requests = s.requests := rfl
@[simp] theorem setCore_held (c : Nat) (v : Core) : (s.setCore c v).held = s.held := rfl
@[simp] theorem setCore_steps (c : Nat) (v : Core) : (s.setCore c v).steps = s.steps := rfl
@[simp] theorem setCore_fwA (c : Nat) (v : Core) : (s.setCore c v).fwA = s.fwA := rfl
@[simp] theorem setCore_fwB (c : Nat) (v : Core) : (s.setCore c v).fwB = s.fwB := rfl
@[simp] theorem setCore_starter (c : Nat) (v : Core) : (s.setCore c v).starter = s.starter := rfl

@[simp] theorem setTeam_cur (k : Nat) (v : Team) : (s.setTeam k v).cur = s.cur := rfl
@[simp] theorem setTeam_agenda (k : Nat) (v : Team) : (s.setTeam k v).agenda = s.agenda := rfl
@[simp] theorem setTeam_tick (k : Nat) (v : Team) : (s.setTeam k v).tick = s.tick := rfl
@[simp] theorem setTeam_outbox (k : Nat) (v : Team) : (s.setTeam k v).outbox = s.outbox := rfl
@[simp] theorem setTeam_mem (k : Nat) (v : Team) : (s.setTeam k v).mem = s.mem := rfl
@[simp] theorem setTeam_strands (k : Nat) (v : Team) : (s.setTeam k v).strands = s.strands := rfl
@[simp] theorem setTeam_teams (k : Nat) (v : Team) : (s.setTeam k v).teams = s.teams.set k v := rfl
@[simp] theorem setTeam_kernels (k : Nat) (v : Team) : (s.setTeam k v).kernels = s.kernels := rfl
@[simp] theorem setTeam_recs (k : Nat) (v : Team) : (s.setTeam k v).recs = s.recs := rfl
@[simp] theorem setTeam_sems (k : Nat) (v : Team) : (s.setTeam k v).sems = s.sems := rfl
@[simp] theorem setTeam_cores (k : Nat) (v : Team) : (s.setTeam k v).cores = s.cores := rfl
@[simp] theorem setTeam_walkers (k : Nat) (v : Team) : (s.setTeam k v).walkers = s.walkers := rfl
@[simp] theorem setTeam_dies (k : Nat) (v : Team) : (s.setTeam k v).dies = s.dies := rfl
@[simp] theorem setTeam_ctxs (k : Nat) (v : Team) : (s.setTeam k v).ctxs = s.ctxs := rfl
@[simp] theorem setTeam_queues (k : Nat) (v : Team) : (s.setTeam k v).queues = s.queues := rfl
@[simp] theorem setTeam_sessions (k : Nat) (v : Team) : (s.setTeam k v).sessions = s.sessions := rfl
@[simp] theorem setTeam_mgmtConns (k : Nat) (v : Team) : (s.setTeam k v).mgmtConns = s.mgmtConns := rfl
@[simp] theorem setTeam_nextConn (k : Nat) (v : Team) : (s.setTeam k v).nextConn = s.nextConn := rfl
@[simp] theorem setTeam_nextRec (k : Nat) (v : Team) : (s.setTeam k v).nextRec = s.nextRec := rfl
@[simp] theorem setTeam_nextLid (k : Nat) (v : Team) : (s.setTeam k v).nextLid = s.nextLid := rfl
@[simp] theorem setTeam_turn (k : Nat) (v : Team) : (s.setTeam k v).turn = s.turn := rfl
@[simp] theorem setTeam_live (k : Nat) (v : Team) : (s.setTeam k v).live = s.live := rfl
@[simp] theorem setTeam_poison (k : Nat) (v : Team) : (s.setTeam k v).poison = s.poison := rfl
@[simp] theorem setTeam_injected (k : Nat) (v : Team) : (s.setTeam k v).injected = s.injected := rfl
@[simp] theorem setTeam_arrays (k : Nat) (v : Team) : (s.setTeam k v).arrays = s.arrays := rfl
@[simp] theorem setTeam_contribs (k : Nat) (v : Team) : (s.setTeam k v).contribs = s.contribs := rfl
@[simp] theorem setTeam_seats (k : Nat) (v : Team) : (s.setTeam k v).seats = s.seats := rfl
@[simp] theorem setTeam_dev (k : Nat) (v : Team) : (s.setTeam k v).dev = s.dev := rfl
@[simp] theorem setTeam_pkg (k : Nat) (v : Team) : (s.setTeam k v).pkg = s.pkg := rfl
@[simp] theorem setTeam_meas (k : Nat) (v : Team) : (s.setTeam k v).meas = s.meas := rfl
@[simp] theorem setTeam_fuseAdmin (k : Nat) (v : Team) : (s.setTeam k v).fuseAdmin = s.fuseAdmin := rfl
@[simp] theorem setTeam_fuseFast (k : Nat) (v : Team) : (s.setTeam k v).fuseFast = s.fuseFast := rfl
@[simp] theorem setTeam_floors (k : Nat) (v : Team) : (s.setTeam k v).floors = s.floors := rfl
@[simp] theorem setTeam_mhz (k : Nat) (v : Team) : (s.setTeam k v).mhz = s.mhz := rfl
@[simp] theorem setTeam_hold (k : Nat) (v : Team) : (s.setTeam k v).hold = s.hold := rfl
@[simp] theorem setTeam_fencedDies (k : Nat) (v : Team) : (s.setTeam k v).fencedDies = s.fencedDies := rfl
@[simp] theorem setTeam_fencedAtt (k : Nat) (v : Team) : (s.setTeam k v).fencedAtt = s.fencedAtt := rfl
@[simp] theorem setTeam_spares (k : Nat) (v : Team) : (s.setTeam k v).spares = s.spares := rfl
@[simp] theorem setTeam_spareCores (k : Nat) (v : Team) : (s.setTeam k v).spareCores = s.spareCores := rfl
@[simp] theorem setTeam_carrier (k : Nat) (v : Team) : (s.setTeam k v).carrier = s.carrier := rfl
@[simp] theorem setTeam_activating (k : Nat) (v : Team) : (s.setTeam k v).activating = s.activating := rfl
@[simp] theorem setTeam_requests (k : Nat) (v : Team) : (s.setTeam k v).requests = s.requests := rfl
@[simp] theorem setTeam_held (k : Nat) (v : Team) : (s.setTeam k v).held = s.held := rfl
@[simp] theorem setTeam_steps (k : Nat) (v : Team) : (s.setTeam k v).steps = s.steps := rfl
@[simp] theorem setTeam_fwA (k : Nat) (v : Team) : (s.setTeam k v).fwA = s.fwA := rfl
@[simp] theorem setTeam_fwB (k : Nat) (v : Team) : (s.setTeam k v).fwB = s.fwB := rfl
@[simp] theorem setTeam_starter (k : Nat) (v : Team) : (s.setTeam k v).starter = s.starter := rfl

@[simp] theorem setStrand_cur (k : Nat) (v : Strand) : (s.setStrand k v).cur = s.cur := rfl
@[simp] theorem setStrand_agenda (k : Nat) (v : Strand) : (s.setStrand k v).agenda = s.agenda := rfl
@[simp] theorem setStrand_tick (k : Nat) (v : Strand) : (s.setStrand k v).tick = s.tick := rfl
@[simp] theorem setStrand_outbox (k : Nat) (v : Strand) : (s.setStrand k v).outbox = s.outbox := rfl
@[simp] theorem setStrand_mem (k : Nat) (v : Strand) : (s.setStrand k v).mem = s.mem := rfl
@[simp] theorem setStrand_strands (k : Nat) (v : Strand) : (s.setStrand k v).strands = s.strands.set k v := rfl
@[simp] theorem setStrand_teams (k : Nat) (v : Strand) : (s.setStrand k v).teams = s.teams := rfl
@[simp] theorem setStrand_kernels (k : Nat) (v : Strand) : (s.setStrand k v).kernels = s.kernels := rfl
@[simp] theorem setStrand_recs (k : Nat) (v : Strand) : (s.setStrand k v).recs = s.recs := rfl
@[simp] theorem setStrand_sems (k : Nat) (v : Strand) : (s.setStrand k v).sems = s.sems := rfl
@[simp] theorem setStrand_cores (k : Nat) (v : Strand) : (s.setStrand k v).cores = s.cores := rfl
@[simp] theorem setStrand_walkers (k : Nat) (v : Strand) : (s.setStrand k v).walkers = s.walkers := rfl
@[simp] theorem setStrand_dies (k : Nat) (v : Strand) : (s.setStrand k v).dies = s.dies := rfl
@[simp] theorem setStrand_ctxs (k : Nat) (v : Strand) : (s.setStrand k v).ctxs = s.ctxs := rfl
@[simp] theorem setStrand_queues (k : Nat) (v : Strand) : (s.setStrand k v).queues = s.queues := rfl
@[simp] theorem setStrand_sessions (k : Nat) (v : Strand) : (s.setStrand k v).sessions = s.sessions := rfl
@[simp] theorem setStrand_mgmtConns (k : Nat) (v : Strand) : (s.setStrand k v).mgmtConns = s.mgmtConns := rfl
@[simp] theorem setStrand_nextConn (k : Nat) (v : Strand) : (s.setStrand k v).nextConn = s.nextConn := rfl
@[simp] theorem setStrand_nextRec (k : Nat) (v : Strand) : (s.setStrand k v).nextRec = s.nextRec := rfl
@[simp] theorem setStrand_nextLid (k : Nat) (v : Strand) : (s.setStrand k v).nextLid = s.nextLid := rfl
@[simp] theorem setStrand_turn (k : Nat) (v : Strand) : (s.setStrand k v).turn = s.turn := rfl
@[simp] theorem setStrand_live (k : Nat) (v : Strand) : (s.setStrand k v).live = s.live := rfl
@[simp] theorem setStrand_poison (k : Nat) (v : Strand) : (s.setStrand k v).poison = s.poison := rfl
@[simp] theorem setStrand_injected (k : Nat) (v : Strand) : (s.setStrand k v).injected = s.injected := rfl
@[simp] theorem setStrand_arrays (k : Nat) (v : Strand) : (s.setStrand k v).arrays = s.arrays := rfl
@[simp] theorem setStrand_contribs (k : Nat) (v : Strand) : (s.setStrand k v).contribs = s.contribs := rfl
@[simp] theorem setStrand_seats (k : Nat) (v : Strand) : (s.setStrand k v).seats = s.seats := rfl
@[simp] theorem setStrand_dev (k : Nat) (v : Strand) : (s.setStrand k v).dev = s.dev := rfl
@[simp] theorem setStrand_pkg (k : Nat) (v : Strand) : (s.setStrand k v).pkg = s.pkg := rfl
@[simp] theorem setStrand_meas (k : Nat) (v : Strand) : (s.setStrand k v).meas = s.meas := rfl
@[simp] theorem setStrand_fuseAdmin (k : Nat) (v : Strand) : (s.setStrand k v).fuseAdmin = s.fuseAdmin := rfl
@[simp] theorem setStrand_fuseFast (k : Nat) (v : Strand) : (s.setStrand k v).fuseFast = s.fuseFast := rfl
@[simp] theorem setStrand_floors (k : Nat) (v : Strand) : (s.setStrand k v).floors = s.floors := rfl
@[simp] theorem setStrand_mhz (k : Nat) (v : Strand) : (s.setStrand k v).mhz = s.mhz := rfl
@[simp] theorem setStrand_hold (k : Nat) (v : Strand) : (s.setStrand k v).hold = s.hold := rfl
@[simp] theorem setStrand_fencedDies (k : Nat) (v : Strand) : (s.setStrand k v).fencedDies = s.fencedDies := rfl
@[simp] theorem setStrand_fencedAtt (k : Nat) (v : Strand) : (s.setStrand k v).fencedAtt = s.fencedAtt := rfl
@[simp] theorem setStrand_spares (k : Nat) (v : Strand) : (s.setStrand k v).spares = s.spares := rfl
@[simp] theorem setStrand_spareCores (k : Nat) (v : Strand) : (s.setStrand k v).spareCores = s.spareCores := rfl
@[simp] theorem setStrand_carrier (k : Nat) (v : Strand) : (s.setStrand k v).carrier = s.carrier := rfl
@[simp] theorem setStrand_activating (k : Nat) (v : Strand) : (s.setStrand k v).activating = s.activating := rfl
@[simp] theorem setStrand_requests (k : Nat) (v : Strand) : (s.setStrand k v).requests = s.requests := rfl
@[simp] theorem setStrand_held (k : Nat) (v : Strand) : (s.setStrand k v).held = s.held := rfl
@[simp] theorem setStrand_steps (k : Nat) (v : Strand) : (s.setStrand k v).steps = s.steps := rfl
@[simp] theorem setStrand_fwA (k : Nat) (v : Strand) : (s.setStrand k v).fwA = s.fwA := rfl
@[simp] theorem setStrand_fwB (k : Nat) (v : Strand) : (s.setStrand k v).fwB = s.fwB := rfl
@[simp] theorem setStrand_starter (k : Nat) (v : Strand) : (s.setStrand k v).starter = s.starter := rfl

@[simp] theorem setKernel_cur (k : Nat) (v : Kernel) : (s.setKernel k v).cur = s.cur := rfl
@[simp] theorem setKernel_agenda (k : Nat) (v : Kernel) : (s.setKernel k v).agenda = s.agenda := rfl
@[simp] theorem setKernel_tick (k : Nat) (v : Kernel) : (s.setKernel k v).tick = s.tick := rfl
@[simp] theorem setKernel_outbox (k : Nat) (v : Kernel) : (s.setKernel k v).outbox = s.outbox := rfl
@[simp] theorem setKernel_mem (k : Nat) (v : Kernel) : (s.setKernel k v).mem = s.mem := rfl
@[simp] theorem setKernel_strands (k : Nat) (v : Kernel) : (s.setKernel k v).strands = s.strands := rfl
@[simp] theorem setKernel_teams (k : Nat) (v : Kernel) : (s.setKernel k v).teams = s.teams := rfl
@[simp] theorem setKernel_kernels (k : Nat) (v : Kernel) : (s.setKernel k v).kernels = s.kernels.set k v := rfl
@[simp] theorem setKernel_recs (k : Nat) (v : Kernel) : (s.setKernel k v).recs = s.recs := rfl
@[simp] theorem setKernel_sems (k : Nat) (v : Kernel) : (s.setKernel k v).sems = s.sems := rfl
@[simp] theorem setKernel_cores (k : Nat) (v : Kernel) : (s.setKernel k v).cores = s.cores := rfl
@[simp] theorem setKernel_walkers (k : Nat) (v : Kernel) : (s.setKernel k v).walkers = s.walkers := rfl
@[simp] theorem setKernel_dies (k : Nat) (v : Kernel) : (s.setKernel k v).dies = s.dies := rfl
@[simp] theorem setKernel_ctxs (k : Nat) (v : Kernel) : (s.setKernel k v).ctxs = s.ctxs := rfl
@[simp] theorem setKernel_queues (k : Nat) (v : Kernel) : (s.setKernel k v).queues = s.queues := rfl
@[simp] theorem setKernel_sessions (k : Nat) (v : Kernel) : (s.setKernel k v).sessions = s.sessions := rfl
@[simp] theorem setKernel_mgmtConns (k : Nat) (v : Kernel) : (s.setKernel k v).mgmtConns = s.mgmtConns := rfl
@[simp] theorem setKernel_nextConn (k : Nat) (v : Kernel) : (s.setKernel k v).nextConn = s.nextConn := rfl
@[simp] theorem setKernel_nextRec (k : Nat) (v : Kernel) : (s.setKernel k v).nextRec = s.nextRec := rfl
@[simp] theorem setKernel_nextLid (k : Nat) (v : Kernel) : (s.setKernel k v).nextLid = s.nextLid := rfl
@[simp] theorem setKernel_turn (k : Nat) (v : Kernel) : (s.setKernel k v).turn = s.turn := rfl
@[simp] theorem setKernel_live (k : Nat) (v : Kernel) : (s.setKernel k v).live = s.live := rfl
@[simp] theorem setKernel_poison (k : Nat) (v : Kernel) : (s.setKernel k v).poison = s.poison := rfl
@[simp] theorem setKernel_injected (k : Nat) (v : Kernel) : (s.setKernel k v).injected = s.injected := rfl
@[simp] theorem setKernel_arrays (k : Nat) (v : Kernel) : (s.setKernel k v).arrays = s.arrays := rfl
@[simp] theorem setKernel_contribs (k : Nat) (v : Kernel) : (s.setKernel k v).contribs = s.contribs := rfl
@[simp] theorem setKernel_seats (k : Nat) (v : Kernel) : (s.setKernel k v).seats = s.seats := rfl
@[simp] theorem setKernel_dev (k : Nat) (v : Kernel) : (s.setKernel k v).dev = s.dev := rfl
@[simp] theorem setKernel_pkg (k : Nat) (v : Kernel) : (s.setKernel k v).pkg = s.pkg := rfl
@[simp] theorem setKernel_meas (k : Nat) (v : Kernel) : (s.setKernel k v).meas = s.meas := rfl
@[simp] theorem setKernel_fuseAdmin (k : Nat) (v : Kernel) : (s.setKernel k v).fuseAdmin = s.fuseAdmin := rfl
@[simp] theorem setKernel_fuseFast (k : Nat) (v : Kernel) : (s.setKernel k v).fuseFast = s.fuseFast := rfl
@[simp] theorem setKernel_floors (k : Nat) (v : Kernel) : (s.setKernel k v).floors = s.floors := rfl
@[simp] theorem setKernel_mhz (k : Nat) (v : Kernel) : (s.setKernel k v).mhz = s.mhz := rfl
@[simp] theorem setKernel_hold (k : Nat) (v : Kernel) : (s.setKernel k v).hold = s.hold := rfl
@[simp] theorem setKernel_fencedDies (k : Nat) (v : Kernel) : (s.setKernel k v).fencedDies = s.fencedDies := rfl
@[simp] theorem setKernel_fencedAtt (k : Nat) (v : Kernel) : (s.setKernel k v).fencedAtt = s.fencedAtt := rfl
@[simp] theorem setKernel_spares (k : Nat) (v : Kernel) : (s.setKernel k v).spares = s.spares := rfl
@[simp] theorem setKernel_spareCores (k : Nat) (v : Kernel) : (s.setKernel k v).spareCores = s.spareCores := rfl
@[simp] theorem setKernel_carrier (k : Nat) (v : Kernel) : (s.setKernel k v).carrier = s.carrier := rfl
@[simp] theorem setKernel_activating (k : Nat) (v : Kernel) : (s.setKernel k v).activating = s.activating := rfl
@[simp] theorem setKernel_requests (k : Nat) (v : Kernel) : (s.setKernel k v).requests = s.requests := rfl
@[simp] theorem setKernel_held (k : Nat) (v : Kernel) : (s.setKernel k v).held = s.held := rfl
@[simp] theorem setKernel_steps (k : Nat) (v : Kernel) : (s.setKernel k v).steps = s.steps := rfl
@[simp] theorem setKernel_fwA (k : Nat) (v : Kernel) : (s.setKernel k v).fwA = s.fwA := rfl
@[simp] theorem setKernel_fwB (k : Nat) (v : Kernel) : (s.setKernel k v).fwB = s.fwB := rfl
@[simp] theorem setKernel_starter (k : Nat) (v : Kernel) : (s.setKernel k v).starter = s.starter := rfl

@[simp] theorem setDie_cur (d : Nat) (v : Die) : (s.setDie d v).cur = s.cur := rfl
@[simp] theorem setDie_agenda (d : Nat) (v : Die) : (s.setDie d v).agenda = s.agenda := rfl
@[simp] theorem setDie_tick (d : Nat) (v : Die) : (s.setDie d v).tick = s.tick := rfl
@[simp] theorem setDie_outbox (d : Nat) (v : Die) : (s.setDie d v).outbox = s.outbox := rfl
@[simp] theorem setDie_mem (d : Nat) (v : Die) : (s.setDie d v).mem = s.mem := rfl
@[simp] theorem setDie_strands (d : Nat) (v : Die) : (s.setDie d v).strands = s.strands := rfl
@[simp] theorem setDie_teams (d : Nat) (v : Die) : (s.setDie d v).teams = s.teams := rfl
@[simp] theorem setDie_kernels (d : Nat) (v : Die) : (s.setDie d v).kernels = s.kernels := rfl
@[simp] theorem setDie_recs (d : Nat) (v : Die) : (s.setDie d v).recs = s.recs := rfl
@[simp] theorem setDie_sems (d : Nat) (v : Die) : (s.setDie d v).sems = s.sems := rfl
@[simp] theorem setDie_cores (d : Nat) (v : Die) : (s.setDie d v).cores = s.cores := rfl
@[simp] theorem setDie_walkers (d : Nat) (v : Die) : (s.setDie d v).walkers = s.walkers := rfl
@[simp] theorem setDie_dies (d : Nat) (v : Die) : (s.setDie d v).dies = s.dies.set d v := rfl
@[simp] theorem setDie_ctxs (d : Nat) (v : Die) : (s.setDie d v).ctxs = s.ctxs := rfl
@[simp] theorem setDie_queues (d : Nat) (v : Die) : (s.setDie d v).queues = s.queues := rfl
@[simp] theorem setDie_sessions (d : Nat) (v : Die) : (s.setDie d v).sessions = s.sessions := rfl
@[simp] theorem setDie_mgmtConns (d : Nat) (v : Die) : (s.setDie d v).mgmtConns = s.mgmtConns := rfl
@[simp] theorem setDie_nextConn (d : Nat) (v : Die) : (s.setDie d v).nextConn = s.nextConn := rfl
@[simp] theorem setDie_nextRec (d : Nat) (v : Die) : (s.setDie d v).nextRec = s.nextRec := rfl
@[simp] theorem setDie_nextLid (d : Nat) (v : Die) : (s.setDie d v).nextLid = s.nextLid := rfl
@[simp] theorem setDie_turn (d : Nat) (v : Die) : (s.setDie d v).turn = s.turn := rfl
@[simp] theorem setDie_live (d : Nat) (v : Die) : (s.setDie d v).live = s.live := rfl
@[simp] theorem setDie_poison (d : Nat) (v : Die) : (s.setDie d v).poison = s.poison := rfl
@[simp] theorem setDie_injected (d : Nat) (v : Die) : (s.setDie d v).injected = s.injected := rfl
@[simp] theorem setDie_arrays (d : Nat) (v : Die) : (s.setDie d v).arrays = s.arrays := rfl
@[simp] theorem setDie_contribs (d : Nat) (v : Die) : (s.setDie d v).contribs = s.contribs := rfl
@[simp] theorem setDie_seats (d : Nat) (v : Die) : (s.setDie d v).seats = s.seats := rfl
@[simp] theorem setDie_dev (d : Nat) (v : Die) : (s.setDie d v).dev = s.dev := rfl
@[simp] theorem setDie_pkg (d : Nat) (v : Die) : (s.setDie d v).pkg = s.pkg := rfl
@[simp] theorem setDie_meas (d : Nat) (v : Die) : (s.setDie d v).meas = s.meas := rfl
@[simp] theorem setDie_fuseAdmin (d : Nat) (v : Die) : (s.setDie d v).fuseAdmin = s.fuseAdmin := rfl
@[simp] theorem setDie_fuseFast (d : Nat) (v : Die) : (s.setDie d v).fuseFast = s.fuseFast := rfl
@[simp] theorem setDie_floors (d : Nat) (v : Die) : (s.setDie d v).floors = s.floors := rfl
@[simp] theorem setDie_mhz (d : Nat) (v : Die) : (s.setDie d v).mhz = s.mhz := rfl
@[simp] theorem setDie_hold (d : Nat) (v : Die) : (s.setDie d v).hold = s.hold := rfl
@[simp] theorem setDie_fencedDies (d : Nat) (v : Die) : (s.setDie d v).fencedDies = s.fencedDies := rfl
@[simp] theorem setDie_fencedAtt (d : Nat) (v : Die) : (s.setDie d v).fencedAtt = s.fencedAtt := rfl
@[simp] theorem setDie_spares (d : Nat) (v : Die) : (s.setDie d v).spares = s.spares := rfl
@[simp] theorem setDie_spareCores (d : Nat) (v : Die) : (s.setDie d v).spareCores = s.spareCores := rfl
@[simp] theorem setDie_carrier (d : Nat) (v : Die) : (s.setDie d v).carrier = s.carrier := rfl
@[simp] theorem setDie_activating (d : Nat) (v : Die) : (s.setDie d v).activating = s.activating := rfl
@[simp] theorem setDie_requests (d : Nat) (v : Die) : (s.setDie d v).requests = s.requests := rfl
@[simp] theorem setDie_held (d : Nat) (v : Die) : (s.setDie d v).held = s.held := rfl
@[simp] theorem setDie_steps (d : Nat) (v : Die) : (s.setDie d v).steps = s.steps := rfl
@[simp] theorem setDie_fwA (d : Nat) (v : Die) : (s.setDie d v).fwA = s.fwA := rfl
@[simp] theorem setDie_fwB (d : Nat) (v : Die) : (s.setDie d v).fwB = s.fwB := rfl
@[simp] theorem setDie_starter (d : Nat) (v : Die) : (s.setDie d v).starter = s.starter := rfl

@[simp] theorem setMem_cur (m : Mem) : (s.setMem m).cur = s.cur := rfl
@[simp] theorem setMem_agenda (m : Mem) : (s.setMem m).agenda = s.agenda := rfl
@[simp] theorem setMem_tick (m : Mem) : (s.setMem m).tick = s.tick := rfl
@[simp] theorem setMem_outbox (m : Mem) : (s.setMem m).outbox = s.outbox := rfl
@[simp] theorem setMem_mem (m : Mem) : (s.setMem m).mem = m := rfl
@[simp] theorem setMem_strands (m : Mem) : (s.setMem m).strands = s.strands := rfl
@[simp] theorem setMem_teams (m : Mem) : (s.setMem m).teams = s.teams := rfl
@[simp] theorem setMem_kernels (m : Mem) : (s.setMem m).kernels = s.kernels := rfl
@[simp] theorem setMem_recs (m : Mem) : (s.setMem m).recs = s.recs := rfl
@[simp] theorem setMem_sems (m : Mem) : (s.setMem m).sems = s.sems := rfl
@[simp] theorem setMem_cores (m : Mem) : (s.setMem m).cores = s.cores := rfl
@[simp] theorem setMem_walkers (m : Mem) : (s.setMem m).walkers = s.walkers := rfl
@[simp] theorem setMem_dies (m : Mem) : (s.setMem m).dies = s.dies := rfl
@[simp] theorem setMem_ctxs (m : Mem) : (s.setMem m).ctxs = s.ctxs := rfl
@[simp] theorem setMem_queues (m : Mem) : (s.setMem m).queues = s.queues := rfl
@[simp] theorem setMem_sessions (m : Mem) : (s.setMem m).sessions = s.sessions := rfl
@[simp] theorem setMem_mgmtConns (m : Mem) : (s.setMem m).mgmtConns = s.mgmtConns := rfl
@[simp] theorem setMem_nextConn (m : Mem) : (s.setMem m).nextConn = s.nextConn := rfl
@[simp] theorem setMem_nextRec (m : Mem) : (s.setMem m).nextRec = s.nextRec := rfl
@[simp] theorem setMem_nextLid (m : Mem) : (s.setMem m).nextLid = s.nextLid := rfl
@[simp] theorem setMem_turn (m : Mem) : (s.setMem m).turn = s.turn := rfl
@[simp] theorem setMem_live (m : Mem) : (s.setMem m).live = s.live := rfl
@[simp] theorem setMem_poison (m : Mem) : (s.setMem m).poison = s.poison := rfl
@[simp] theorem setMem_injected (m : Mem) : (s.setMem m).injected = s.injected := rfl
@[simp] theorem setMem_arrays (m : Mem) : (s.setMem m).arrays = s.arrays := rfl
@[simp] theorem setMem_contribs (m : Mem) : (s.setMem m).contribs = s.contribs := rfl
@[simp] theorem setMem_seats (m : Mem) : (s.setMem m).seats = s.seats := rfl
@[simp] theorem setMem_dev (m : Mem) : (s.setMem m).dev = s.dev := rfl
@[simp] theorem setMem_pkg (m : Mem) : (s.setMem m).pkg = s.pkg := rfl
@[simp] theorem setMem_meas (m : Mem) : (s.setMem m).meas = s.meas := rfl
@[simp] theorem setMem_fuseAdmin (m : Mem) : (s.setMem m).fuseAdmin = s.fuseAdmin := rfl
@[simp] theorem setMem_fuseFast (m : Mem) : (s.setMem m).fuseFast = s.fuseFast := rfl
@[simp] theorem setMem_floors (m : Mem) : (s.setMem m).floors = s.floors := rfl
@[simp] theorem setMem_mhz (m : Mem) : (s.setMem m).mhz = s.mhz := rfl
@[simp] theorem setMem_hold (m : Mem) : (s.setMem m).hold = s.hold := rfl
@[simp] theorem setMem_fencedDies (m : Mem) : (s.setMem m).fencedDies = s.fencedDies := rfl
@[simp] theorem setMem_fencedAtt (m : Mem) : (s.setMem m).fencedAtt = s.fencedAtt := rfl
@[simp] theorem setMem_spares (m : Mem) : (s.setMem m).spares = s.spares := rfl
@[simp] theorem setMem_spareCores (m : Mem) : (s.setMem m).spareCores = s.spareCores := rfl
@[simp] theorem setMem_carrier (m : Mem) : (s.setMem m).carrier = s.carrier := rfl
@[simp] theorem setMem_activating (m : Mem) : (s.setMem m).activating = s.activating := rfl
@[simp] theorem setMem_requests (m : Mem) : (s.setMem m).requests = s.requests := rfl
@[simp] theorem setMem_held (m : Mem) : (s.setMem m).held = s.held := rfl
@[simp] theorem setMem_steps (m : Mem) : (s.setMem m).steps = s.steps := rfl
@[simp] theorem setMem_fwA (m : Mem) : (s.setMem m).fwA = s.fwA := rfl
@[simp] theorem setMem_fwB (m : Mem) : (s.setMem m).fwB = s.fwB := rfl
@[simp] theorem setMem_starter (m : Mem) : (s.setMem m).starter = s.starter := rfl

@[simp] theorem updCore_cur (c : Nat) (f : Core → Core) : (s.updCore c f).cur = s.cur := rfl
@[simp] theorem updCore_agenda (c : Nat) (f : Core → Core) : (s.updCore c f).agenda = s.agenda := rfl
@[simp] theorem updCore_tick (c : Nat) (f : Core → Core) : (s.updCore c f).tick = s.tick := rfl
@[simp] theorem updCore_outbox (c : Nat) (f : Core → Core) : (s.updCore c f).outbox = s.outbox := rfl
@[simp] theorem updCore_mem (c : Nat) (f : Core → Core) : (s.updCore c f).mem = s.mem := rfl
@[simp] theorem updCore_strands (c : Nat) (f : Core → Core) : (s.updCore c f).strands = s.strands := rfl
@[simp] theorem updCore_teams (c : Nat) (f : Core → Core) : (s.updCore c f).teams = s.teams := rfl
@[simp] theorem updCore_kernels (c : Nat) (f : Core → Core) : (s.updCore c f).kernels = s.kernels := rfl
@[simp] theorem updCore_recs (c : Nat) (f : Core → Core) : (s.updCore c f).recs = s.recs := rfl
@[simp] theorem updCore_sems (c : Nat) (f : Core → Core) : (s.updCore c f).sems = s.sems := rfl
@[simp] theorem updCore_cores (c : Nat) (f : Core → Core) : (s.updCore c f).cores = s.cores.set c (f (s.core c)) := rfl
@[simp] theorem updCore_walkers (c : Nat) (f : Core → Core) : (s.updCore c f).walkers = s.walkers := rfl
@[simp] theorem updCore_dies (c : Nat) (f : Core → Core) : (s.updCore c f).dies = s.dies := rfl
@[simp] theorem updCore_ctxs (c : Nat) (f : Core → Core) : (s.updCore c f).ctxs = s.ctxs := rfl
@[simp] theorem updCore_queues (c : Nat) (f : Core → Core) : (s.updCore c f).queues = s.queues := rfl
@[simp] theorem updCore_sessions (c : Nat) (f : Core → Core) : (s.updCore c f).sessions = s.sessions := rfl
@[simp] theorem updCore_mgmtConns (c : Nat) (f : Core → Core) : (s.updCore c f).mgmtConns = s.mgmtConns := rfl
@[simp] theorem updCore_nextConn (c : Nat) (f : Core → Core) : (s.updCore c f).nextConn = s.nextConn := rfl
@[simp] theorem updCore_nextRec (c : Nat) (f : Core → Core) : (s.updCore c f).nextRec = s.nextRec := rfl
@[simp] theorem updCore_nextLid (c : Nat) (f : Core → Core) : (s.updCore c f).nextLid = s.nextLid := rfl
@[simp] theorem updCore_turn (c : Nat) (f : Core → Core) : (s.updCore c f).turn = s.turn := rfl
@[simp] theorem updCore_live (c : Nat) (f : Core → Core) : (s.updCore c f).live = s.live := rfl
@[simp] theorem updCore_poison (c : Nat) (f : Core → Core) : (s.updCore c f).poison = s.poison := rfl
@[simp] theorem updCore_injected (c : Nat) (f : Core → Core) : (s.updCore c f).injected = s.injected := rfl
@[simp] theorem updCore_arrays (c : Nat) (f : Core → Core) : (s.updCore c f).arrays = s.arrays := rfl
@[simp] theorem updCore_contribs (c : Nat) (f : Core → Core) : (s.updCore c f).contribs = s.contribs := rfl
@[simp] theorem updCore_seats (c : Nat) (f : Core → Core) : (s.updCore c f).seats = s.seats := rfl
@[simp] theorem updCore_dev (c : Nat) (f : Core → Core) : (s.updCore c f).dev = s.dev := rfl
@[simp] theorem updCore_pkg (c : Nat) (f : Core → Core) : (s.updCore c f).pkg = s.pkg := rfl
@[simp] theorem updCore_meas (c : Nat) (f : Core → Core) : (s.updCore c f).meas = s.meas := rfl
@[simp] theorem updCore_fuseAdmin (c : Nat) (f : Core → Core) : (s.updCore c f).fuseAdmin = s.fuseAdmin := rfl
@[simp] theorem updCore_fuseFast (c : Nat) (f : Core → Core) : (s.updCore c f).fuseFast = s.fuseFast := rfl
@[simp] theorem updCore_floors (c : Nat) (f : Core → Core) : (s.updCore c f).floors = s.floors := rfl
@[simp] theorem updCore_mhz (c : Nat) (f : Core → Core) : (s.updCore c f).mhz = s.mhz := rfl
@[simp] theorem updCore_hold (c : Nat) (f : Core → Core) : (s.updCore c f).hold = s.hold := rfl
@[simp] theorem updCore_fencedDies (c : Nat) (f : Core → Core) : (s.updCore c f).fencedDies = s.fencedDies := rfl
@[simp] theorem updCore_fencedAtt (c : Nat) (f : Core → Core) : (s.updCore c f).fencedAtt = s.fencedAtt := rfl
@[simp] theorem updCore_spares (c : Nat) (f : Core → Core) : (s.updCore c f).spares = s.spares := rfl
@[simp] theorem updCore_spareCores (c : Nat) (f : Core → Core) : (s.updCore c f).spareCores = s.spareCores := rfl
@[simp] theorem updCore_carrier (c : Nat) (f : Core → Core) : (s.updCore c f).carrier = s.carrier := rfl
@[simp] theorem updCore_activating (c : Nat) (f : Core → Core) : (s.updCore c f).activating = s.activating := rfl
@[simp] theorem updCore_requests (c : Nat) (f : Core → Core) : (s.updCore c f).requests = s.requests := rfl
@[simp] theorem updCore_held (c : Nat) (f : Core → Core) : (s.updCore c f).held = s.held := rfl
@[simp] theorem updCore_steps (c : Nat) (f : Core → Core) : (s.updCore c f).steps = s.steps := rfl
@[simp] theorem updCore_fwA (c : Nat) (f : Core → Core) : (s.updCore c f).fwA = s.fwA := rfl
@[simp] theorem updCore_fwB (c : Nat) (f : Core → Core) : (s.updCore c f).fwB = s.fwB := rfl
@[simp] theorem updCore_starter (c : Nat) (f : Core → Core) : (s.updCore c f).starter = s.starter := rfl

@[simp] theorem updTeam_cur (k : Nat) (f : Team → Team) : (s.updTeam k f).cur = s.cur := rfl
@[simp] theorem updTeam_agenda (k : Nat) (f : Team → Team) : (s.updTeam k f).agenda = s.agenda := rfl
@[simp] theorem updTeam_tick (k : Nat) (f : Team → Team) : (s.updTeam k f).tick = s.tick := rfl
@[simp] theorem updTeam_outbox (k : Nat) (f : Team → Team) : (s.updTeam k f).outbox = s.outbox := rfl
@[simp] theorem updTeam_mem (k : Nat) (f : Team → Team) : (s.updTeam k f).mem = s.mem := rfl
@[simp] theorem updTeam_strands (k : Nat) (f : Team → Team) : (s.updTeam k f).strands = s.strands := rfl
@[simp] theorem updTeam_teams (k : Nat) (f : Team → Team) : (s.updTeam k f).teams = s.teams.modify k f := rfl
@[simp] theorem updTeam_kernels (k : Nat) (f : Team → Team) : (s.updTeam k f).kernels = s.kernels := rfl
@[simp] theorem updTeam_recs (k : Nat) (f : Team → Team) : (s.updTeam k f).recs = s.recs := rfl
@[simp] theorem updTeam_sems (k : Nat) (f : Team → Team) : (s.updTeam k f).sems = s.sems := rfl
@[simp] theorem updTeam_cores (k : Nat) (f : Team → Team) : (s.updTeam k f).cores = s.cores := rfl
@[simp] theorem updTeam_walkers (k : Nat) (f : Team → Team) : (s.updTeam k f).walkers = s.walkers := rfl
@[simp] theorem updTeam_dies (k : Nat) (f : Team → Team) : (s.updTeam k f).dies = s.dies := rfl
@[simp] theorem updTeam_ctxs (k : Nat) (f : Team → Team) : (s.updTeam k f).ctxs = s.ctxs := rfl
@[simp] theorem updTeam_queues (k : Nat) (f : Team → Team) : (s.updTeam k f).queues = s.queues := rfl
@[simp] theorem updTeam_sessions (k : Nat) (f : Team → Team) : (s.updTeam k f).sessions = s.sessions := rfl
@[simp] theorem updTeam_mgmtConns (k : Nat) (f : Team → Team) : (s.updTeam k f).mgmtConns = s.mgmtConns := rfl
@[simp] theorem updTeam_nextConn (k : Nat) (f : Team → Team) : (s.updTeam k f).nextConn = s.nextConn := rfl
@[simp] theorem updTeam_nextRec (k : Nat) (f : Team → Team) : (s.updTeam k f).nextRec = s.nextRec := rfl
@[simp] theorem updTeam_nextLid (k : Nat) (f : Team → Team) : (s.updTeam k f).nextLid = s.nextLid := rfl
@[simp] theorem updTeam_turn (k : Nat) (f : Team → Team) : (s.updTeam k f).turn = s.turn := rfl
@[simp] theorem updTeam_live (k : Nat) (f : Team → Team) : (s.updTeam k f).live = s.live := rfl
@[simp] theorem updTeam_poison (k : Nat) (f : Team → Team) : (s.updTeam k f).poison = s.poison := rfl
@[simp] theorem updTeam_injected (k : Nat) (f : Team → Team) : (s.updTeam k f).injected = s.injected := rfl
@[simp] theorem updTeam_arrays (k : Nat) (f : Team → Team) : (s.updTeam k f).arrays = s.arrays := rfl
@[simp] theorem updTeam_contribs (k : Nat) (f : Team → Team) : (s.updTeam k f).contribs = s.contribs := rfl
@[simp] theorem updTeam_seats (k : Nat) (f : Team → Team) : (s.updTeam k f).seats = s.seats := rfl
@[simp] theorem updTeam_dev (k : Nat) (f : Team → Team) : (s.updTeam k f).dev = s.dev := rfl
@[simp] theorem updTeam_pkg (k : Nat) (f : Team → Team) : (s.updTeam k f).pkg = s.pkg := rfl
@[simp] theorem updTeam_meas (k : Nat) (f : Team → Team) : (s.updTeam k f).meas = s.meas := rfl
@[simp] theorem updTeam_fuseAdmin (k : Nat) (f : Team → Team) : (s.updTeam k f).fuseAdmin = s.fuseAdmin := rfl
@[simp] theorem updTeam_fuseFast (k : Nat) (f : Team → Team) : (s.updTeam k f).fuseFast = s.fuseFast := rfl
@[simp] theorem updTeam_floors (k : Nat) (f : Team → Team) : (s.updTeam k f).floors = s.floors := rfl
@[simp] theorem updTeam_mhz (k : Nat) (f : Team → Team) : (s.updTeam k f).mhz = s.mhz := rfl
@[simp] theorem updTeam_hold (k : Nat) (f : Team → Team) : (s.updTeam k f).hold = s.hold := rfl
@[simp] theorem updTeam_fencedDies (k : Nat) (f : Team → Team) : (s.updTeam k f).fencedDies = s.fencedDies := rfl
@[simp] theorem updTeam_fencedAtt (k : Nat) (f : Team → Team) : (s.updTeam k f).fencedAtt = s.fencedAtt := rfl
@[simp] theorem updTeam_spares (k : Nat) (f : Team → Team) : (s.updTeam k f).spares = s.spares := rfl
@[simp] theorem updTeam_spareCores (k : Nat) (f : Team → Team) : (s.updTeam k f).spareCores = s.spareCores := rfl
@[simp] theorem updTeam_carrier (k : Nat) (f : Team → Team) : (s.updTeam k f).carrier = s.carrier := rfl
@[simp] theorem updTeam_activating (k : Nat) (f : Team → Team) : (s.updTeam k f).activating = s.activating := rfl
@[simp] theorem updTeam_requests (k : Nat) (f : Team → Team) : (s.updTeam k f).requests = s.requests := rfl
@[simp] theorem updTeam_held (k : Nat) (f : Team → Team) : (s.updTeam k f).held = s.held := rfl
@[simp] theorem updTeam_steps (k : Nat) (f : Team → Team) : (s.updTeam k f).steps = s.steps := rfl
@[simp] theorem updTeam_fwA (k : Nat) (f : Team → Team) : (s.updTeam k f).fwA = s.fwA := rfl
@[simp] theorem updTeam_fwB (k : Nat) (f : Team → Team) : (s.updTeam k f).fwB = s.fwB := rfl
@[simp] theorem updTeam_starter (k : Nat) (f : Team → Team) : (s.updTeam k f).starter = s.starter := rfl

@[simp] theorem updStrand_cur (k : Nat) (f : Strand → Strand) : (s.updStrand k f).cur = s.cur := rfl
@[simp] theorem updStrand_agenda (k : Nat) (f : Strand → Strand) : (s.updStrand k f).agenda = s.agenda := rfl
@[simp] theorem updStrand_tick (k : Nat) (f : Strand → Strand) : (s.updStrand k f).tick = s.tick := rfl
@[simp] theorem updStrand_outbox (k : Nat) (f : Strand → Strand) : (s.updStrand k f).outbox = s.outbox := rfl
@[simp] theorem updStrand_mem (k : Nat) (f : Strand → Strand) : (s.updStrand k f).mem = s.mem := rfl
@[simp] theorem updStrand_strands (k : Nat) (f : Strand → Strand) : (s.updStrand k f).strands = s.strands.modify k f := rfl
@[simp] theorem updStrand_teams (k : Nat) (f : Strand → Strand) : (s.updStrand k f).teams = s.teams := rfl
@[simp] theorem updStrand_kernels (k : Nat) (f : Strand → Strand) : (s.updStrand k f).kernels = s.kernels := rfl
@[simp] theorem updStrand_recs (k : Nat) (f : Strand → Strand) : (s.updStrand k f).recs = s.recs := rfl
@[simp] theorem updStrand_sems (k : Nat) (f : Strand → Strand) : (s.updStrand k f).sems = s.sems := rfl
@[simp] theorem updStrand_cores (k : Nat) (f : Strand → Strand) : (s.updStrand k f).cores = s.cores := rfl
@[simp] theorem updStrand_walkers (k : Nat) (f : Strand → Strand) : (s.updStrand k f).walkers = s.walkers := rfl
@[simp] theorem updStrand_dies (k : Nat) (f : Strand → Strand) : (s.updStrand k f).dies = s.dies := rfl
@[simp] theorem updStrand_ctxs (k : Nat) (f : Strand → Strand) : (s.updStrand k f).ctxs = s.ctxs := rfl
@[simp] theorem updStrand_queues (k : Nat) (f : Strand → Strand) : (s.updStrand k f).queues = s.queues := rfl
@[simp] theorem updStrand_sessions (k : Nat) (f : Strand → Strand) : (s.updStrand k f).sessions = s.sessions := rfl
@[simp] theorem updStrand_mgmtConns (k : Nat) (f : Strand → Strand) : (s.updStrand k f).mgmtConns = s.mgmtConns := rfl
@[simp] theorem updStrand_nextConn (k : Nat) (f : Strand → Strand) : (s.updStrand k f).nextConn = s.nextConn := rfl
@[simp] theorem updStrand_nextRec (k : Nat) (f : Strand → Strand) : (s.updStrand k f).nextRec = s.nextRec := rfl
@[simp] theorem updStrand_nextLid (k : Nat) (f : Strand → Strand) : (s.updStrand k f).nextLid = s.nextLid := rfl
@[simp] theorem updStrand_turn (k : Nat) (f : Strand → Strand) : (s.updStrand k f).turn = s.turn := rfl
@[simp] theorem updStrand_live (k : Nat) (f : Strand → Strand) : (s.updStrand k f).live = s.live := rfl
@[simp] theorem updStrand_poison (k : Nat) (f : Strand → Strand) : (s.updStrand k f).poison = s.poison := rfl
@[simp] theorem updStrand_injected (k : Nat) (f : Strand → Strand) : (s.updStrand k f).injected = s.injected := rfl
@[simp] theorem updStrand_arrays (k : Nat) (f : Strand → Strand) : (s.updStrand k f).arrays = s.arrays := rfl
@[simp] theorem updStrand_contribs (k : Nat) (f : Strand → Strand) : (s.updStrand k f).contribs = s.contribs := rfl
@[simp] theorem updStrand_seats (k : Nat) (f : Strand → Strand) : (s.updStrand k f).seats = s.seats := rfl
@[simp] theorem updStrand_dev (k : Nat) (f : Strand → Strand) : (s.updStrand k f).dev = s.dev := rfl
@[simp] theorem updStrand_pkg (k : Nat) (f : Strand → Strand) : (s.updStrand k f).pkg = s.pkg := rfl
@[simp] theorem updStrand_meas (k : Nat) (f : Strand → Strand) : (s.updStrand k f).meas = s.meas := rfl
@[simp] theorem updStrand_fuseAdmin (k : Nat) (f : Strand → Strand) : (s.updStrand k f).fuseAdmin = s.fuseAdmin := rfl
@[simp] theorem updStrand_fuseFast (k : Nat) (f : Strand → Strand) : (s.updStrand k f).fuseFast = s.fuseFast := rfl
@[simp] theorem updStrand_floors (k : Nat) (f : Strand → Strand) : (s.updStrand k f).floors = s.floors := rfl
@[simp] theorem updStrand_mhz (k : Nat) (f : Strand → Strand) : (s.updStrand k f).mhz = s.mhz := rfl
@[simp] theorem updStrand_hold (k : Nat) (f : Strand → Strand) : (s.updStrand k f).hold = s.hold := rfl
@[simp] theorem updStrand_fencedDies (k : Nat) (f : Strand → Strand) : (s.updStrand k f).fencedDies = s.fencedDies := rfl
@[simp] theorem updStrand_fencedAtt (k : Nat) (f : Strand → Strand) : (s.updStrand k f).fencedAtt = s.fencedAtt := rfl
@[simp] theorem updStrand_spares (k : Nat) (f : Strand → Strand) : (s.updStrand k f).spares = s.spares := rfl
@[simp] theorem updStrand_spareCores (k : Nat) (f : Strand → Strand) : (s.updStrand k f).spareCores = s.spareCores := rfl
@[simp] theorem updStrand_carrier (k : Nat) (f : Strand → Strand) : (s.updStrand k f).carrier = s.carrier := rfl
@[simp] theorem updStrand_activating (k : Nat) (f : Strand → Strand) : (s.updStrand k f).activating = s.activating := rfl
@[simp] theorem updStrand_requests (k : Nat) (f : Strand → Strand) : (s.updStrand k f).requests = s.requests := rfl
@[simp] theorem updStrand_held (k : Nat) (f : Strand → Strand) : (s.updStrand k f).held = s.held := rfl
@[simp] theorem updStrand_steps (k : Nat) (f : Strand → Strand) : (s.updStrand k f).steps = s.steps := rfl
@[simp] theorem updStrand_fwA (k : Nat) (f : Strand → Strand) : (s.updStrand k f).fwA = s.fwA := rfl
@[simp] theorem updStrand_fwB (k : Nat) (f : Strand → Strand) : (s.updStrand k f).fwB = s.fwB := rfl
@[simp] theorem updStrand_starter (k : Nat) (f : Strand → Strand) : (s.updStrand k f).starter = s.starter := rfl

@[simp] theorem updKernel_cur (k : Nat) (f : Kernel → Kernel) : (s.updKernel k f).cur = s.cur := rfl
@[simp] theorem updKernel_agenda (k : Nat) (f : Kernel → Kernel) : (s.updKernel k f).agenda = s.agenda := rfl
@[simp] theorem updKernel_tick (k : Nat) (f : Kernel → Kernel) : (s.updKernel k f).tick = s.tick := rfl
@[simp] theorem updKernel_outbox (k : Nat) (f : Kernel → Kernel) : (s.updKernel k f).outbox = s.outbox := rfl
@[simp] theorem updKernel_mem (k : Nat) (f : Kernel → Kernel) : (s.updKernel k f).mem = s.mem := rfl
@[simp] theorem updKernel_strands (k : Nat) (f : Kernel → Kernel) : (s.updKernel k f).strands = s.strands := rfl
@[simp] theorem updKernel_teams (k : Nat) (f : Kernel → Kernel) : (s.updKernel k f).teams = s.teams := rfl
@[simp] theorem updKernel_kernels (k : Nat) (f : Kernel → Kernel) : (s.updKernel k f).kernels = s.kernels.modify k f := rfl
@[simp] theorem updKernel_recs (k : Nat) (f : Kernel → Kernel) : (s.updKernel k f).recs = s.recs := rfl
@[simp] theorem updKernel_sems (k : Nat) (f : Kernel → Kernel) : (s.updKernel k f).sems = s.sems := rfl
@[simp] theorem updKernel_cores (k : Nat) (f : Kernel → Kernel) : (s.updKernel k f).cores = s.cores := rfl
@[simp] theorem updKernel_walkers (k : Nat) (f : Kernel → Kernel) : (s.updKernel k f).walkers = s.walkers := rfl
@[simp] theorem updKernel_dies (k : Nat) (f : Kernel → Kernel) : (s.updKernel k f).dies = s.dies := rfl
@[simp] theorem updKernel_ctxs (k : Nat) (f : Kernel → Kernel) : (s.updKernel k f).ctxs = s.ctxs := rfl
@[simp] theorem updKernel_queues (k : Nat) (f : Kernel → Kernel) : (s.updKernel k f).queues = s.queues := rfl
@[simp] theorem updKernel_sessions (k : Nat) (f : Kernel → Kernel) : (s.updKernel k f).sessions = s.sessions := rfl
@[simp] theorem updKernel_mgmtConns (k : Nat) (f : Kernel → Kernel) : (s.updKernel k f).mgmtConns = s.mgmtConns := rfl
@[simp] theorem updKernel_nextConn (k : Nat) (f : Kernel → Kernel) : (s.updKernel k f).nextConn = s.nextConn := rfl
@[simp] theorem updKernel_nextRec (k : Nat) (f : Kernel → Kernel) : (s.updKernel k f).nextRec = s.nextRec := rfl
@[simp] theorem updKernel_nextLid (k : Nat) (f : Kernel → Kernel) : (s.updKernel k f).nextLid = s.nextLid := rfl
@[simp] theorem updKernel_turn (k : Nat) (f : Kernel → Kernel) : (s.updKernel k f).turn = s.turn := rfl
@[simp] theorem updKernel_live (k : Nat) (f : Kernel → Kernel) : (s.updKernel k f).live = s.live := rfl
@[simp] theorem updKernel_poison (k : Nat) (f : Kernel → Kernel) : (s.updKernel k f).poison = s.poison := rfl
@[simp] theorem updKernel_injected (k : Nat) (f : Kernel → Kernel) : (s.updKernel k f).injected = s.injected := rfl
@[simp] theorem updKernel_arrays (k : Nat) (f : Kernel → Kernel) : (s.updKernel k f).arrays = s.arrays := rfl
@[simp] theorem updKernel_contribs (k : Nat) (f : Kernel → Kernel) : (s.updKernel k f).contribs = s.contribs := rfl
@[simp] theorem updKernel_seats (k : Nat) (f : Kernel → Kernel) : (s.updKernel k f).seats = s.seats := rfl
@[simp] theorem updKernel_dev (k : Nat) (f : Kernel → Kernel) : (s.updKernel k f).dev = s.dev := rfl
@[simp] theorem updKernel_pkg (k : Nat) (f : Kernel → Kernel) : (s.updKernel k f).pkg = s.pkg := rfl
@[simp] theorem updKernel_meas (k : Nat) (f : Kernel → Kernel) : (s.updKernel k f).meas = s.meas := rfl
@[simp] theorem updKernel_fuseAdmin (k : Nat) (f : Kernel → Kernel) : (s.updKernel k f).fuseAdmin = s.fuseAdmin := rfl
@[simp] theorem updKernel_fuseFast (k : Nat) (f : Kernel → Kernel) : (s.updKernel k f).fuseFast = s.fuseFast := rfl
@[simp] theorem updKernel_floors (k : Nat) (f : Kernel → Kernel) : (s.updKernel k f).floors = s.floors := rfl
@[simp] theorem updKernel_mhz (k : Nat) (f : Kernel → Kernel) : (s.updKernel k f).mhz = s.mhz := rfl
@[simp] theorem updKernel_hold (k : Nat) (f : Kernel → Kernel) : (s.updKernel k f).hold = s.hold := rfl
@[simp] theorem updKernel_fencedDies (k : Nat) (f : Kernel → Kernel) : (s.updKernel k f).fencedDies = s.fencedDies := rfl
@[simp] theorem updKernel_fencedAtt (k : Nat) (f : Kernel → Kernel) : (s.updKernel k f).fencedAtt = s.fencedAtt := rfl
@[simp] theorem updKernel_spares (k : Nat) (f : Kernel → Kernel) : (s.updKernel k f).spares = s.spares := rfl
@[simp] theorem updKernel_spareCores (k : Nat) (f : Kernel → Kernel) : (s.updKernel k f).spareCores = s.spareCores := rfl
@[simp] theorem updKernel_carrier (k : Nat) (f : Kernel → Kernel) : (s.updKernel k f).carrier = s.carrier := rfl
@[simp] theorem updKernel_activating (k : Nat) (f : Kernel → Kernel) : (s.updKernel k f).activating = s.activating := rfl
@[simp] theorem updKernel_requests (k : Nat) (f : Kernel → Kernel) : (s.updKernel k f).requests = s.requests := rfl
@[simp] theorem updKernel_held (k : Nat) (f : Kernel → Kernel) : (s.updKernel k f).held = s.held := rfl
@[simp] theorem updKernel_steps (k : Nat) (f : Kernel → Kernel) : (s.updKernel k f).steps = s.steps := rfl
@[simp] theorem updKernel_fwA (k : Nat) (f : Kernel → Kernel) : (s.updKernel k f).fwA = s.fwA := rfl
@[simp] theorem updKernel_fwB (k : Nat) (f : Kernel → Kernel) : (s.updKernel k f).fwB = s.fwB := rfl
@[simp] theorem updKernel_starter (k : Nat) (f : Kernel → Kernel) : (s.updKernel k f).starter = s.starter := rfl

@[simp] theorem updDie_cur (d : Nat) (f : Die → Die) : (s.updDie d f).cur = s.cur := rfl
@[simp] theorem updDie_agenda (d : Nat) (f : Die → Die) : (s.updDie d f).agenda = s.agenda := rfl
@[simp] theorem updDie_tick (d : Nat) (f : Die → Die) : (s.updDie d f).tick = s.tick := rfl
@[simp] theorem updDie_outbox (d : Nat) (f : Die → Die) : (s.updDie d f).outbox = s.outbox := rfl
@[simp] theorem updDie_mem (d : Nat) (f : Die → Die) : (s.updDie d f).mem = s.mem := rfl
@[simp] theorem updDie_strands (d : Nat) (f : Die → Die) : (s.updDie d f).strands = s.strands := rfl
@[simp] theorem updDie_teams (d : Nat) (f : Die → Die) : (s.updDie d f).teams = s.teams := rfl
@[simp] theorem updDie_kernels (d : Nat) (f : Die → Die) : (s.updDie d f).kernels = s.kernels := rfl
@[simp] theorem updDie_recs (d : Nat) (f : Die → Die) : (s.updDie d f).recs = s.recs := rfl
@[simp] theorem updDie_sems (d : Nat) (f : Die → Die) : (s.updDie d f).sems = s.sems := rfl
@[simp] theorem updDie_cores (d : Nat) (f : Die → Die) : (s.updDie d f).cores = s.cores := rfl
@[simp] theorem updDie_walkers (d : Nat) (f : Die → Die) : (s.updDie d f).walkers = s.walkers := rfl
@[simp] theorem updDie_dies (d : Nat) (f : Die → Die) : (s.updDie d f).dies = s.dies.set d (f (s.die d)) := rfl
@[simp] theorem updDie_ctxs (d : Nat) (f : Die → Die) : (s.updDie d f).ctxs = s.ctxs := rfl
@[simp] theorem updDie_queues (d : Nat) (f : Die → Die) : (s.updDie d f).queues = s.queues := rfl
@[simp] theorem updDie_sessions (d : Nat) (f : Die → Die) : (s.updDie d f).sessions = s.sessions := rfl
@[simp] theorem updDie_mgmtConns (d : Nat) (f : Die → Die) : (s.updDie d f).mgmtConns = s.mgmtConns := rfl
@[simp] theorem updDie_nextConn (d : Nat) (f : Die → Die) : (s.updDie d f).nextConn = s.nextConn := rfl
@[simp] theorem updDie_nextRec (d : Nat) (f : Die → Die) : (s.updDie d f).nextRec = s.nextRec := rfl
@[simp] theorem updDie_nextLid (d : Nat) (f : Die → Die) : (s.updDie d f).nextLid = s.nextLid := rfl
@[simp] theorem updDie_turn (d : Nat) (f : Die → Die) : (s.updDie d f).turn = s.turn := rfl
@[simp] theorem updDie_live (d : Nat) (f : Die → Die) : (s.updDie d f).live = s.live := rfl
@[simp] theorem updDie_poison (d : Nat) (f : Die → Die) : (s.updDie d f).poison = s.poison := rfl
@[simp] theorem updDie_injected (d : Nat) (f : Die → Die) : (s.updDie d f).injected = s.injected := rfl
@[simp] theorem updDie_arrays (d : Nat) (f : Die → Die) : (s.updDie d f).arrays = s.arrays := rfl
@[simp] theorem updDie_contribs (d : Nat) (f : Die → Die) : (s.updDie d f).contribs = s.contribs := rfl
@[simp] theorem updDie_seats (d : Nat) (f : Die → Die) : (s.updDie d f).seats = s.seats := rfl
@[simp] theorem updDie_dev (d : Nat) (f : Die → Die) : (s.updDie d f).dev = s.dev := rfl
@[simp] theorem updDie_pkg (d : Nat) (f : Die → Die) : (s.updDie d f).pkg = s.pkg := rfl
@[simp] theorem updDie_meas (d : Nat) (f : Die → Die) : (s.updDie d f).meas = s.meas := rfl
@[simp] theorem updDie_fuseAdmin (d : Nat) (f : Die → Die) : (s.updDie d f).fuseAdmin = s.fuseAdmin := rfl
@[simp] theorem updDie_fuseFast (d : Nat) (f : Die → Die) : (s.updDie d f).fuseFast = s.fuseFast := rfl
@[simp] theorem updDie_floors (d : Nat) (f : Die → Die) : (s.updDie d f).floors = s.floors := rfl
@[simp] theorem updDie_mhz (d : Nat) (f : Die → Die) : (s.updDie d f).mhz = s.mhz := rfl
@[simp] theorem updDie_hold (d : Nat) (f : Die → Die) : (s.updDie d f).hold = s.hold := rfl
@[simp] theorem updDie_fencedDies (d : Nat) (f : Die → Die) : (s.updDie d f).fencedDies = s.fencedDies := rfl
@[simp] theorem updDie_fencedAtt (d : Nat) (f : Die → Die) : (s.updDie d f).fencedAtt = s.fencedAtt := rfl
@[simp] theorem updDie_spares (d : Nat) (f : Die → Die) : (s.updDie d f).spares = s.spares := rfl
@[simp] theorem updDie_spareCores (d : Nat) (f : Die → Die) : (s.updDie d f).spareCores = s.spareCores := rfl
@[simp] theorem updDie_carrier (d : Nat) (f : Die → Die) : (s.updDie d f).carrier = s.carrier := rfl
@[simp] theorem updDie_activating (d : Nat) (f : Die → Die) : (s.updDie d f).activating = s.activating := rfl
@[simp] theorem updDie_requests (d : Nat) (f : Die → Die) : (s.updDie d f).requests = s.requests := rfl
@[simp] theorem updDie_held (d : Nat) (f : Die → Die) : (s.updDie d f).held = s.held := rfl
@[simp] theorem updDie_steps (d : Nat) (f : Die → Die) : (s.updDie d f).steps = s.steps := rfl
@[simp] theorem updDie_fwA (d : Nat) (f : Die → Die) : (s.updDie d f).fwA = s.fwA := rfl
@[simp] theorem updDie_fwB (d : Nat) (f : Die → Die) : (s.updDie d f).fwB = s.fwB := rfl
@[simp] theorem updDie_starter (d : Nat) (f : Die → Die) : (s.updDie d f).starter = s.starter := rfl

@[simp] theorem updCtx_cur (c : Nat) (f : Ctx → Ctx) : (s.updCtx c f).cur = s.cur := rfl
@[simp] theorem updCtx_agenda (c : Nat) (f : Ctx → Ctx) : (s.updCtx c f).agenda = s.agenda := rfl
@[simp] theorem updCtx_tick (c : Nat) (f : Ctx → Ctx) : (s.updCtx c f).tick = s.tick := rfl
@[simp] theorem updCtx_outbox (c : Nat) (f : Ctx → Ctx) : (s.updCtx c f).outbox = s.outbox := rfl
@[simp] theorem updCtx_mem (c : Nat) (f : Ctx → Ctx) : (s.updCtx c f).mem = s.mem := rfl
@[simp] theorem updCtx_strands (c : Nat) (f : Ctx → Ctx) : (s.updCtx c f).strands = s.strands := rfl
@[simp] theorem updCtx_teams (c : Nat) (f : Ctx → Ctx) : (s.updCtx c f).teams = s.teams := rfl
@[simp] theorem updCtx_kernels (c : Nat) (f : Ctx → Ctx) : (s.updCtx c f).kernels = s.kernels := rfl
@[simp] theorem updCtx_recs (c : Nat) (f : Ctx → Ctx) : (s.updCtx c f).recs = s.recs := rfl
@[simp] theorem updCtx_sems (c : Nat) (f : Ctx → Ctx) : (s.updCtx c f).sems = s.sems := rfl
@[simp] theorem updCtx_cores (c : Nat) (f : Ctx → Ctx) : (s.updCtx c f).cores = s.cores := rfl
@[simp] theorem updCtx_walkers (c : Nat) (f : Ctx → Ctx) : (s.updCtx c f).walkers = s.walkers := rfl
@[simp] theorem updCtx_dies (c : Nat) (f : Ctx → Ctx) : (s.updCtx c f).dies = s.dies := rfl
@[simp] theorem updCtx_ctxs (c : Nat) (f : Ctx → Ctx) : (s.updCtx c f).ctxs = s.ctxs.modify c f := rfl
@[simp] theorem updCtx_queues (c : Nat) (f : Ctx → Ctx) : (s.updCtx c f).queues = s.queues := rfl
@[simp] theorem updCtx_sessions (c : Nat) (f : Ctx → Ctx) : (s.updCtx c f).sessions = s.sessions := rfl
@[simp] theorem updCtx_mgmtConns (c : Nat) (f : Ctx → Ctx) : (s.updCtx c f).mgmtConns = s.mgmtConns := rfl
@[simp] theorem updCtx_nextConn (c : Nat) (f : Ctx → Ctx) : (s.updCtx c f).nextConn = s.nextConn := rfl
@[simp] theorem updCtx_nextRec (c : Nat) (f : Ctx → Ctx) : (s.updCtx c f).nextRec = s.nextRec := rfl
@[simp] theorem updCtx_nextLid (c : Nat) (f : Ctx → Ctx) : (s.updCtx c f).nextLid = s.nextLid := rfl
@[simp] theorem updCtx_turn (c : Nat) (f : Ctx → Ctx) : (s.updCtx c f).turn = s.turn := rfl
@[simp] theorem updCtx_live (c : Nat) (f : Ctx → Ctx) : (s.updCtx c f).live = s.live := rfl
@[simp] theorem updCtx_poison (c : Nat) (f : Ctx → Ctx) : (s.updCtx c f).poison = s.poison := rfl
@[simp] theorem updCtx_injected (c : Nat) (f : Ctx → Ctx) : (s.updCtx c f).injected = s.injected := rfl
@[simp] theorem updCtx_arrays (c : Nat) (f : Ctx → Ctx) : (s.updCtx c f).arrays = s.arrays := rfl
@[simp] theorem updCtx_contribs (c : Nat) (f : Ctx → Ctx) : (s.updCtx c f).contribs = s.contribs := rfl
@[simp] theorem updCtx_seats (c : Nat) (f : Ctx → Ctx) : (s.updCtx c f).seats = s.seats := rfl
@[simp] theorem updCtx_dev (c : Nat) (f : Ctx → Ctx) : (s.updCtx c f).dev = s.dev := rfl
@[simp] theorem updCtx_pkg (c : Nat) (f : Ctx → Ctx) : (s.updCtx c f).pkg = s.pkg := rfl
@[simp] theorem updCtx_meas (c : Nat) (f : Ctx → Ctx) : (s.updCtx c f).meas = s.meas := rfl
@[simp] theorem updCtx_fuseAdmin (c : Nat) (f : Ctx → Ctx) : (s.updCtx c f).fuseAdmin = s.fuseAdmin := rfl
@[simp] theorem updCtx_fuseFast (c : Nat) (f : Ctx → Ctx) : (s.updCtx c f).fuseFast = s.fuseFast := rfl
@[simp] theorem updCtx_floors (c : Nat) (f : Ctx → Ctx) : (s.updCtx c f).floors = s.floors := rfl
@[simp] theorem updCtx_mhz (c : Nat) (f : Ctx → Ctx) : (s.updCtx c f).mhz = s.mhz := rfl
@[simp] theorem updCtx_hold (c : Nat) (f : Ctx → Ctx) : (s.updCtx c f).hold = s.hold := rfl
@[simp] theorem updCtx_fencedDies (c : Nat) (f : Ctx → Ctx) : (s.updCtx c f).fencedDies = s.fencedDies := rfl
@[simp] theorem updCtx_fencedAtt (c : Nat) (f : Ctx → Ctx) : (s.updCtx c f).fencedAtt = s.fencedAtt := rfl
@[simp] theorem updCtx_spares (c : Nat) (f : Ctx → Ctx) : (s.updCtx c f).spares = s.spares := rfl
@[simp] theorem updCtx_spareCores (c : Nat) (f : Ctx → Ctx) : (s.updCtx c f).spareCores = s.spareCores := rfl
@[simp] theorem updCtx_carrier (c : Nat) (f : Ctx → Ctx) : (s.updCtx c f).carrier = s.carrier := rfl
@[simp] theorem updCtx_activating (c : Nat) (f : Ctx → Ctx) : (s.updCtx c f).activating = s.activating := rfl
@[simp] theorem updCtx_requests (c : Nat) (f : Ctx → Ctx) : (s.updCtx c f).requests = s.requests := rfl
@[simp] theorem updCtx_held (c : Nat) (f : Ctx → Ctx) : (s.updCtx c f).held = s.held := rfl
@[simp] theorem updCtx_steps (c : Nat) (f : Ctx → Ctx) : (s.updCtx c f).steps = s.steps := rfl
@[simp] theorem updCtx_fwA (c : Nat) (f : Ctx → Ctx) : (s.updCtx c f).fwA = s.fwA := rfl
@[simp] theorem updCtx_fwB (c : Nat) (f : Ctx → Ctx) : (s.updCtx c f).fwB = s.fwB := rfl
@[simp] theorem updCtx_starter (c : Nat) (f : Ctx → Ctx) : (s.updCtx c f).starter = s.starter := rfl

@[simp] theorem updQueue_cur (q : Nat) (f : Queue → Queue) : (s.updQueue q f).cur = s.cur := rfl
@[simp] theorem updQueue_agenda (q : Nat) (f : Queue → Queue) : (s.updQueue q f).agenda = s.agenda := rfl
@[simp] theorem updQueue_tick (q : Nat) (f : Queue → Queue) : (s.updQueue q f).tick = s.tick := rfl
@[simp] theorem updQueue_outbox (q : Nat) (f : Queue → Queue) : (s.updQueue q f).outbox = s.outbox := rfl
@[simp] theorem updQueue_mem (q : Nat) (f : Queue → Queue) : (s.updQueue q f).mem = s.mem := rfl
@[simp] theorem updQueue_strands (q : Nat) (f : Queue → Queue) : (s.updQueue q f).strands = s.strands := rfl
@[simp] theorem updQueue_teams (q : Nat) (f : Queue → Queue) : (s.updQueue q f).teams = s.teams := rfl
@[simp] theorem updQueue_kernels (q : Nat) (f : Queue → Queue) : (s.updQueue q f).kernels = s.kernels := rfl
@[simp] theorem updQueue_recs (q : Nat) (f : Queue → Queue) : (s.updQueue q f).recs = s.recs := rfl
@[simp] theorem updQueue_sems (q : Nat) (f : Queue → Queue) : (s.updQueue q f).sems = s.sems := rfl
@[simp] theorem updQueue_cores (q : Nat) (f : Queue → Queue) : (s.updQueue q f).cores = s.cores := rfl
@[simp] theorem updQueue_walkers (q : Nat) (f : Queue → Queue) : (s.updQueue q f).walkers = s.walkers := rfl
@[simp] theorem updQueue_dies (q : Nat) (f : Queue → Queue) : (s.updQueue q f).dies = s.dies := rfl
@[simp] theorem updQueue_ctxs (q : Nat) (f : Queue → Queue) : (s.updQueue q f).ctxs = s.ctxs := rfl
@[simp] theorem updQueue_queues (q : Nat) (f : Queue → Queue) : (s.updQueue q f).queues = s.queues.modify q f := rfl
@[simp] theorem updQueue_sessions (q : Nat) (f : Queue → Queue) : (s.updQueue q f).sessions = s.sessions := rfl
@[simp] theorem updQueue_mgmtConns (q : Nat) (f : Queue → Queue) : (s.updQueue q f).mgmtConns = s.mgmtConns := rfl
@[simp] theorem updQueue_nextConn (q : Nat) (f : Queue → Queue) : (s.updQueue q f).nextConn = s.nextConn := rfl
@[simp] theorem updQueue_nextRec (q : Nat) (f : Queue → Queue) : (s.updQueue q f).nextRec = s.nextRec := rfl
@[simp] theorem updQueue_nextLid (q : Nat) (f : Queue → Queue) : (s.updQueue q f).nextLid = s.nextLid := rfl
@[simp] theorem updQueue_turn (q : Nat) (f : Queue → Queue) : (s.updQueue q f).turn = s.turn := rfl
@[simp] theorem updQueue_live (q : Nat) (f : Queue → Queue) : (s.updQueue q f).live = s.live := rfl
@[simp] theorem updQueue_poison (q : Nat) (f : Queue → Queue) : (s.updQueue q f).poison = s.poison := rfl
@[simp] theorem updQueue_injected (q : Nat) (f : Queue → Queue) : (s.updQueue q f).injected = s.injected := rfl
@[simp] theorem updQueue_arrays (q : Nat) (f : Queue → Queue) : (s.updQueue q f).arrays = s.arrays := rfl
@[simp] theorem updQueue_contribs (q : Nat) (f : Queue → Queue) : (s.updQueue q f).contribs = s.contribs := rfl
@[simp] theorem updQueue_seats (q : Nat) (f : Queue → Queue) : (s.updQueue q f).seats = s.seats := rfl
@[simp] theorem updQueue_dev (q : Nat) (f : Queue → Queue) : (s.updQueue q f).dev = s.dev := rfl
@[simp] theorem updQueue_pkg (q : Nat) (f : Queue → Queue) : (s.updQueue q f).pkg = s.pkg := rfl
@[simp] theorem updQueue_meas (q : Nat) (f : Queue → Queue) : (s.updQueue q f).meas = s.meas := rfl
@[simp] theorem updQueue_fuseAdmin (q : Nat) (f : Queue → Queue) : (s.updQueue q f).fuseAdmin = s.fuseAdmin := rfl
@[simp] theorem updQueue_fuseFast (q : Nat) (f : Queue → Queue) : (s.updQueue q f).fuseFast = s.fuseFast := rfl
@[simp] theorem updQueue_floors (q : Nat) (f : Queue → Queue) : (s.updQueue q f).floors = s.floors := rfl
@[simp] theorem updQueue_mhz (q : Nat) (f : Queue → Queue) : (s.updQueue q f).mhz = s.mhz := rfl
@[simp] theorem updQueue_hold (q : Nat) (f : Queue → Queue) : (s.updQueue q f).hold = s.hold := rfl
@[simp] theorem updQueue_fencedDies (q : Nat) (f : Queue → Queue) : (s.updQueue q f).fencedDies = s.fencedDies := rfl
@[simp] theorem updQueue_fencedAtt (q : Nat) (f : Queue → Queue) : (s.updQueue q f).fencedAtt = s.fencedAtt := rfl
@[simp] theorem updQueue_spares (q : Nat) (f : Queue → Queue) : (s.updQueue q f).spares = s.spares := rfl
@[simp] theorem updQueue_spareCores (q : Nat) (f : Queue → Queue) : (s.updQueue q f).spareCores = s.spareCores := rfl
@[simp] theorem updQueue_carrier (q : Nat) (f : Queue → Queue) : (s.updQueue q f).carrier = s.carrier := rfl
@[simp] theorem updQueue_activating (q : Nat) (f : Queue → Queue) : (s.updQueue q f).activating = s.activating := rfl
@[simp] theorem updQueue_requests (q : Nat) (f : Queue → Queue) : (s.updQueue q f).requests = s.requests := rfl
@[simp] theorem updQueue_held (q : Nat) (f : Queue → Queue) : (s.updQueue q f).held = s.held := rfl
@[simp] theorem updQueue_steps (q : Nat) (f : Queue → Queue) : (s.updQueue q f).steps = s.steps := rfl
@[simp] theorem updQueue_fwA (q : Nat) (f : Queue → Queue) : (s.updQueue q f).fwA = s.fwA := rfl
@[simp] theorem updQueue_fwB (q : Nat) (f : Queue → Queue) : (s.updQueue q f).fwB = s.fwB := rfl
@[simp] theorem updQueue_starter (q : Nat) (f : Queue → Queue) : (s.updQueue q f).starter = s.starter := rfl

@[simp] theorem updRec_cur (r : Nat) (f : Rec → Rec) : (s.updRec r f).cur = s.cur := rfl
@[simp] theorem updRec_agenda (r : Nat) (f : Rec → Rec) : (s.updRec r f).agenda = s.agenda := rfl
@[simp] theorem updRec_tick (r : Nat) (f : Rec → Rec) : (s.updRec r f).tick = s.tick := rfl
@[simp] theorem updRec_outbox (r : Nat) (f : Rec → Rec) : (s.updRec r f).outbox = s.outbox := rfl
@[simp] theorem updRec_mem (r : Nat) (f : Rec → Rec) : (s.updRec r f).mem = s.mem := rfl
@[simp] theorem updRec_strands (r : Nat) (f : Rec → Rec) : (s.updRec r f).strands = s.strands := rfl
@[simp] theorem updRec_teams (r : Nat) (f : Rec → Rec) : (s.updRec r f).teams = s.teams := rfl
@[simp] theorem updRec_kernels (r : Nat) (f : Rec → Rec) : (s.updRec r f).kernels = s.kernels := rfl
@[simp] theorem updRec_recs (r : Nat) (f : Rec → Rec) : (s.updRec r f).recs = s.recs.modify r f := rfl
@[simp] theorem updRec_sems (r : Nat) (f : Rec → Rec) : (s.updRec r f).sems = s.sems := rfl
@[simp] theorem updRec_cores (r : Nat) (f : Rec → Rec) : (s.updRec r f).cores = s.cores := rfl
@[simp] theorem updRec_walkers (r : Nat) (f : Rec → Rec) : (s.updRec r f).walkers = s.walkers := rfl
@[simp] theorem updRec_dies (r : Nat) (f : Rec → Rec) : (s.updRec r f).dies = s.dies := rfl
@[simp] theorem updRec_ctxs (r : Nat) (f : Rec → Rec) : (s.updRec r f).ctxs = s.ctxs := rfl
@[simp] theorem updRec_queues (r : Nat) (f : Rec → Rec) : (s.updRec r f).queues = s.queues := rfl
@[simp] theorem updRec_sessions (r : Nat) (f : Rec → Rec) : (s.updRec r f).sessions = s.sessions := rfl
@[simp] theorem updRec_mgmtConns (r : Nat) (f : Rec → Rec) : (s.updRec r f).mgmtConns = s.mgmtConns := rfl
@[simp] theorem updRec_nextConn (r : Nat) (f : Rec → Rec) : (s.updRec r f).nextConn = s.nextConn := rfl
@[simp] theorem updRec_nextRec (r : Nat) (f : Rec → Rec) : (s.updRec r f).nextRec = s.nextRec := rfl
@[simp] theorem updRec_nextLid (r : Nat) (f : Rec → Rec) : (s.updRec r f).nextLid = s.nextLid := rfl
@[simp] theorem updRec_turn (r : Nat) (f : Rec → Rec) : (s.updRec r f).turn = s.turn := rfl
@[simp] theorem updRec_live (r : Nat) (f : Rec → Rec) : (s.updRec r f).live = s.live := rfl
@[simp] theorem updRec_poison (r : Nat) (f : Rec → Rec) : (s.updRec r f).poison = s.poison := rfl
@[simp] theorem updRec_injected (r : Nat) (f : Rec → Rec) : (s.updRec r f).injected = s.injected := rfl
@[simp] theorem updRec_arrays (r : Nat) (f : Rec → Rec) : (s.updRec r f).arrays = s.arrays := rfl
@[simp] theorem updRec_contribs (r : Nat) (f : Rec → Rec) : (s.updRec r f).contribs = s.contribs := rfl
@[simp] theorem updRec_seats (r : Nat) (f : Rec → Rec) : (s.updRec r f).seats = s.seats := rfl
@[simp] theorem updRec_dev (r : Nat) (f : Rec → Rec) : (s.updRec r f).dev = s.dev := rfl
@[simp] theorem updRec_pkg (r : Nat) (f : Rec → Rec) : (s.updRec r f).pkg = s.pkg := rfl
@[simp] theorem updRec_meas (r : Nat) (f : Rec → Rec) : (s.updRec r f).meas = s.meas := rfl
@[simp] theorem updRec_fuseAdmin (r : Nat) (f : Rec → Rec) : (s.updRec r f).fuseAdmin = s.fuseAdmin := rfl
@[simp] theorem updRec_fuseFast (r : Nat) (f : Rec → Rec) : (s.updRec r f).fuseFast = s.fuseFast := rfl
@[simp] theorem updRec_floors (r : Nat) (f : Rec → Rec) : (s.updRec r f).floors = s.floors := rfl
@[simp] theorem updRec_mhz (r : Nat) (f : Rec → Rec) : (s.updRec r f).mhz = s.mhz := rfl
@[simp] theorem updRec_hold (r : Nat) (f : Rec → Rec) : (s.updRec r f).hold = s.hold := rfl
@[simp] theorem updRec_fencedDies (r : Nat) (f : Rec → Rec) : (s.updRec r f).fencedDies = s.fencedDies := rfl
@[simp] theorem updRec_fencedAtt (r : Nat) (f : Rec → Rec) : (s.updRec r f).fencedAtt = s.fencedAtt := rfl
@[simp] theorem updRec_spares (r : Nat) (f : Rec → Rec) : (s.updRec r f).spares = s.spares := rfl
@[simp] theorem updRec_spareCores (r : Nat) (f : Rec → Rec) : (s.updRec r f).spareCores = s.spareCores := rfl
@[simp] theorem updRec_carrier (r : Nat) (f : Rec → Rec) : (s.updRec r f).carrier = s.carrier := rfl
@[simp] theorem updRec_activating (r : Nat) (f : Rec → Rec) : (s.updRec r f).activating = s.activating := rfl
@[simp] theorem updRec_requests (r : Nat) (f : Rec → Rec) : (s.updRec r f).requests = s.requests := rfl
@[simp] theorem updRec_held (r : Nat) (f : Rec → Rec) : (s.updRec r f).held = s.held := rfl
@[simp] theorem updRec_steps (r : Nat) (f : Rec → Rec) : (s.updRec r f).steps = s.steps := rfl
@[simp] theorem updRec_fwA (r : Nat) (f : Rec → Rec) : (s.updRec r f).fwA = s.fwA := rfl
@[simp] theorem updRec_fwB (r : Nat) (f : Rec → Rec) : (s.updRec r f).fwB = s.fwB := rfl
@[simp] theorem updRec_starter (r : Nat) (f : Rec → Rec) : (s.updRec r f).starter = s.starter := rfl

@[simp] theorem updCnt_cur (c : Nat) (f : Counters → Counters) : (s.updCnt c f).cur = s.cur := rfl
@[simp] theorem updCnt_agenda (c : Nat) (f : Counters → Counters) : (s.updCnt c f).agenda = s.agenda := rfl
@[simp] theorem updCnt_tick (c : Nat) (f : Counters → Counters) : (s.updCnt c f).tick = s.tick := rfl
@[simp] theorem updCnt_outbox (c : Nat) (f : Counters → Counters) : (s.updCnt c f).outbox = s.outbox := rfl
@[simp] theorem updCnt_mem (c : Nat) (f : Counters → Counters) : (s.updCnt c f).mem = s.mem := rfl
@[simp] theorem updCnt_strands (c : Nat) (f : Counters → Counters) : (s.updCnt c f).strands = s.strands := rfl
@[simp] theorem updCnt_teams (c : Nat) (f : Counters → Counters) : (s.updCnt c f).teams = s.teams := rfl
@[simp] theorem updCnt_kernels (c : Nat) (f : Counters → Counters) : (s.updCnt c f).kernels = s.kernels := rfl
@[simp] theorem updCnt_recs (c : Nat) (f : Counters → Counters) : (s.updCnt c f).recs = s.recs := rfl
@[simp] theorem updCnt_sems (c : Nat) (f : Counters → Counters) : (s.updCnt c f).sems = s.sems := rfl
@[simp] theorem updCnt_cores (c : Nat) (f : Counters → Counters) : (s.updCnt c f).cores = s.cores.set c { s.core c with cnt := f (s.core c).cnt } := rfl
@[simp] theorem updCnt_walkers (c : Nat) (f : Counters → Counters) : (s.updCnt c f).walkers = s.walkers := rfl
@[simp] theorem updCnt_dies (c : Nat) (f : Counters → Counters) : (s.updCnt c f).dies = s.dies := rfl
@[simp] theorem updCnt_ctxs (c : Nat) (f : Counters → Counters) : (s.updCnt c f).ctxs = s.ctxs := rfl
@[simp] theorem updCnt_queues (c : Nat) (f : Counters → Counters) : (s.updCnt c f).queues = s.queues := rfl
@[simp] theorem updCnt_sessions (c : Nat) (f : Counters → Counters) : (s.updCnt c f).sessions = s.sessions := rfl
@[simp] theorem updCnt_mgmtConns (c : Nat) (f : Counters → Counters) : (s.updCnt c f).mgmtConns = s.mgmtConns := rfl
@[simp] theorem updCnt_nextConn (c : Nat) (f : Counters → Counters) : (s.updCnt c f).nextConn = s.nextConn := rfl
@[simp] theorem updCnt_nextRec (c : Nat) (f : Counters → Counters) : (s.updCnt c f).nextRec = s.nextRec := rfl
@[simp] theorem updCnt_nextLid (c : Nat) (f : Counters → Counters) : (s.updCnt c f).nextLid = s.nextLid := rfl
@[simp] theorem updCnt_turn (c : Nat) (f : Counters → Counters) : (s.updCnt c f).turn = s.turn := rfl
@[simp] theorem updCnt_live (c : Nat) (f : Counters → Counters) : (s.updCnt c f).live = s.live := rfl
@[simp] theorem updCnt_poison (c : Nat) (f : Counters → Counters) : (s.updCnt c f).poison = s.poison := rfl
@[simp] theorem updCnt_injected (c : Nat) (f : Counters → Counters) : (s.updCnt c f).injected = s.injected := rfl
@[simp] theorem updCnt_arrays (c : Nat) (f : Counters → Counters) : (s.updCnt c f).arrays = s.arrays := rfl
@[simp] theorem updCnt_contribs (c : Nat) (f : Counters → Counters) : (s.updCnt c f).contribs = s.contribs := rfl
@[simp] theorem updCnt_seats (c : Nat) (f : Counters → Counters) : (s.updCnt c f).seats = s.seats := rfl
@[simp] theorem updCnt_dev (c : Nat) (f : Counters → Counters) : (s.updCnt c f).dev = s.dev := rfl
@[simp] theorem updCnt_pkg (c : Nat) (f : Counters → Counters) : (s.updCnt c f).pkg = s.pkg := rfl
@[simp] theorem updCnt_meas (c : Nat) (f : Counters → Counters) : (s.updCnt c f).meas = s.meas := rfl
@[simp] theorem updCnt_fuseAdmin (c : Nat) (f : Counters → Counters) : (s.updCnt c f).fuseAdmin = s.fuseAdmin := rfl
@[simp] theorem updCnt_fuseFast (c : Nat) (f : Counters → Counters) : (s.updCnt c f).fuseFast = s.fuseFast := rfl
@[simp] theorem updCnt_floors (c : Nat) (f : Counters → Counters) : (s.updCnt c f).floors = s.floors := rfl
@[simp] theorem updCnt_mhz (c : Nat) (f : Counters → Counters) : (s.updCnt c f).mhz = s.mhz := rfl
@[simp] theorem updCnt_hold (c : Nat) (f : Counters → Counters) : (s.updCnt c f).hold = s.hold := rfl
@[simp] theorem updCnt_fencedDies (c : Nat) (f : Counters → Counters) : (s.updCnt c f).fencedDies = s.fencedDies := rfl
@[simp] theorem updCnt_fencedAtt (c : Nat) (f : Counters → Counters) : (s.updCnt c f).fencedAtt = s.fencedAtt := rfl
@[simp] theorem updCnt_spares (c : Nat) (f : Counters → Counters) : (s.updCnt c f).spares = s.spares := rfl
@[simp] theorem updCnt_spareCores (c : Nat) (f : Counters → Counters) : (s.updCnt c f).spareCores = s.spareCores := rfl
@[simp] theorem updCnt_carrier (c : Nat) (f : Counters → Counters) : (s.updCnt c f).carrier = s.carrier := rfl
@[simp] theorem updCnt_activating (c : Nat) (f : Counters → Counters) : (s.updCnt c f).activating = s.activating := rfl
@[simp] theorem updCnt_requests (c : Nat) (f : Counters → Counters) : (s.updCnt c f).requests = s.requests := rfl
@[simp] theorem updCnt_held (c : Nat) (f : Counters → Counters) : (s.updCnt c f).held = s.held := rfl
@[simp] theorem updCnt_steps (c : Nat) (f : Counters → Counters) : (s.updCnt c f).steps = s.steps := rfl
@[simp] theorem updCnt_fwA (c : Nat) (f : Counters → Counters) : (s.updCnt c f).fwA = s.fwA := rfl
@[simp] theorem updCnt_fwB (c : Nat) (f : Counters → Counters) : (s.updCnt c f).fwB = s.fwB := rfl
@[simp] theorem updCnt_starter (c : Nat) (f : Counters → Counters) : (s.updCnt c f).starter = s.starter := rfl

@[simp] theorem updEng_cur (e : Nat) (f : Engine → Engine) : (s.updEng e f).cur = s.cur := rfl
@[simp] theorem updEng_agenda (e : Nat) (f : Engine → Engine) : (s.updEng e f).agenda = s.agenda := rfl
@[simp] theorem updEng_tick (e : Nat) (f : Engine → Engine) : (s.updEng e f).tick = s.tick := rfl
@[simp] theorem updEng_outbox (e : Nat) (f : Engine → Engine) : (s.updEng e f).outbox = s.outbox := rfl
@[simp] theorem updEng_mem (e : Nat) (f : Engine → Engine) : (s.updEng e f).mem = s.mem := rfl
@[simp] theorem updEng_strands (e : Nat) (f : Engine → Engine) : (s.updEng e f).strands = s.strands := rfl
@[simp] theorem updEng_teams (e : Nat) (f : Engine → Engine) : (s.updEng e f).teams = s.teams := rfl
@[simp] theorem updEng_kernels (e : Nat) (f : Engine → Engine) : (s.updEng e f).kernels = s.kernels := rfl
@[simp] theorem updEng_recs (e : Nat) (f : Engine → Engine) : (s.updEng e f).recs = s.recs := rfl
@[simp] theorem updEng_sems (e : Nat) (f : Engine → Engine) : (s.updEng e f).sems = s.sems := rfl
@[simp] theorem updEng_cores (e : Nat) (f : Engine → Engine) : (s.updEng e f).cores = s.cores := rfl
@[simp] theorem updEng_walkers (e : Nat) (f : Engine → Engine) : (s.updEng e f).walkers = s.walkers := rfl
@[simp] theorem updEng_dies (e : Nat) (f : Engine → Engine) : (s.updEng e f).dies = s.dies.set (engDie e) { s.die (engDie e) with engines := (s.die (engDie e)).engines.set e (f (s.eng e)) } := rfl
@[simp] theorem updEng_ctxs (e : Nat) (f : Engine → Engine) : (s.updEng e f).ctxs = s.ctxs := rfl
@[simp] theorem updEng_queues (e : Nat) (f : Engine → Engine) : (s.updEng e f).queues = s.queues := rfl
@[simp] theorem updEng_sessions (e : Nat) (f : Engine → Engine) : (s.updEng e f).sessions = s.sessions := rfl
@[simp] theorem updEng_mgmtConns (e : Nat) (f : Engine → Engine) : (s.updEng e f).mgmtConns = s.mgmtConns := rfl
@[simp] theorem updEng_nextConn (e : Nat) (f : Engine → Engine) : (s.updEng e f).nextConn = s.nextConn := rfl
@[simp] theorem updEng_nextRec (e : Nat) (f : Engine → Engine) : (s.updEng e f).nextRec = s.nextRec := rfl
@[simp] theorem updEng_nextLid (e : Nat) (f : Engine → Engine) : (s.updEng e f).nextLid = s.nextLid := rfl
@[simp] theorem updEng_turn (e : Nat) (f : Engine → Engine) : (s.updEng e f).turn = s.turn := rfl
@[simp] theorem updEng_live (e : Nat) (f : Engine → Engine) : (s.updEng e f).live = s.live := rfl
@[simp] theorem updEng_poison (e : Nat) (f : Engine → Engine) : (s.updEng e f).poison = s.poison := rfl
@[simp] theorem updEng_injected (e : Nat) (f : Engine → Engine) : (s.updEng e f).injected = s.injected := rfl
@[simp] theorem updEng_arrays (e : Nat) (f : Engine → Engine) : (s.updEng e f).arrays = s.arrays := rfl
@[simp] theorem updEng_contribs (e : Nat) (f : Engine → Engine) : (s.updEng e f).contribs = s.contribs := rfl
@[simp] theorem updEng_seats (e : Nat) (f : Engine → Engine) : (s.updEng e f).seats = s.seats := rfl
@[simp] theorem updEng_dev (e : Nat) (f : Engine → Engine) : (s.updEng e f).dev = s.dev := rfl
@[simp] theorem updEng_pkg (e : Nat) (f : Engine → Engine) : (s.updEng e f).pkg = s.pkg := rfl
@[simp] theorem updEng_meas (e : Nat) (f : Engine → Engine) : (s.updEng e f).meas = s.meas := rfl
@[simp] theorem updEng_fuseAdmin (e : Nat) (f : Engine → Engine) : (s.updEng e f).fuseAdmin = s.fuseAdmin := rfl
@[simp] theorem updEng_fuseFast (e : Nat) (f : Engine → Engine) : (s.updEng e f).fuseFast = s.fuseFast := rfl
@[simp] theorem updEng_floors (e : Nat) (f : Engine → Engine) : (s.updEng e f).floors = s.floors := rfl
@[simp] theorem updEng_mhz (e : Nat) (f : Engine → Engine) : (s.updEng e f).mhz = s.mhz := rfl
@[simp] theorem updEng_hold (e : Nat) (f : Engine → Engine) : (s.updEng e f).hold = s.hold := rfl
@[simp] theorem updEng_fencedDies (e : Nat) (f : Engine → Engine) : (s.updEng e f).fencedDies = s.fencedDies := rfl
@[simp] theorem updEng_fencedAtt (e : Nat) (f : Engine → Engine) : (s.updEng e f).fencedAtt = s.fencedAtt := rfl
@[simp] theorem updEng_spares (e : Nat) (f : Engine → Engine) : (s.updEng e f).spares = s.spares := rfl
@[simp] theorem updEng_spareCores (e : Nat) (f : Engine → Engine) : (s.updEng e f).spareCores = s.spareCores := rfl
@[simp] theorem updEng_carrier (e : Nat) (f : Engine → Engine) : (s.updEng e f).carrier = s.carrier := rfl
@[simp] theorem updEng_activating (e : Nat) (f : Engine → Engine) : (s.updEng e f).activating = s.activating := rfl
@[simp] theorem updEng_requests (e : Nat) (f : Engine → Engine) : (s.updEng e f).requests = s.requests := rfl
@[simp] theorem updEng_held (e : Nat) (f : Engine → Engine) : (s.updEng e f).held = s.held := rfl
@[simp] theorem updEng_steps (e : Nat) (f : Engine → Engine) : (s.updEng e f).steps = s.steps := rfl
@[simp] theorem updEng_fwA (e : Nat) (f : Engine → Engine) : (s.updEng e f).fwA = s.fwA := rfl
@[simp] theorem updEng_fwB (e : Nat) (f : Engine → Engine) : (s.updEng e f).fwB = s.fwB := rfl
@[simp] theorem updEng_starter (e : Nat) (f : Engine → Engine) : (s.updEng e f).starter = s.starter := rfl

@[simp] theorem updArr_cur (k : Nat) (f : ErrArray → ErrArray) : (s.updArr k f).cur = s.cur := rfl
@[simp] theorem updArr_agenda (k : Nat) (f : ErrArray → ErrArray) : (s.updArr k f).agenda = s.agenda := rfl
@[simp] theorem updArr_tick (k : Nat) (f : ErrArray → ErrArray) : (s.updArr k f).tick = s.tick := rfl
@[simp] theorem updArr_outbox (k : Nat) (f : ErrArray → ErrArray) : (s.updArr k f).outbox = s.outbox := rfl
@[simp] theorem updArr_mem (k : Nat) (f : ErrArray → ErrArray) : (s.updArr k f).mem = s.mem := rfl
@[simp] theorem updArr_strands (k : Nat) (f : ErrArray → ErrArray) : (s.updArr k f).strands = s.strands := rfl
@[simp] theorem updArr_teams (k : Nat) (f : ErrArray → ErrArray) : (s.updArr k f).teams = s.teams := rfl
@[simp] theorem updArr_kernels (k : Nat) (f : ErrArray → ErrArray) : (s.updArr k f).kernels = s.kernels := rfl
@[simp] theorem updArr_recs (k : Nat) (f : ErrArray → ErrArray) : (s.updArr k f).recs = s.recs := rfl
@[simp] theorem updArr_sems (k : Nat) (f : ErrArray → ErrArray) : (s.updArr k f).sems = s.sems := rfl
@[simp] theorem updArr_cores (k : Nat) (f : ErrArray → ErrArray) : (s.updArr k f).cores = s.cores := rfl
@[simp] theorem updArr_walkers (k : Nat) (f : ErrArray → ErrArray) : (s.updArr k f).walkers = s.walkers := rfl
@[simp] theorem updArr_dies (k : Nat) (f : ErrArray → ErrArray) : (s.updArr k f).dies = s.dies := rfl
@[simp] theorem updArr_ctxs (k : Nat) (f : ErrArray → ErrArray) : (s.updArr k f).ctxs = s.ctxs := rfl
@[simp] theorem updArr_queues (k : Nat) (f : ErrArray → ErrArray) : (s.updArr k f).queues = s.queues := rfl
@[simp] theorem updArr_sessions (k : Nat) (f : ErrArray → ErrArray) : (s.updArr k f).sessions = s.sessions := rfl
@[simp] theorem updArr_mgmtConns (k : Nat) (f : ErrArray → ErrArray) : (s.updArr k f).mgmtConns = s.mgmtConns := rfl
@[simp] theorem updArr_nextConn (k : Nat) (f : ErrArray → ErrArray) : (s.updArr k f).nextConn = s.nextConn := rfl
@[simp] theorem updArr_nextRec (k : Nat) (f : ErrArray → ErrArray) : (s.updArr k f).nextRec = s.nextRec := rfl
@[simp] theorem updArr_nextLid (k : Nat) (f : ErrArray → ErrArray) : (s.updArr k f).nextLid = s.nextLid := rfl
@[simp] theorem updArr_turn (k : Nat) (f : ErrArray → ErrArray) : (s.updArr k f).turn = s.turn := rfl
@[simp] theorem updArr_live (k : Nat) (f : ErrArray → ErrArray) : (s.updArr k f).live = s.live := rfl
@[simp] theorem updArr_poison (k : Nat) (f : ErrArray → ErrArray) : (s.updArr k f).poison = s.poison := rfl
@[simp] theorem updArr_injected (k : Nat) (f : ErrArray → ErrArray) : (s.updArr k f).injected = s.injected := rfl
@[simp] theorem updArr_arrays (k : Nat) (f : ErrArray → ErrArray) : (s.updArr k f).arrays = s.arrays.set k (f (s.arr k)) := rfl
@[simp] theorem updArr_contribs (k : Nat) (f : ErrArray → ErrArray) : (s.updArr k f).contribs = s.contribs := rfl
@[simp] theorem updArr_seats (k : Nat) (f : ErrArray → ErrArray) : (s.updArr k f).seats = s.seats := rfl
@[simp] theorem updArr_dev (k : Nat) (f : ErrArray → ErrArray) : (s.updArr k f).dev = s.dev := rfl
@[simp] theorem updArr_pkg (k : Nat) (f : ErrArray → ErrArray) : (s.updArr k f).pkg = s.pkg := rfl
@[simp] theorem updArr_meas (k : Nat) (f : ErrArray → ErrArray) : (s.updArr k f).meas = s.meas := rfl
@[simp] theorem updArr_fuseAdmin (k : Nat) (f : ErrArray → ErrArray) : (s.updArr k f).fuseAdmin = s.fuseAdmin := rfl
@[simp] theorem updArr_fuseFast (k : Nat) (f : ErrArray → ErrArray) : (s.updArr k f).fuseFast = s.fuseFast := rfl
@[simp] theorem updArr_floors (k : Nat) (f : ErrArray → ErrArray) : (s.updArr k f).floors = s.floors := rfl
@[simp] theorem updArr_mhz (k : Nat) (f : ErrArray → ErrArray) : (s.updArr k f).mhz = s.mhz := rfl
@[simp] theorem updArr_hold (k : Nat) (f : ErrArray → ErrArray) : (s.updArr k f).hold = s.hold := rfl
@[simp] theorem updArr_fencedDies (k : Nat) (f : ErrArray → ErrArray) : (s.updArr k f).fencedDies = s.fencedDies := rfl
@[simp] theorem updArr_fencedAtt (k : Nat) (f : ErrArray → ErrArray) : (s.updArr k f).fencedAtt = s.fencedAtt := rfl
@[simp] theorem updArr_spares (k : Nat) (f : ErrArray → ErrArray) : (s.updArr k f).spares = s.spares := rfl
@[simp] theorem updArr_spareCores (k : Nat) (f : ErrArray → ErrArray) : (s.updArr k f).spareCores = s.spareCores := rfl
@[simp] theorem updArr_carrier (k : Nat) (f : ErrArray → ErrArray) : (s.updArr k f).carrier = s.carrier := rfl
@[simp] theorem updArr_activating (k : Nat) (f : ErrArray → ErrArray) : (s.updArr k f).activating = s.activating := rfl
@[simp] theorem updArr_requests (k : Nat) (f : ErrArray → ErrArray) : (s.updArr k f).requests = s.requests := rfl
@[simp] theorem updArr_held (k : Nat) (f : ErrArray → ErrArray) : (s.updArr k f).held = s.held := rfl
@[simp] theorem updArr_steps (k : Nat) (f : ErrArray → ErrArray) : (s.updArr k f).steps = s.steps := rfl
@[simp] theorem updArr_fwA (k : Nat) (f : ErrArray → ErrArray) : (s.updArr k f).fwA = s.fwA := rfl
@[simp] theorem updArr_fwB (k : Nat) (f : ErrArray → ErrArray) : (s.updArr k f).fwB = s.fwB := rfl
@[simp] theorem updArr_starter (k : Nat) (f : ErrArray → ErrArray) : (s.updArr k f).starter = s.starter := rfl

@[simp] theorem emit_cur (o : Out) : (s.emit o).cur = s.cur := rfl
@[simp] theorem emit_agenda (o : Out) : (s.emit o).agenda = s.agenda := rfl
@[simp] theorem emit_tick (o : Out) : (s.emit o).tick = s.tick := rfl
@[simp] theorem emit_outbox (o : Out) : (s.emit o).outbox = s.outbox ++ [o] := rfl
@[simp] theorem emit_mem (o : Out) : (s.emit o).mem = s.mem := rfl
@[simp] theorem emit_strands (o : Out) : (s.emit o).strands = s.strands := rfl
@[simp] theorem emit_teams (o : Out) : (s.emit o).teams = s.teams := rfl
@[simp] theorem emit_kernels (o : Out) : (s.emit o).kernels = s.kernels := rfl
@[simp] theorem emit_recs (o : Out) : (s.emit o).recs = s.recs := rfl
@[simp] theorem emit_sems (o : Out) : (s.emit o).sems = s.sems := rfl
@[simp] theorem emit_cores (o : Out) : (s.emit o).cores = s.cores := rfl
@[simp] theorem emit_walkers (o : Out) : (s.emit o).walkers = s.walkers := rfl
@[simp] theorem emit_dies (o : Out) : (s.emit o).dies = s.dies := rfl
@[simp] theorem emit_ctxs (o : Out) : (s.emit o).ctxs = s.ctxs := rfl
@[simp] theorem emit_queues (o : Out) : (s.emit o).queues = s.queues := rfl
@[simp] theorem emit_sessions (o : Out) : (s.emit o).sessions = s.sessions := rfl
@[simp] theorem emit_mgmtConns (o : Out) : (s.emit o).mgmtConns = s.mgmtConns := rfl
@[simp] theorem emit_nextConn (o : Out) : (s.emit o).nextConn = s.nextConn := rfl
@[simp] theorem emit_nextRec (o : Out) : (s.emit o).nextRec = s.nextRec := rfl
@[simp] theorem emit_nextLid (o : Out) : (s.emit o).nextLid = s.nextLid := rfl
@[simp] theorem emit_turn (o : Out) : (s.emit o).turn = s.turn := rfl
@[simp] theorem emit_live (o : Out) : (s.emit o).live = s.live := rfl
@[simp] theorem emit_poison (o : Out) : (s.emit o).poison = s.poison := rfl
@[simp] theorem emit_injected (o : Out) : (s.emit o).injected = s.injected := rfl
@[simp] theorem emit_arrays (o : Out) : (s.emit o).arrays = s.arrays := rfl
@[simp] theorem emit_contribs (o : Out) : (s.emit o).contribs = s.contribs := rfl
@[simp] theorem emit_seats (o : Out) : (s.emit o).seats = s.seats := rfl
@[simp] theorem emit_dev (o : Out) : (s.emit o).dev = s.dev := rfl
@[simp] theorem emit_pkg (o : Out) : (s.emit o).pkg = s.pkg := rfl
@[simp] theorem emit_meas (o : Out) : (s.emit o).meas = s.meas := rfl
@[simp] theorem emit_fuseAdmin (o : Out) : (s.emit o).fuseAdmin = s.fuseAdmin := rfl
@[simp] theorem emit_fuseFast (o : Out) : (s.emit o).fuseFast = s.fuseFast := rfl
@[simp] theorem emit_floors (o : Out) : (s.emit o).floors = s.floors := rfl
@[simp] theorem emit_mhz (o : Out) : (s.emit o).mhz = s.mhz := rfl
@[simp] theorem emit_hold (o : Out) : (s.emit o).hold = s.hold := rfl
@[simp] theorem emit_fencedDies (o : Out) : (s.emit o).fencedDies = s.fencedDies := rfl
@[simp] theorem emit_fencedAtt (o : Out) : (s.emit o).fencedAtt = s.fencedAtt := rfl
@[simp] theorem emit_spares (o : Out) : (s.emit o).spares = s.spares := rfl
@[simp] theorem emit_spareCores (o : Out) : (s.emit o).spareCores = s.spareCores := rfl
@[simp] theorem emit_carrier (o : Out) : (s.emit o).carrier = s.carrier := rfl
@[simp] theorem emit_activating (o : Out) : (s.emit o).activating = s.activating := rfl
@[simp] theorem emit_requests (o : Out) : (s.emit o).requests = s.requests := rfl
@[simp] theorem emit_held (o : Out) : (s.emit o).held = s.held := rfl
@[simp] theorem emit_steps (o : Out) : (s.emit o).steps = s.steps := rfl
@[simp] theorem emit_fwA (o : Out) : (s.emit o).fwA = s.fwA := rfl
@[simp] theorem emit_fwB (o : Out) : (s.emit o).fwB = s.fwB := rfl
@[simp] theorem emit_starter (o : Out) : (s.emit o).starter = s.starter := rfl

end Sys2Proof.Machine.State
end

