-- ==== Sys2Proof/Laws/Ops.lean ====
section
/-! SUPPORT. What the shared operations on stored bytes and traps can do: the error checks change only the error arrays, a
store writes its bytes and no others, and a trap enters the handler or is fatal. -/

namespace Sys2Proof.Machine

set_option Elab.async false

/-- Two states that differ at most in the stored errors and the error arrays. -/
def sameButErrors (s t : State) : Prop := { t with arrays := s.arrays, poison := s.poison, injected := s.injected } = s

theorem sameButErrors_refl (s : State) : sameButErrors s s := rfl

theorem sameButErrors_trans {s t u : State} (h : sameButErrors s t) (k : sameButErrors t u) : sameButErrors s u := by
  unfold sameButErrors at *
  rw [← h, ← k]

theorem sameButErrors_mem {s t : State} (h : sameButErrors s t) : t.mem = s.mem := by
  unfold sameButErrors at h
  rw [← h]

theorem sameButErrors_foldl {α : Type} (f : State → α → State) (h : ∀ s a, sameButErrors s (f s a)) (xs : List α) (s : State) :
    sameButErrors s (xs.foldl f s) := by
  induction xs generalizing s with
  | nil => rfl
  | cons x xs ih => exact sameButErrors_trans (h s x) (ih _)

theorem logError_errors (s : State) (l : Nat) (ctx : Option Nat) (ue inj : Bool) : sameButErrors s (s.logError l ctx ue inj) := rfl

/-- A read of runs changes nothing but the errors (R295, R298). -/
theorem readRuns_errors (s : State) (ctx : Option Nat) (xs : List Span) : sameButErrors s (s.readRuns ctx xs).1 := by
  unfold State.readRuns
  split
  · rfl
  · have h := sameButErrors_foldl (fun (t : State) (e : ErrorMet) => t.logError e.loc ctx e.ue e.inj)
      (fun s e => logError_errors s e.loc ctx e.ue e.inj) (s.errorsIn xs) s
    exact h

/-- Where no byte holds an error, a read of runs meets none and changes nothing. -/
theorem readRuns_clean {s : State} (hp : s.poison = []) (hi : s.injected = []) (ctx : Option Nat) (xs : List Span) :
    s.readRuns ctx xs = (s, none) := by
  simp [State.readRuns, hp, hi]

/-- A read of bytes changes nothing but the errors (R295, R298). -/
theorem readCheck_errors (s : State) (ctx : Option Nat) (a n : Nat) : sameButErrors s (s.readCheck ctx a n).1 :=
  readRuns_errors s ctx _

/-- The checks of what a word reads change nothing but the errors (R295, R296). -/
theorem checkSpans_errors (s : State) (ctx : Nat) (xs : List Span) : sameButErrors s (s.checkSpans ctx xs).1 :=
  readRuns_errors s _ xs

/-- An injection that takes effect changes nothing but the errors (R298). -/
theorem fire_errors (s : State) (a n : Nat) : sameButErrors s (s.fire a n) := by
  unfold State.fire
  split
  · rfl
  · refine sameButErrors_foldl _ (fun s e => ?_) _ _
    dsimp only
    split
    · rfl
    · rfl

/-- The checks of a write change nothing but the errors (R257, R298). -/
theorem writeCheck_errors (s : State) (a n : Nat) : sameButErrors s (s.writeCheck a n) := by
  unfold State.writeCheck
  refine sameButErrors_trans ?_ (fire_errors _ a n)
  dsimp only
  split <;> split <;> rfl

/-- The checks of a write of runs change nothing but the errors (R257, R298). -/
theorem writeRuns_errors (s : State) (xs : List Span) : sameButErrors s (s.writeRuns xs) := by
  unfold State.writeRuns
  refine sameButErrors_trans ?_ (sameButErrors_foldl _ (fun s x => fire_errors s x.1 (x.2 - x.1)) xs _)
  dsimp only
  split <;> split <;> rfl

@[simp] theorem writeRuns_mem (s : State) (xs : List Span) : (s.writeRuns xs).mem = s.mem :=
  sameButErrors_mem (writeRuns_errors s xs)

@[simp] theorem readRuns_mem (s : State) (ctx : Option Nat) (xs : List Span) : (s.readRuns ctx xs).1.mem = s.mem :=
  sameButErrors_mem (readRuns_errors s ctx xs)

@[simp] theorem checkSpans_mem (s : State) (ctx : Nat) (xs : List Span) : (s.checkSpans ctx xs).1.mem = s.mem :=
  sameButErrors_mem (checkSpans_errors s ctx xs)

@[simp] theorem readCheck_mem (s : State) (ctx : Option Nat) (a n : Nat) : (s.readCheck ctx a n).1.mem = s.mem :=
  sameButErrors_mem (readCheck_errors s ctx a n)

@[simp] theorem writeCheck_mem (s : State) (a n : Nat) : (s.writeCheck a n).mem = s.mem :=
  sameButErrors_mem (writeCheck_errors s a n)

/-- A store writes its bytes (R266). -/
@[simp] theorem store_mem (s : State) (a : Nat) (bs : List Byte) : (s.store a bs).mem = s.mem.write a bs := rfl

@[simp] theorem zero_mem (s : State) (a n : Nat) : (s.zero a n).mem = s.mem.clear a n := rfl

/-- An access that stores several pieces writes their bytes, one piece after another. -/
@[simp] theorem storeAll_mem (s : State) (ws : List (Nat × List Byte)) :
    (s.storeAll ws).mem = ws.foldl (fun m w => m.write w.1 w.2) s.mem := rfl

theorem storeAll_wf {s : State} (h : s.mem.wf = true) (ws : List (Nat × List Byte)) : (s.storeAll ws).mem.wf = true := by
  rw [storeAll_mem]
  generalize s.mem = m at h ⊢
  induction ws generalizing m with
  | nil => exact h
  | cons w ws ih => exact ih _ (write_wf h w.1 w.2)

theorem store_wf {s : State} (h : s.mem.wf = true) (a : Nat) (bs : List Byte) : (s.store a bs).mem.wf = true :=
  write_wf h a bs

theorem zero_wf {s : State} (h : s.mem.wf = true) (a n : Nat) : (s.zero a n).mem.wf = true := clear_wf h a n

/-- Besides its bytes a store changes nothing but the errors. -/
theorem store_errors (s : State) (a : Nat) (bs : List Byte) : sameButErrors { s with mem := s.mem.write a bs } (s.store a bs) := by
  have h := writeCheck_errors s a bs.length
  unfold sameButErrors at h ⊢
  exact congrArg (fun x : State => { x with mem := s.mem.write a bs }) h

/-- Everything a trap can do: it enters the handler, changing only its strand, or it is fatal, of its own cause or as a
double trap (R100, R101, R106). -/
theorem trap_cases (s : State) (c key : Nat) (st : Strand) (cause : Nat) (done : Bool) (info : Word) :
    (st.hflag = false ∧ cause ≤ 4 ∧ st.ktvec ≠ 0 ∧ s.trap c key st cause done info = (s.setStrand key st).setStrand key
      ((s.setStrand key st).boundary c (st.takeTrap cause done info) false)) ∨
    (st.hflag = false ∧ (4 < cause ∨ st.ktvec = 0) ∧
      s.trap c key st cause done info = (s.setStrand key st).fatal key cause info) ∨
    (st.hflag = true ∧ s.trap c key st cause done info = (s.setStrand key st).fatal key 15 (BitVec.ofNat 32 cause)) := by
  unfold State.trap
  by_cases hf : st.hflag = true
  · exact .inr (.inr ⟨hf, by simp only [hf, if_true]⟩)
  · have hf' : st.hflag = false := by simpa using hf
    by_cases h : cause ≤ 4 ∧ st.ktvec ≠ 0
    · exact .inl ⟨hf', h.1, h.2, by simp only [hf', h, ne_eq, not_false_eq_true, and_self, if_true, Bool.false_eq_true, if_false]⟩
    · refine .inr (.inl ⟨hf', ?_, by simp only [hf', h, if_false, Bool.false_eq_true]⟩)
      by_cases h4 : 4 < cause
      · exact .inl h4
      · exact .inr (Classical.byContradiction fun hk => h ⟨by omega, hk⟩)

end Sys2Proof.Machine
end

