-- ==== Sys2Proof/Laws/PerInstr.lean ====
section
/-! SUPPORT. One family of statements per instruction: every word of the opcode table encodes to a word of its own kind, and
an event of the device to none (R54 to R72). -/

namespace Sys2Proof

set_option Elab.async false

/-- The kind of a word. -/
def Code.kind : Code → Kind
  | .strand _ => .strand
  | .tile _ => .tile
  | .move _ => .move
  | .walker _ => .walker

/-- The encoding of an instruction is a word of its kind; an event has none. -/
def Laws.Words.Statement (i : Instr) : Prop :=
  (encode i).map Code.kind = if i.kind = .event then none else some i.kind

theorem Laws.Words.lui (a0 a1) : Laws.Words.Statement (.lui a0 a1) := rfl
theorem Laws.Words.auipc (a0 a1) : Laws.Words.Statement (.auipc a0 a1) := rfl
theorem Laws.Words.jal (a0 a1) : Laws.Words.Statement (.jal a0 a1) := rfl
theorem Laws.Words.jalr (a0 a1 a2) : Laws.Words.Statement (.jalr a0 a1 a2) := rfl
theorem Laws.Words.beq (a0 a1 a2) : Laws.Words.Statement (.beq a0 a1 a2) := rfl
theorem Laws.Words.bne (a0 a1 a2) : Laws.Words.Statement (.bne a0 a1 a2) := rfl
theorem Laws.Words.blt (a0 a1 a2) : Laws.Words.Statement (.blt a0 a1 a2) := rfl
theorem Laws.Words.bge (a0 a1 a2) : Laws.Words.Statement (.bge a0 a1 a2) := rfl
theorem Laws.Words.bltu (a0 a1 a2) : Laws.Words.Statement (.bltu a0 a1 a2) := rfl
theorem Laws.Words.bgeu (a0 a1 a2) : Laws.Words.Statement (.bgeu a0 a1 a2) := rfl
theorem Laws.Words.lb (a0 a1 a2) : Laws.Words.Statement (.lb a0 a1 a2) := rfl
theorem Laws.Words.lh (a0 a1 a2) : Laws.Words.Statement (.lh a0 a1 a2) := rfl
theorem Laws.Words.lw (a0 a1 a2) : Laws.Words.Statement (.lw a0 a1 a2) := rfl
theorem Laws.Words.lbu (a0 a1 a2) : Laws.Words.Statement (.lbu a0 a1 a2) := rfl
theorem Laws.Words.lhu (a0 a1 a2) : Laws.Words.Statement (.lhu a0 a1 a2) := rfl
theorem Laws.Words.sb (a0 a1 a2) : Laws.Words.Statement (.sb a0 a1 a2) := rfl
theorem Laws.Words.sh (a0 a1 a2) : Laws.Words.Statement (.sh a0 a1 a2) := rfl
theorem Laws.Words.sw (a0 a1 a2) : Laws.Words.Statement (.sw a0 a1 a2) := rfl
theorem Laws.Words.addi (a0 a1 a2) : Laws.Words.Statement (.addi a0 a1 a2) := rfl
theorem Laws.Words.slti (a0 a1 a2) : Laws.Words.Statement (.slti a0 a1 a2) := rfl
theorem Laws.Words.sltiu (a0 a1 a2) : Laws.Words.Statement (.sltiu a0 a1 a2) := rfl
theorem Laws.Words.xori (a0 a1 a2) : Laws.Words.Statement (.xori a0 a1 a2) := rfl
theorem Laws.Words.ori (a0 a1 a2) : Laws.Words.Statement (.ori a0 a1 a2) := rfl
theorem Laws.Words.andi (a0 a1 a2) : Laws.Words.Statement (.andi a0 a1 a2) := rfl
theorem Laws.Words.slli (a0 a1 a2) : Laws.Words.Statement (.slli a0 a1 a2) := rfl
theorem Laws.Words.srli (a0 a1 a2) : Laws.Words.Statement (.srli a0 a1 a2) := rfl
theorem Laws.Words.srai (a0 a1 a2) : Laws.Words.Statement (.srai a0 a1 a2) := rfl
theorem Laws.Words.add (a0 a1 a2) : Laws.Words.Statement (.add a0 a1 a2) := rfl
theorem Laws.Words.sub (a0 a1 a2) : Laws.Words.Statement (.sub a0 a1 a2) := rfl
theorem Laws.Words.sll (a0 a1 a2) : Laws.Words.Statement (.sll a0 a1 a2) := rfl
theorem Laws.Words.slt (a0 a1 a2) : Laws.Words.Statement (.slt a0 a1 a2) := rfl
theorem Laws.Words.sltu (a0 a1 a2) : Laws.Words.Statement (.sltu a0 a1 a2) := rfl
theorem Laws.Words.xor (a0 a1 a2) : Laws.Words.Statement (.xor a0 a1 a2) := rfl
theorem Laws.Words.srl (a0 a1 a2) : Laws.Words.Statement (.srl a0 a1 a2) := rfl
theorem Laws.Words.sra (a0 a1 a2) : Laws.Words.Statement (.sra a0 a1 a2) := rfl
theorem Laws.Words.or (a0 a1 a2) : Laws.Words.Statement (.or a0 a1 a2) := rfl
theorem Laws.Words.and (a0 a1 a2) : Laws.Words.Statement (.and a0 a1 a2) := rfl
theorem Laws.Words.mul (a0 a1 a2) : Laws.Words.Statement (.mul a0 a1 a2) := rfl
theorem Laws.Words.mulh (a0 a1 a2) : Laws.Words.Statement (.mulh a0 a1 a2) := rfl
theorem Laws.Words.mulhsu (a0 a1 a2) : Laws.Words.Statement (.mulhsu a0 a1 a2) := rfl
theorem Laws.Words.mulhu (a0 a1 a2) : Laws.Words.Statement (.mulhu a0 a1 a2) := rfl
theorem Laws.Words.div (a0 a1 a2) : Laws.Words.Statement (.div a0 a1 a2) := rfl
theorem Laws.Words.divu (a0 a1 a2) : Laws.Words.Statement (.divu a0 a1 a2) := rfl
theorem Laws.Words.rem (a0 a1 a2) : Laws.Words.Statement (.rem a0 a1 a2) := rfl
theorem Laws.Words.remu (a0 a1 a2) : Laws.Words.Statement (.remu a0 a1 a2) := rfl
theorem Laws.Words.fence (a0 a1 a2) : Laws.Words.Statement (.fence a0 a1 a2) := rfl
theorem Laws.Words.fenceI (a0 a1 a2) : Laws.Words.Statement (.fenceI a0 a1 a2) := rfl
theorem Laws.Words.ecall : Laws.Words.Statement (.ecall) := rfl
theorem Laws.Words.ebreak : Laws.Words.Statement (.ebreak) := rfl
theorem Laws.Words.csrrw (a0 a1 a2) : Laws.Words.Statement (.csrrw a0 a1 a2) := rfl
theorem Laws.Words.csrrs (a0 a1 a2) : Laws.Words.Statement (.csrrs a0 a1 a2) := rfl
theorem Laws.Words.csrrc (a0 a1 a2) : Laws.Words.Statement (.csrrc a0 a1 a2) := rfl
theorem Laws.Words.csrrwi (a0 a1 a2) : Laws.Words.Statement (.csrrwi a0 a1 a2) := rfl
theorem Laws.Words.csrrsi (a0 a1 a2) : Laws.Words.Statement (.csrrsi a0 a1 a2) := rfl
theorem Laws.Words.csrrci (a0 a1 a2) : Laws.Words.Statement (.csrrci a0 a1 a2) := rfl
theorem Laws.Words.illegalInstruction (a0) : Laws.Words.Statement (.illegalInstruction a0) := rfl
theorem Laws.Words.fetchAddressTrap (a0) : Laws.Words.Statement (.fetchAddressTrap a0) := rfl
theorem Laws.Words.lpBegin (a0 a1) : Laws.Words.Statement (.lpBegin a0 a1) := rfl
theorem Laws.Words.lpBeginRot (a0 a1) : Laws.Words.Statement (.lpBeginRot a0 a1) := rfl
theorem Laws.Words.lpBegini (a0 a1) : Laws.Words.Statement (.lpBegini a0 a1) := rfl
theorem Laws.Words.lpBeginiRot (a0 a1) : Laws.Words.Statement (.lpBeginiRot a0 a1) := rfl
theorem Laws.Words.lpExit : Laws.Words.Statement (.lpExit) := rfl
theorem Laws.Words.lpPop : Laws.Words.Statement (.lpPop) := rfl
theorem Laws.Words.lpIdx (a0 a1) : Laws.Words.Statement (.lpIdx a0 a1) := rfl
theorem Laws.Words.trap (a0) : Laws.Words.Statement (.trap a0) := rfl
theorem Laws.Words.tret : Laws.Words.Statement (.tret) := rfl
theorem Laws.Words.sdone : Laws.Words.Statement (.sdone) := rfl
theorem Laws.Words.feWait (a0) : Laws.Words.Statement (.feWait a0) := rfl
theorem Laws.Words.feChk (a0 a1) : Laws.Words.Statement (.feChk a0 a1) := rfl
theorem Laws.Words.asyncResultArrive (a0 a1) : Laws.Words.Statement (.asyncResultArrive a0 a1) := rfl
theorem Laws.Words.yield : Laws.Words.Statement (.yield) := rfl
theorem Laws.Words.depWait : Laws.Words.Statement (.depWait) := rfl
theorem Laws.Words.depTrig : Laws.Words.Statement (.depTrig) := rfl
theorem Laws.Words.tcLd (a0) : Laws.Words.Statement (.tcLd a0) := rfl
theorem Laws.Words.tcSet (a0 a1) : Laws.Words.Statement (.tcSet a0 a1) := rfl
theorem Laws.Words.tcPush (a0) : Laws.Words.Statement (.tcPush a0) := rfl
theorem Laws.Words.vcsLd (a0 a1 a2) : Laws.Words.Statement (.vcsLd a0 a1 a2) := rfl
theorem Laws.Words.tcForce (a0 a1) : Laws.Words.Statement (.tcForce a0 a1) := rfl
theorem Laws.Words.tcDrain : Laws.Words.Statement (.tcDrain) := rfl
theorem Laws.Words.semWait (a0 a1) : Laws.Words.Statement (.semWait a0 a1) := rfl
theorem Laws.Words.semSig (a0 a1) : Laws.Words.Statement (.semSig a0 a1) := rfl
theorem Laws.Words.semTry (a0 a1 a2) : Laws.Words.Statement (.semTry a0 a1 a2) := rfl
theorem Laws.Words.semRd (a0 a1) : Laws.Words.Statement (.semRd a0 a1) := rfl
theorem Laws.Words.semSet (a0 a1) : Laws.Words.Statement (.semSet a0 a1) := rfl
theorem Laws.Words.wrAdv (a0 a1) : Laws.Words.Statement (.wrAdv a0 a1) := rfl
theorem Laws.Words.grpJoin (a0) : Laws.Words.Statement (.grpJoin a0) := rfl
theorem Laws.Words.grpLeave (a0) : Laws.Words.Statement (.grpLeave a0) := rfl
theorem Laws.Words.grpSize (a0 a1) : Laws.Words.Statement (.grpSize a0 a1) := rfl
theorem Laws.Words.grpRank (a0 a1) : Laws.Words.Statement (.grpRank a0 a1) := rfl
theorem Laws.Words.barInit (a0 a1) : Laws.Words.Statement (.barInit a0 a1) := rfl
theorem Laws.Words.barArrive (a0 a1) : Laws.Words.Statement (.barArrive a0 a1) := rfl
theorem Laws.Words.barWait (a0 a1) : Laws.Words.Statement (.barWait a0 a1) := rfl
theorem Laws.Words.barSync (a0 a1 a2) : Laws.Words.Statement (.barSync a0 a1 a2) := rfl
theorem Laws.Words.rngInit (a0 a1) : Laws.Words.Statement (.rngInit a0 a1) := rfl
theorem Laws.Words.rngNext (a0) : Laws.Words.Statement (.rngNext a0) := rfl
theorem Laws.Words.ppPush (a0 a1) : Laws.Words.Statement (.ppPush a0 a1) := rfl
theorem Laws.Words.ppPop (a0 a1) : Laws.Words.Statement (.ppPop a0 a1) := rfl
theorem Laws.Words.ppPeek (a0 a1) : Laws.Words.Statement (.ppPeek a0 a1) := rfl
theorem Laws.Words.grBegin (a0 a1) : Laws.Words.Statement (.grBegin a0 a1) := rfl
theorem Laws.Words.grEnd (a0) : Laws.Words.Statement (.grEnd a0) := rfl
theorem Laws.Words.grCfg (a0) : Laws.Words.Statement (.grCfg a0) := rfl
theorem Laws.Words.grInval (a0) : Laws.Words.Statement (.grInval a0) := rfl
theorem Laws.Words.vaddF (a0 a1 a2 a3) : Laws.Words.Statement (.vaddF a0 a1 a2 a3) := rfl
theorem Laws.Words.vsubF (a0 a1 a2 a3) : Laws.Words.Statement (.vsubF a0 a1 a2 a3) := rfl
theorem Laws.Words.vmulF (a0 a1 a2 a3) : Laws.Words.Statement (.vmulF a0 a1 a2 a3) := rfl
theorem Laws.Words.vfmaF (a0 a1 a2 a3) : Laws.Words.Statement (.vfmaF a0 a1 a2 a3) := rfl
theorem Laws.Words.vminF (a0 a1 a2 a3) : Laws.Words.Statement (.vminF a0 a1 a2 a3) := rfl
theorem Laws.Words.vmaxF (a0 a1 a2 a3) : Laws.Words.Statement (.vmaxF a0 a1 a2 a3) := rfl
theorem Laws.Words.vabsF (a0 a1 a2) : Laws.Words.Statement (.vabsF a0 a1 a2) := rfl
theorem Laws.Words.vnegF (a0 a1 a2) : Laws.Words.Statement (.vnegF a0 a1 a2) := rfl
theorem Laws.Words.vrcp (a0 a1 a2) : Laws.Words.Statement (.vrcp a0 a1 a2) := rfl
theorem Laws.Words.vsqrt (a0 a1 a2) : Laws.Words.Statement (.vsqrt a0 a1 a2) := rfl
theorem Laws.Words.vrsqrt (a0 a1 a2) : Laws.Words.Statement (.vrsqrt a0 a1 a2) := rfl
theorem Laws.Words.vexp2 (a0 a1 a2) : Laws.Words.Statement (.vexp2 a0 a1 a2) := rfl
theorem Laws.Words.vlog2 (a0 a1 a2) : Laws.Words.Statement (.vlog2 a0 a1 a2) := rfl
theorem Laws.Words.vaddI (a0 a1 a2 a3) : Laws.Words.Statement (.vaddI a0 a1 a2 a3) := rfl
theorem Laws.Words.vsubI (a0 a1 a2 a3) : Laws.Words.Statement (.vsubI a0 a1 a2 a3) := rfl
theorem Laws.Words.vmulI (a0 a1 a2 a3) : Laws.Words.Statement (.vmulI a0 a1 a2 a3) := rfl
theorem Laws.Words.vmulhI (a0 a1 a2 a3) : Laws.Words.Statement (.vmulhI a0 a1 a2 a3) := rfl
theorem Laws.Words.vminI (a0 a1 a2 a3) : Laws.Words.Statement (.vminI a0 a1 a2 a3) := rfl
theorem Laws.Words.vmaxI (a0 a1 a2 a3) : Laws.Words.Statement (.vmaxI a0 a1 a2 a3) := rfl
theorem Laws.Words.vand (a0 a1 a2 a3) : Laws.Words.Statement (.vand a0 a1 a2 a3) := rfl
theorem Laws.Words.vor (a0 a1 a2 a3) : Laws.Words.Statement (.vor a0 a1 a2 a3) := rfl
theorem Laws.Words.vxor (a0 a1 a2 a3) : Laws.Words.Statement (.vxor a0 a1 a2 a3) := rfl
theorem Laws.Words.vshl (a0 a1 a2 a3) : Laws.Words.Statement (.vshl a0 a1 a2 a3) := rfl
theorem Laws.Words.vshr (a0 a1 a2 a3) : Laws.Words.Statement (.vshr a0 a1 a2 a3) := rfl
theorem Laws.Words.vsra (a0 a1 a2 a3) : Laws.Words.Statement (.vsra a0 a1 a2 a3) := rfl
theorem Laws.Words.vcmpFEq (a0 a1 a2 a3) : Laws.Words.Statement (.vcmpFEq a0 a1 a2 a3) := rfl
theorem Laws.Words.vcmpFNe (a0 a1 a2 a3) : Laws.Words.Statement (.vcmpFNe a0 a1 a2 a3) := rfl
theorem Laws.Words.vcmpFLt (a0 a1 a2 a3) : Laws.Words.Statement (.vcmpFLt a0 a1 a2 a3) := rfl
theorem Laws.Words.vcmpFLe (a0 a1 a2 a3) : Laws.Words.Statement (.vcmpFLe a0 a1 a2 a3) := rfl
theorem Laws.Words.vcmpIEq (a0 a1 a2 a3) : Laws.Words.Statement (.vcmpIEq a0 a1 a2 a3) := rfl
theorem Laws.Words.vcmpINe (a0 a1 a2 a3) : Laws.Words.Statement (.vcmpINe a0 a1 a2 a3) := rfl
theorem Laws.Words.vcmpILt (a0 a1 a2 a3) : Laws.Words.Statement (.vcmpILt a0 a1 a2 a3) := rfl
theorem Laws.Words.vcmpILe (a0 a1 a2 a3) : Laws.Words.Statement (.vcmpILe a0 a1 a2 a3) := rfl
theorem Laws.Words.vcmpILtu (a0 a1 a2 a3) : Laws.Words.Statement (.vcmpILtu a0 a1 a2 a3) := rfl
theorem Laws.Words.vcmpILeu (a0 a1 a2 a3) : Laws.Words.Statement (.vcmpILeu a0 a1 a2 a3) := rfl
theorem Laws.Words.vsel (a0 a1 a2 a3) : Laws.Words.Statement (.vsel a0 a1 a2 a3) := rfl
theorem Laws.Words.vmv (a0 a1 a2) : Laws.Words.Statement (.vmv a0 a1 a2) := rfl
theorem Laws.Words.vbcast (a0 a1 a2) : Laws.Words.Statement (.vbcast a0 a1 a2) := rfl
theorem Laws.Words.vpand (a0 a1 a2) : Laws.Words.Statement (.vpand a0 a1 a2) := rfl
theorem Laws.Words.vpor (a0 a1 a2) : Laws.Words.Statement (.vpor a0 a1 a2) := rfl
theorem Laws.Words.vpnot (a0 a1) : Laws.Words.Statement (.vpnot a0 a1) := rfl
theorem Laws.Words.vpcnt (a0 a1) : Laws.Words.Statement (.vpcnt a0 a1) := rfl
theorem Laws.Words.vld (a0 a1 a2) : Laws.Words.Statement (.vld a0 a1 a2) := rfl
theorem Laws.Words.vst (a0 a1 a2) : Laws.Words.Statement (.vst a0 a1 a2) := rfl
theorem Laws.Words.vlds (a0 a1 a2 a3) : Laws.Words.Statement (.vlds a0 a1 a2 a3) := rfl
theorem Laws.Words.vsts (a0 a1 a2 a3) : Laws.Words.Statement (.vsts a0 a1 a2 a3) := rfl
theorem Laws.Words.vldx (a0 a1 a2 a3) : Laws.Words.Statement (.vldx a0 a1 a2 a3) := rfl
theorem Laws.Words.vperm (a0 a1 a2 a3) : Laws.Words.Statement (.vperm a0 a1 a2 a3) := rfl
theorem Laws.Words.vslide (a0 a1 a2 a3) : Laws.Words.Statement (.vslide a0 a1 a2 a3) := rfl
theorem Laws.Words.vscan (a0 a1 a2) : Laws.Words.Statement (.vscan a0 a1 a2) := rfl
theorem Laws.Words.vcvt (a0 a1 a2 a3 a4) : Laws.Words.Statement (.vcvt a0 a1 a2 a3 a4) := rfl
theorem Laws.Words.vredSum (a0 a1 a2) : Laws.Words.Statement (.vredSum a0 a1 a2) := rfl
theorem Laws.Words.vredMax (a0 a1 a2) : Laws.Words.Statement (.vredMax a0 a1 a2) := rfl
theorem Laws.Words.vredMin (a0 a1 a2) : Laws.Words.Statement (.vredMin a0 a1 a2) := rfl
theorem Laws.Words.vredAnd (a0 a1 a2) : Laws.Words.Statement (.vredAnd a0 a1 a2) := rfl
theorem Laws.Words.vredOr (a0 a1 a2) : Laws.Words.Statement (.vredOr a0 a1 a2) := rfl
theorem Laws.Words.vnz (a0 a1 a2 a3) : Laws.Words.Statement (.vnz a0 a1 a2 a3) := rfl
theorem Laws.Words.vcst (a0 a1 a2) : Laws.Words.Statement (.vcst a0 a1 a2) := rfl
theorem Laws.Words.vhist (a0 a1 a2) : Laws.Words.Statement (.vhist a0 a1 a2) := rfl
theorem Laws.Words.vhmerge (a0 a1 a2) : Laws.Words.Statement (.vhmerge a0 a1 a2) := rfl
theorem Laws.Words.mm (a0 a1 a2 a3) : Laws.Words.Statement (.mm a0 a1 a2 a3) := rfl
theorem Laws.Words.mmTri (a0 a1 a2 a3) : Laws.Words.Statement (.mmTri a0 a1 a2 a3) := rfl
theorem Laws.Words.wload (a0 a1 a2 a3) : Laws.Words.Statement (.wload a0 a1 a2 a3) := rfl
theorem Laws.Words.wloadAns (a0 a1 a2 a3) : Laws.Words.Statement (.wloadAns a0 a1 a2 a3) := rfl
theorem Laws.Words.tstore (a0 a1 a2) : Laws.Words.Statement (.tstore a0 a1 a2) := rfl
theorem Laws.Words.tconv (a0 a1 a2 a3) : Laws.Words.Statement (.tconv a0 a1 a2 a3) := rfl
theorem Laws.Words.tcopy (a0 a1 a2) : Laws.Words.Statement (.tcopy a0 a1 a2) := rfl
theorem Laws.Words.tfill (a0 a1 a2) : Laws.Words.Statement (.tfill a0 a1 a2) := rfl
theorem Laws.Words.tclr (a0 a1) : Laws.Words.Statement (.tclr a0 a1) := rfl
theorem Laws.Words.vtCall (a0 a1 a2 a3) : Laws.Words.Statement (.vtCall a0 a1 a2 a3) := rfl
theorem Laws.Words.twalk (a0 a1 a2 a3) : Laws.Words.Statement (.twalk a0 a1 a2 a3) := rfl
theorem Laws.Words.xfer (a0 a1 a2 a3) : Laws.Words.Statement (.xfer a0 a1 a2 a3) := rfl
theorem Laws.Words.wkNop : Laws.Words.Statement (.wkNop) := rfl
theorem Laws.Words.wkLd (a0 a1 a2) : Laws.Words.Statement (.wkLd a0 a1 a2) := rfl
theorem Laws.Words.wkLdx (a0 a1 a2 a3) : Laws.Words.Statement (.wkLdx a0 a1 a2 a3) := rfl
theorem Laws.Words.wkMov (a0 a1) : Laws.Words.Statement (.wkMov a0 a1) := rfl
theorem Laws.Words.wkAdd (a0 a1 a2) : Laws.Words.Statement (.wkAdd a0 a1 a2) := rfl
theorem Laws.Words.wkAddi (a0 a1 a2) : Laws.Words.Statement (.wkAddi a0 a1 a2) := rfl
theorem Laws.Words.wkCmp (a0 a1 a2 a3) : Laws.Words.Statement (.wkCmp a0 a1 a2 a3) := rfl
theorem Laws.Words.wkBr (a0 a1) : Laws.Words.Statement (.wkBr a0 a1) := rfl
theorem Laws.Words.wkLoop (a0 a1) : Laws.Words.Statement (.wkLoop a0 a1) := rfl
theorem Laws.Words.wkEmit (a0 a1) : Laws.Words.Statement (.wkEmit a0 a1) := rfl
theorem Laws.Words.wkZero : Laws.Words.Statement (.wkZero) := rfl
theorem Laws.Words.wkFlush : Laws.Words.Statement (.wkFlush) := rfl
theorem Laws.Words.wkSkip (a0) : Laws.Words.Statement (.wkSkip a0) := rfl
theorem Laws.Words.wkEnd : Laws.Words.Statement (.wkEnd) := rfl
theorem Laws.Words.walkerIllegalWord : Laws.Words.Statement (.walkerIllegalWord) := rfl
theorem Laws.Words.walkerStepLimit : Laws.Words.Statement (.walkerStepLimit) := rfl
theorem Laws.Words.mvNop : Laws.Words.Statement (.mvNop) := rfl
theorem Laws.Words.mvLi (a0 a1) : Laws.Words.Statement (.mvLi a0 a1) := rfl
theorem Laws.Words.mvAdd (a0 a1 a2) : Laws.Words.Statement (.mvAdd a0 a1 a2) := rfl
theorem Laws.Words.mvAddi (a0 a1 a2) : Laws.Words.Statement (.mvAddi a0 a1 a2) := rfl
theorem Laws.Words.mvSub (a0 a1 a2) : Laws.Words.Statement (.mvSub a0 a1 a2) := rfl
theorem Laws.Words.mvAnd (a0 a1 a2) : Laws.Words.Statement (.mvAnd a0 a1 a2) := rfl
theorem Laws.Words.mvShl (a0 a1 a2) : Laws.Words.Statement (.mvShl a0 a1 a2) := rfl
theorem Laws.Words.mvMul (a0 a1 a2) : Laws.Words.Statement (.mvMul a0 a1 a2) := rfl
theorem Laws.Words.mvBr (a0 a1 a2 a3) : Laws.Words.Statement (.mvBr a0 a1 a2 a3) := rfl
theorem Laws.Words.mvJal (a0 a1) : Laws.Words.Statement (.mvJal a0 a1) := rfl
theorem Laws.Words.mvJalReg (a0 a1) : Laws.Words.Statement (.mvJalReg a0 a1) := rfl
theorem Laws.Words.mvNest (a0 a1) : Laws.Words.Statement (.mvNest a0 a1) := rfl
theorem Laws.Words.mvLp (a0 a1) : Laws.Words.Statement (.mvLp a0 a1) := rfl
theorem Laws.Words.mvCopy (a0) : Laws.Words.Statement (.mvCopy a0) := rfl
theorem Laws.Words.mvGath (a0) : Laws.Words.Statement (.mvGath a0) := rfl
theorem Laws.Words.mvScat (a0) : Laws.Words.Statement (.mvScat a0) := rfl
theorem Laws.Words.mvTpose (a0) : Laws.Words.Statement (.mvTpose a0) := rfl
theorem Laws.Words.mvCvt (a0) : Laws.Words.Statement (.mvCvt a0) := rfl
theorem Laws.Words.mvRed (a0) : Laws.Words.Statement (.mvRed a0) := rfl
theorem Laws.Words.mvMcast (a0) : Laws.Words.Statement (.mvMcast a0) := rfl
theorem Laws.Words.mvAtom (a0 a1 a2 a3 a4 a5) : Laws.Words.Statement (.mvAtom a0 a1 a2 a3 a4 a5) := rfl
theorem Laws.Words.mvWin (a0) : Laws.Words.Statement (.mvWin a0) := rfl
theorem Laws.Words.mvZip (a0) : Laws.Words.Statement (.mvZip a0) := rfl
theorem Laws.Words.mvUnzip (a0) : Laws.Words.Statement (.mvUnzip a0) := rfl
theorem Laws.Words.mvCsum (a0) : Laws.Words.Statement (.mvCsum a0) := rfl
theorem Laws.Words.mvCsumSrc (a0) : Laws.Words.Statement (.mvCsumSrc a0) := rfl
theorem Laws.Words.mvNvm (a0 a1 a2 a3 a4) : Laws.Words.Statement (.mvNvm a0 a1 a2 a3 a4) := rfl
theorem Laws.Words.mvSig (a0 a1 a2 a3) : Laws.Words.Statement (.mvSig a0 a1 a2 a3) := rfl
theorem Laws.Words.mvTw (a0 a1) : Laws.Words.Statement (.mvTw a0 a1) := rfl
theorem Laws.Words.mvTwSem (a0 a1 a2) : Laws.Words.Statement (.mvTwSem a0 a1 a2) := rfl
theorem Laws.Words.mvFence : Laws.Words.Statement (.mvFence) := rfl
theorem Laws.Words.mvFenceRd (a0) : Laws.Words.Statement (.mvFenceRd a0) := rfl
theorem Laws.Words.mvRet : Laws.Words.Statement (.mvRet) := rfl
theorem Laws.Words.mvTrap (a0) : Laws.Words.Statement (.mvTrap a0) := rfl
theorem Laws.Words.illegalMoveWord : Laws.Words.Statement (.illegalMoveWord) := rfl
theorem Laws.Words.moveCommandStart (a0 a1) : Laws.Words.Statement (.moveCommandStart a0 a1) := rfl
theorem Laws.Words.scoreboardRegister (a0 a1 a2) : Laws.Words.Statement (.scoreboardRegister a0 a1 a2) := rfl
theorem Laws.Words.moveCommandRetire (a0 a1) : Laws.Words.Statement (.moveCommandRetire a0 a1) := rfl
theorem Laws.Words.moveRunRetire (a0) : Laws.Words.Statement (.moveRunRetire a0) := rfl
theorem Laws.Words.moveUncorrectableError (a0 a1) : Laws.Words.Statement (.moveUncorrectableError a0 a1) := rfl
theorem Laws.Words.rollbackComplete (a0) : Laws.Words.Statement (.rollbackComplete a0) := rfl
theorem Laws.Words.windrowRowArrival (a0 a1) : Laws.Words.Statement (.windrowRowArrival a0 a1) := rfl
theorem Laws.Words.pageWalkComplete (a0 a1) : Laws.Words.Statement (.pageWalkComplete a0 a1) := rfl
theorem Laws.Words.faultEventQueue (a0 a1) : Laws.Words.Statement (.faultEventQueue a0 a1) := rfl
theorem Laws.Words.teamPlace (a0 a1) : Laws.Words.Statement (.teamPlace a0 a1) := rfl
theorem Laws.Words.teamSwitchComplete (a0) : Laws.Words.Statement (.teamSwitchComplete a0) := rfl
theorem Laws.Words.loftFill (a0 a1) : Laws.Words.Statement (.loftFill a0 a1) := rfl
theorem Laws.Words.spillComplete (a0) : Laws.Words.Statement (.spillComplete a0) := rfl
theorem Laws.Words.launchRecordFetch (a0) : Laws.Words.Statement (.launchRecordFetch a0) := rfl
theorem Laws.Words.recordAdmission (a0) : Laws.Words.Statement (.recordAdmission a0) := rfl
theorem Laws.Words.kernelLoadComplete (a0) : Laws.Words.Statement (.kernelLoadComplete a0) := rfl
theorem Laws.Words.completionRecordWrite (a0) : Laws.Words.Statement (.completionRecordWrite a0) := rfl
theorem Laws.Words.rangeSteal (a0) : Laws.Words.Statement (.rangeSteal a0) := rfl
theorem Laws.Words.eventRingPost (a0) : Laws.Words.Statement (.eventRingPost a0) := rfl
theorem Laws.Words.evictTeam (a0) : Laws.Words.Statement (.evictTeam a0) := rfl
theorem Laws.Words.barrierTimeout (a0 a1) : Laws.Words.Statement (.barrierTimeout a0 a1) := rfl
theorem Laws.Words.nvmeCompletion (a0 a1 a2 a3) : Laws.Words.Statement (.nvmeCompletion a0 a1 a2 a3) := rfl
theorem Laws.Words.remoteAccessTimeout (a0 a1) : Laws.Words.Statement (.remoteAccessTimeout a0 a1) := rfl
theorem Laws.Words.rrbLineExpiry (a0 a1) : Laws.Words.Statement (.rrbLineExpiry a0 a1) := rfl
theorem Laws.Words.contributionAccept (a0 a1 a2 a3) : Laws.Words.Statement (.contributionAccept a0 a1 a2 a3) := rfl
theorem Laws.Words.contributionResend (a0 a1 a2 a3) : Laws.Words.Statement (.contributionResend a0 a1 a2 a3) := rfl
theorem Laws.Words.contributionDeliver (a0) : Laws.Words.Statement (.contributionDeliver a0) := rfl
theorem Laws.Words.counterLowWordRead (a0 a1) : Laws.Words.Statement (.counterLowWordRead a0 a1) := rfl
theorem Laws.Words.regionFieldWrite (a0 a1 a2) : Laws.Words.Statement (.regionFieldWrite a0 a1 a2) := rfl
theorem Laws.Words.windrowEnable (a0 a1) : Laws.Words.Statement (.windrowEnable a0 a1) := rfl
theorem Laws.Words.registerWrite (a0 a1) : Laws.Words.Statement (.registerWrite a0 a1) := rfl
theorem Laws.Words.teamSwitchRequest (a0) : Laws.Words.Statement (.teamSwitchRequest a0) := rfl
theorem Laws.Words.switchPointTimeout (a0) : Laws.Words.Statement (.switchPointTimeout a0) := rfl
theorem Laws.Words.residencyQuantumExpiry (a0) : Laws.Words.Statement (.residencyQuantumExpiry a0) := rfl
theorem Laws.Words.pipeOccupancySample (a0) : Laws.Words.Statement (.pipeOccupancySample a0) := rfl
theorem Laws.Words.pipeRebalanceWindow (a0) : Laws.Words.Statement (.pipeRebalanceWindow a0) := rfl
theorem Laws.Words.recordAging (a0) : Laws.Words.Statement (.recordAging a0) := rfl
theorem Laws.Words.tailWrite (a0 a1 a2) : Laws.Words.Statement (.tailWrite a0 a1 a2) := rfl
theorem Laws.Words.cheadWrite (a0 a1 a2) : Laws.Words.Statement (.cheadWrite a0 a1 a2) := rfl
theorem Laws.Words.queueRestart (a0 a1) : Laws.Words.Statement (.queueRestart a0 a1) := rfl
theorem Laws.Words.eheadWrite (a0 a1) : Laws.Words.Statement (.eheadWrite a0 a1) := rfl
theorem Laws.Words.erestart (a0) : Laws.Words.Statement (.erestart a0) := rfl
theorem Laws.Words.storageConnect (a0 a1) : Laws.Words.Statement (.storageConnect a0 a1) := rfl
theorem Laws.Words.storageDisconnect (a0 a1) : Laws.Words.Statement (.storageDisconnect a0 a1) := rfl
theorem Laws.Words.storageConnectComplete (a0 a1 a2 a3 a4) : Laws.Words.Statement (.storageConnectComplete a0 a1 a2 a3 a4) := rfl
theorem Laws.Words.storagePairFailure (a0 a1) : Laws.Words.Statement (.storagePairFailure a0 a1) := rfl
theorem Laws.Words.create (a0 a1 a2) : Laws.Words.Statement (.create a0 a1 a2) := rfl
theorem Laws.Words.grant (a0 a1 a2) : Laws.Words.Statement (.grant a0 a1 a2) := rfl
theorem Laws.Words.release (a0 a1 a2) : Laws.Words.Statement (.release a0 a1 a2) := rfl
theorem Laws.Words.writeConfig (a0 a1 a2) : Laws.Words.Statement (.writeConfig a0 a1 a2) := rfl
theorem Laws.Words.readConfig (a0 a1 a2) : Laws.Words.Statement (.readConfig a0 a1 a2) := rfl
theorem Laws.Words.bindQueue (a0 a1) : Laws.Words.Statement (.bindQueue a0 a1) := rfl
theorem Laws.Words.unbindQueue (a0 a1) : Laws.Words.Statement (.unbindQueue a0 a1) := rfl
theorem Laws.Words.lock (a0) : Laws.Words.Statement (.lock a0) := rfl
theorem Laws.Words.getReport (a0 a1) : Laws.Words.Statement (.getReport a0 a1) := rfl
theorem Laws.Words.start (a0) : Laws.Words.Statement (.start a0) := rfl
theorem Laws.Words.stop (a0) : Laws.Words.Statement (.stop a0) := rfl
theorem Laws.Words.teardown (a0) : Laws.Words.Statement (.teardown a0) := rfl
theorem Laws.Words.resumeOne (a0 a1 a2) : Laws.Words.Statement (.resumeOne a0 a1 a2) := rfl
theorem Laws.Words.resumeRange (a0 a1 a2) : Laws.Words.Statement (.resumeRange a0 a1 a2) := rfl
theorem Laws.Words.failCommand (a0 a1 a2) : Laws.Words.Statement (.failCommand a0 a1 a2) := rfl
theorem Laws.Words.readSuspension (a0 a1 a2) : Laws.Words.Statement (.readSuspension a0 a1 a2) := rfl
theorem Laws.Words.invalidate (a0 a1 a2 a3) : Laws.Words.Statement (.invalidate a0 a1 a2 a3) := rfl
theorem Laws.Words.setPackage (a0 a1) : Laws.Words.Statement (.setPackage a0 a1) := rfl
theorem Laws.Words.countersRead (a0 a1 a2) : Laws.Words.Statement (.countersRead a0 a1 a2) := rfl
theorem Laws.Words.countersWrite (a0 a1 a2 a3) : Laws.Words.Statement (.countersWrite a0 a1 a2 a3) := rfl
theorem Laws.Words.errorLogRead (a0 a1 a2) : Laws.Words.Statement (.errorLogRead a0 a1 a2) := rfl
theorem Laws.Words.errorLogClear (a0 a1 a2) : Laws.Words.Statement (.errorLogClear a0 a1 a2) := rfl
theorem Laws.Words.errorLogPop (a0 a1 a2) : Laws.Words.Statement (.errorLogPop a0 a1 a2) := rfl
theorem Laws.Words.inject (a0 a1 a2 a3 a4 a5) : Laws.Words.Statement (.inject a0 a1 a2 a3 a4 a5) := rfl
theorem Laws.Words.loadImage (a0 a1 a2) : Laws.Words.Statement (.loadImage a0 a1 a2) := rfl
theorem Laws.Words.activate (a0 a1 a2) : Laws.Words.Statement (.activate a0 a1 a2) := rfl
theorem Laws.Words.imageActivationComplete (a0) : Laws.Words.Statement (.imageActivationComplete a0) := rfl
theorem Laws.Words.startDeviceCold (a0) : Laws.Words.Statement (.startDeviceCold a0) := rfl
theorem Laws.Words.startDeviceWarm (a0) : Laws.Words.Statement (.startDeviceWarm a0) := rfl
theorem Laws.Words.deviceStartComplete : Laws.Words.Statement (.deviceStartComplete) := rfl
theorem Laws.Words.retrainLink (a0 a1) : Laws.Words.Statement (.retrainLink a0 a1) := rfl
theorem Laws.Words.spare (a0 a1 a2) : Laws.Words.Statement (.spare a0 a1 a2) := rfl
theorem Laws.Words.retireCore (a0 a1) : Laws.Words.Statement (.retireCore a0 a1) := rfl
theorem Laws.Words.fenceIn (a0 a1) : Laws.Words.Statement (.fenceIn a0 a1) := rfl
theorem Laws.Words.fenceOut (a0 a1) : Laws.Words.Statement (.fenceOut a0 a1) := rfl
theorem Laws.Words.getVersion (a0) : Laws.Words.Statement (.getVersion a0) := rfl
theorem Laws.Words.getCapabilities (a0) : Laws.Words.Statement (.getCapabilities a0) := rfl
theorem Laws.Words.negotiateAlgorithms (a0) : Laws.Words.Statement (.negotiateAlgorithms a0) := rfl
theorem Laws.Words.getDigests (a0) : Laws.Words.Statement (.getDigests a0) := rfl
theorem Laws.Words.getCertificate (a0) : Laws.Words.Statement (.getCertificate a0) := rfl
theorem Laws.Words.challenge (a0 a1) : Laws.Words.Statement (.challenge a0 a1) := rfl
theorem Laws.Words.getMeasurements (a0) : Laws.Words.Statement (.getMeasurements a0) := rfl
theorem Laws.Words.keyExchange (a0 a1 a2) : Laws.Words.Statement (.keyExchange a0 a1 a2) := rfl
theorem Laws.Words.finish (a0 a1 a2) : Laws.Words.Statement (.finish a0 a1 a2) := rfl
theorem Laws.Words.heartbeat (a0) : Laws.Words.Statement (.heartbeat a0) := rfl
theorem Laws.Words.heartbeatExpiry (a0) : Laws.Words.Statement (.heartbeatExpiry a0) := rfl
theorem Laws.Words.keyUpdate (a0) : Laws.Words.Statement (.keyUpdate a0) := rfl
theorem Laws.Words.endSession (a0) : Laws.Words.Statement (.endSession a0) := rfl
theorem Laws.Words.unsupportedRequest (a0 a1) : Laws.Words.Statement (.unsupportedRequest a0 a1) := rfl
theorem Laws.Words.managementConnectionRequest (a0 a1) : Laws.Words.Statement (.managementConnectionRequest a0 a1) := rfl
theorem Laws.Words.contextConnectionRequest (a0 a1 a2) : Laws.Words.Statement (.contextConnectionRequest a0 a1 a2) := rfl
theorem Laws.Words.rdmaWriteVirtual (a0 a1 a2 a3) : Laws.Words.Statement (.rdmaWriteVirtual a0 a1 a2 a3) := rfl
theorem Laws.Words.rdmaReadVirtual (a0 a1 a2 a3) : Laws.Words.Statement (.rdmaReadVirtual a0 a1 a2 a3) := rfl
theorem Laws.Words.rdmaWritePhysical (a0 a1 a2) : Laws.Words.Statement (.rdmaWritePhysical a0 a1 a2) := rfl
theorem Laws.Words.rdmaReadPhysical (a0 a1 a2) : Laws.Words.Statement (.rdmaReadPhysical a0 a1 a2) := rfl
theorem Laws.Words.invalidRequest (a0) : Laws.Words.Statement (.invalidRequest a0) := rfl
theorem Laws.Words.flitCrcFailure (a0 a1) : Laws.Words.Statement (.flitCrcFailure a0 a1) := rfl
theorem Laws.Words.flitReceive (a0 a1) : Laws.Words.Statement (.flitReceive a0 a1) := rfl
theorem Laws.Words.linkTrainingResult (a0 a1 a2) : Laws.Words.Statement (.linkTrainingResult a0 a1 a2) := rfl
theorem Laws.Words.linkTrainingTimeout (a0) : Laws.Words.Statement (.linkTrainingTimeout a0) := rfl
theorem Laws.Words.linkLaneFailure (a0 a1) : Laws.Words.Statement (.linkLaneFailure a0 a1) := rfl
theorem Laws.Words.linkSpareSwap (a0 a1) : Laws.Words.Statement (.linkSpareSwap a0 a1) := rfl
theorem Laws.Words.portCarrierChange (a0 a1) : Laws.Words.Statement (.portCarrierChange a0 a1) := rfl
theorem Laws.Words.windowListAdvertise (a0) : Laws.Words.Statement (.windowListAdvertise a0) := rfl
theorem Laws.Words.powerApplied : Laws.Words.Statement (.powerApplied) := rfl
theorem Laws.Words.powerRemoved : Laws.Words.Statement (.powerRemoved) := rfl
theorem Laws.Words.thermalTrip : Laws.Words.Statement (.thermalTrip) := rfl
theorem Laws.Words.flowLossTrip : Laws.Words.Statement (.flowLossTrip) := rfl
theorem Laws.Words.thermalHold : Laws.Words.Statement (.thermalHold) := rfl
theorem Laws.Words.thermalRelease : Laws.Words.Statement (.thermalRelease) := rfl
theorem Laws.Words.clockStep (a0) : Laws.Words.Statement (.clockStep a0) := rfl
theorem Laws.Words.scrubError (a0 a1 a2 a3 a4 a5) : Laws.Words.Statement (.scrubError a0 a1 a2 a3 a4 a5) := rfl

end Sys2Proof
end

