-- ==== Sys2Proof/Laws/Strand.lean ====
section
/-! SUPPORT. What the shared operations of strand words can do: `strandWord` and the shapes built on it, registers, and
the end of a word. -/

namespace Sys2Proof.Machine

set_option Elab.async false

/-! ## The shape of a strand word -/

theorem find_empty_none {st : Strand} {rs : List XReg} (h : ∀ r ∈ rs, st.isEmpty r = false) :
    rs.find? st.isEmpty = none := by
  rw [List.find?_eq_none]
  intro r hr
  simp [h r hr]

theorem any_empty_false {st : Strand} {rs : List XReg} (h : ∀ r ∈ rs, st.isEmpty r = false) :
    rs.any st.isEmpty = false := by
  rw [List.any_eq_false]
  intro r hr
  simp [h r hr]

/-- A ready word acts. -/
theorem strandWord_ready {s : State} {e : Env} {srcs dsts : List XReg} (h : Ready s e srcs dsts)
    (f : Env → WordEnd) : strandWord s srcs dsts f = .next ((f e).apply e) := by
  have h1 := find_empty_none (fun r hr => h.full r (List.mem_append_left _ hr))
  have h2 := any_empty_false (fun r hr => h.full r (List.mem_append_right _ hr))
  simp [strandWord, h.acts, h1, h2]

/-- A word with no register operand acts whenever its strand does. -/
theorem strandWord_acts {s : State} {e : Env} (h : s.env = some e) (f : Env → WordEnd) :
    strandWord s [] [] f = .next ((f e).apply e) :=
  strandWord_ready ⟨h, by simp⟩ f

/-- Everything a strand word can do: no strand acts; or it traps or stalls on an empty source, the word then not issued; or it
stalls on an empty destination, issued; or it acts. -/
theorem strandWord_cases (s : State) (srcs dsts : List XReg) (f : Env → WordEnd) :
    (s.env = none ∧ strandWord s srcs dsts f = .fault .noAgent) ∨
    ∃ e, s.env = some e ∧
      ((∃ r ∈ srcs, e.st.isEmpty r = true ∧ e.st.femode = true ∧
          strandWord s srcs dsts f = .next (s.trap e.core e.key e.st 4 false (r.zeroExtend 32))) ∨
        (∃ r ∈ srcs, e.st.isEmpty r = true ∧ e.st.femode = false ∧
          strandWord s srcs dsts f = .next (blocked e s (.full r))) ∨
        ((∃ r ∈ dsts, e.st.isEmpty r = true) ∧ strandWord s srcs dsts f = .next (blocked e s (.poll e.mark))) ∨
        (Ready s e srcs dsts ∧ strandWord s srcs dsts f = .next ((f e).apply e))) := by
  cases he : s.env with
  | none => exact .inl ⟨rfl, by simp [strandWord, he]⟩
  | some e =>
    refine .inr ⟨e, rfl, ?_⟩
    cases hf : srcs.find? e.st.isEmpty with
    | some r =>
      have hr := List.mem_of_find?_eq_some hf
      have hp := List.find?_some hf
      cases hm : e.st.femode
      · exact .inr (.inl ⟨r, hr, hp, rfl, by simp [strandWord, he, hf, hm, WordEnd.apply, blocked]⟩)
      · exact .inl ⟨r, hr, hp, rfl, by simp [strandWord, he, hf, hm, WordEnd.apply]⟩
    | none =>
      cases ha : dsts.any e.st.isEmpty
      · refine .inr (.inr (.inr ⟨⟨he, ?_⟩, by simp [strandWord, he, hf, ha]⟩))
        intro r hr
        rcases List.mem_append.1 hr with h | h
        · simpa using List.find?_eq_none.1 hf r h
        · simpa using List.any_eq_false.1 ha r h
      · obtain ⟨r, hr, hp⟩ := List.any_eq_true.1 ha
        exact .inr (.inr (.inl ⟨⟨r, hr, hp⟩, by simp [strandWord, he, hf, ha, WordEnd.apply, blocked]⟩))

@[simp] theorem apply_done (e : Env) (st : Strand) (t : State) : (WordEnd.done st t).apply e = completed e st t := rfl
@[simp] theorem apply_jump (e : Env) (st : Strand) (t : State) (pc : Word) :
    (WordEnd.jump st t pc).apply e = jumped e st t pc := rfl
@[simp] theorem apply_block (e : Env) (w : Wait) (t : State) : (WordEnd.block w t).apply e = blocked e t w := rfl
@[simp] theorem apply_trap (e : Env) (cause : Nat) (dn : Bool) (info : Word) (st : Strand) (t : State) :
    (WordEnd.trap cause dn info st t).apply e = t.trap e.core e.key st cause dn info := rfl
@[simp] theorem apply_ended (e : Env) (t : State) : (WordEnd.ended t).apply e = t := rfl

/-! ## Registers -/

@[simp] theorem getX_zero (st : Strand) : st.getX 0 = 0 := by simp [Strand.getX]
@[simp] theorem setX_zero (st : Strand) (v : Word) : st.setX 0 v = st := by simp [Strand.setX]

theorem getX_setX_same (st : Strand) {r : XReg} (h : r ≠ 0) (v : Word) : (st.setX r v).getX r = v := by
  unfold Strand.getX Strand.setX
  rw [if_neg h, if_neg h]
  simp

theorem getX_setX_other (st : Strand) {r q : XReg} (h : q ≠ r) (v : Word) : (st.setX r v).getX q = st.getX q := by
  unfold Strand.getX Strand.setX
  split
  · rfl
  · split
    · rfl
    · have : r.toNat ≠ q.toNat := fun hh => h (BitVec.eq_of_toNat_eq hh.symm)
      simp [this]

@[simp] theorem setX_pend (st : Strand) (r : XReg) (v : Word) : (st.setX r v).pend = st.pend := by
  unfold Strand.setX; split <;> rfl
@[simp] theorem setX_loops (st : Strand) (r : XReg) (v : Word) : (st.setX r v).loops = st.loops := by
  unfold Strand.setX; split <;> rfl
@[simp] theorem setX_pc (st : Strand) (r : XReg) (v : Word) : (st.setX r v).pc = st.pc := by
  unfold Strand.setX; split <;> rfl
@[simp] theorem setX_isEmpty (st : Strand) (r q : XReg) (v : Word) : (st.setX r v).isEmpty q = st.isEmpty q := by
  simp [Strand.isEmpty]
@[simp] theorem later_loops (st : Strand) (r : XReg) (v : Word) : (st.later r v).loops = st.loops := by
  unfold Strand.later; split <;> rfl

/-! ## The end of a word -/

/-- A word whose innermost loop does not end there goes to the next word and changes no loop (R97). -/
theorem loopEnd_of_not_atEnd (st : Strand) (a : Word) (h : st.atEnd a = false) :
    st.loopEnd a = { st with pc := a + 4 } := by
  unfold Strand.loopEnd Strand.atEnd at *
  cases hl : st.loops with
  | nil => simp [loopEndAux, ← hl]
  | cons l ls => simp [hl] at h; simp [loopEndAux, h, ← hl]

/-- A loop-end event changes pc, the loop stack, and by rotation `rrb` and p4 to p7, and nothing else (R97, R117). -/
theorem loopEndAux_frame (a : Word) (ls : List LoopLevel) (st : Strand) :
    ∃ pc loops rrb p, loopEndAux a ls st = { st with pc := pc, loops := loops, rrb := rrb, p := p } := by
  induction ls generalizing st with
  | nil => exact ⟨_, _, _, _, rfl⟩
  | cons l ls ih =>
    unfold loopEndAux
    by_cases h1 : l.stop = a
    · by_cases h2 : l.rot = true <;> by_cases h3 : l.index.toNat + 1 < l.count.toNat <;> simp only [h1, h2, h3, if_true, if_false, Bool.false_eq_true]
      · exact ⟨_, _, _, _, rfl⟩
      · obtain ⟨pc, loops, rrb, p, h⟩ := ih st.rotate
        exact ⟨pc, loops, rrb, p, h⟩
      · exact ⟨_, _, _, _, rfl⟩
      · exact ih st
    · simp only [h1, if_false]
      exact ⟨_, _, _, _, rfl⟩

/-- A boundary changes only what the strand does next (R83). -/
theorem boundary_frame (s : State) (c : Nat) (st : Strand) (ev : Bool) :
    { s.boundary c st ev with st := st.st, wait := st.wait } = st := rfl

end Sys2Proof.Machine
end

