-- ==== Sys2Proof/Laws/Table.lean ====
section
/-! SUPPORT. Sparse tables: what a lookup gives after each update. -/

namespace Sys2Proof.Machine

set_option Elab.async false

variable {α : Type}

theorem get?_set_same (t : Tbl α) (n : Nat) (a : α) : (t.set n a).get? n = some a := by
  induction t with
  | nil => simp [Tbl.set, Tbl.get?]
  | cons e t ih =>
    obtain ⟨k, v⟩ := e
    unfold Tbl.set
    split
    · simp [Tbl.get?]
    · split
      · simp [Tbl.get?]
      · simp [Tbl.get?, *]

theorem get?_set_other (t : Tbl α) {n m : Nat} (h : m ≠ n) (a : α) : (t.set n a).get? m = t.get? m := by
  induction t with
  | nil => simp [Tbl.set, Tbl.get?, Ne.symm h]
  | cons e t ih =>
    obtain ⟨k, v⟩ := e
    unfold Tbl.set
    split
    · simp [Tbl.get?, Ne.symm h]
    · split
      · rename_i h2; simp [Tbl.get?, Ne.symm h, h2]
      · simp [Tbl.get?, ih]

theorem get?_set (t : Tbl α) (n m : Nat) (a : α) : (t.set n a).get? m = if m = n then some a else t.get? m := by
  split
  · subst m; exact get?_set_same t n a
  · exact get?_set_other t ‹_› a

theorem set_set (t : Tbl α) (n : Nat) (a b : α) : (t.set n a).set n b = t.set n b := by
  induction t with
  | nil => simp [Tbl.set]
  | cons e t ih =>
    obtain ⟨k, v⟩ := e
    by_cases h1 : n < k
    · simp [Tbl.set, h1]
    · by_cases h2 : k = n
      · subst h2; simp [Tbl.set]
      · simp [Tbl.set, h1, h2, ih]

theorem get?_modify (t : Tbl α) (n m : Nat) (f : α → α) :
    (t.modify n f).get? m = if m = n then (t.get? m).map f else t.get? m := by
  induction t with
  | nil => simp [Tbl.modify, Tbl.get?]
  | cons e t ih =>
    obtain ⟨k, v⟩ := e
    unfold Tbl.modify at ih ⊢
    by_cases h : k = n
    · subst h
      by_cases h2 : k = m
      · subst h2; simp [Tbl.get?]
      · simpa [Tbl.get?, h2, Ne.symm h2] using ih
    · by_cases h2 : k = m
      · subst h2; simp [Tbl.get?, h]
      · simpa [Tbl.get?, h, h2] using ih

theorem get?_erase_other (t : Tbl α) {n m : Nat} (h : m ≠ n) : (t.erase n).get? m = t.get? m := by
  induction t with
  | nil => rfl
  | cons e t ih =>
    obtain ⟨k, v⟩ := e
    unfold Tbl.erase at ih ⊢
    by_cases h1 : k = n
    · subst h1; simpa [Tbl.get?, Ne.symm h] using ih
    · simp only [List.filter_cons, ne_eq, h1, not_false_eq_true, decide_true, if_true, Tbl.get?, ih]

theorem get?_erase_same (t : Tbl α) (n : Nat) : (t.erase n).get? n = none := by
  induction t with
  | nil => rfl
  | cons e t ih =>
    obtain ⟨k, v⟩ := e
    unfold Tbl.erase at ih ⊢
    by_cases h1 : k = n
    · subst h1; simpa using ih
    · simp only [List.filter_cons, ne_eq, h1, not_false_eq_true, decide_true, if_true, Tbl.get?, if_false, ih]

/-- Setting an entry at the front key that a table built by `set` already holds replaces it. -/
theorem set_get_self (t : Tbl α) (n : Nat) (a : α) (h : t.get? n = some a)
    (hs : t.Pairwise (fun x y => x.1 < y.1)) : t.set n a = t := by
  induction t with
  | nil => simp [Tbl.get?] at h
  | cons e t ih =>
    obtain ⟨k, v⟩ := e
    rw [List.pairwise_cons] at hs
    unfold Tbl.get? at h
    unfold Tbl.set
    split at h
    · subst_vars; simp at h; simp [h]
    · have hk : k < n := by
        clear ih
        have : ∃ v, (n, v) ∈ t := by
          clear hs
          induction t with
          | nil => simp [Tbl.get?] at h
          | cons e t ih2 =>
            obtain ⟨k', v'⟩ := e
            unfold Tbl.get? at h
            split at h
            · subst_vars; exact ⟨v', by simp⟩
            · obtain ⟨w, hw⟩ := ih2 h
              exact ⟨w, by simp [hw]⟩
        obtain ⟨w, hw⟩ := this
        exact hs.1 _ hw
      simp [Nat.not_lt.2 (Nat.le_of_lt hk), *, ih h hs.2]

end Sys2Proof.Machine
end

