-- ==== Sys2Proof/Tests/Slice0.lean ====
section
/-! SUPPORT. Tests of the model: words written out from the manual's encodings, ill-formed terms, and for every statement a
state and operands that meet its hypotheses. The expected values come from the manual. -/

namespace Sys2Proof.Tests

open Machine


set_option Elab.async false
/-! ## Words written out from the encodings of the manual

Every field holds a value of its own: the fields of R55 to R63 for the strand words, from funct7 down to the opcode, and
those of R72 and R217 for the walker words. -/

def baseWords1 : List (Word × Instr) := [
  (0b1010101_11100_11011_110_00011_0110111, .lui 3 0xabcde),
  (0b1010101_11100_11011_110_00011_0010111, .auipc 3 0xabcde),
  (0b1000000_00110_00000_101_00011_1101111, .jal 3 0x82803),
  (0b1001110_00111_10101_000_00011_1100111, .jalr 3 21 0x9c7),
  (0b1000001_01110_10101_000_00111_1100011, .beq 21 14 0xc13),
  (0b1000001_01110_10101_001_00111_1100011, .bne 21 14 0xc13),
  (0b1000001_01110_10101_100_00111_1100011, .blt 21 14 0xc13),
  (0b1000001_01110_10101_101_00111_1100011, .bge 21 14 0xc13),
  (0b1000001_01110_10101_110_00111_1100011, .bltu 21 14 0xc13),
  (0b1000001_01110_10101_111_00111_1100011, .bgeu 21 14 0xc13),
  (0b1001110_00111_10101_000_00011_0000011, .lb 3 21 0x9c7),
  (0b1001110_00111_10101_001_00011_0000011, .lh 3 21 0x9c7),
  (0b1001110_00111_10101_010_00011_0000011, .lw 3 21 0x9c7),
  (0b1001110_00111_10101_100_00011_0000011, .lbu 3 21 0x9c7),
  (0b1001110_00111_10101_101_00011_0000011, .lhu 3 21 0x9c7),
  (0b1000001_01110_10101_000_00111_0100011, .sb 14 21 0x827),
  (0b1000001_01110_10101_001_00111_0100011, .sh 14 21 0x827),
  (0b1000001_01110_10101_010_00111_0100011, .sw 14 21 0x827),
  (0b1001110_00111_10101_000_00011_0010011, .addi 3 21 0x9c7),
  (0b1001110_00111_10101_010_00011_0010011, .slti 3 21 0x9c7),
  (0b1001110_00111_10101_011_00011_0010011, .sltiu 3 21 0x9c7),
  (0b1001110_00111_10101_100_00011_0010011, .xori 3 21 0x9c7),
  (0b1001110_00111_10101_110_00011_0010011, .ori 3 21 0x9c7),
  (0b1001110_00111_10101_111_00011_0010011, .andi 3 21 0x9c7),
  (0b0000000_10001_10101_001_00011_0010011, .slli 3 21 17),
  (0b0000000_10001_10101_101_00011_0010011, .srli 3 21 17),
  (0b0100000_10001_10101_101_00011_0010011, .srai 3 21 17),
  (0b0000000_01110_10101_000_00011_0110011, .add 3 21 14),
  (0b0100000_01110_10101_000_00011_0110011, .sub 3 21 14),
  (0b0000000_01110_10101_001_00011_0110011, .sll 3 21 14),
  (0b0000000_01110_10101_010_00011_0110011, .slt 3 21 14),
  (0b0000000_01110_10101_011_00011_0110011, .sltu 3 21 14),
  (0b0000000_01110_10101_100_00011_0110011, .xor 3 21 14),
  (0b0000000_01110_10101_101_00011_0110011, .srl 3 21 14),
  (0b0100000_01110_10101_101_00011_0110011, .sra 3 21 14),
  (0b0000000_01110_10101_110_00011_0110011, .or 3 21 14),
  (0b0000000_01110_10101_111_00011_0110011, .and 3 21 14),
  (0b0000001_01110_10101_000_00011_0110011, .mul 3 21 14),
  (0b0000001_01110_10101_001_00011_0110011, .mulh 3 21 14),
  (0b0000001_01110_10101_010_00011_0110011, .mulhsu 3 21 14)]

def baseWords2 : List (Word × Instr) := [
  (0b0000001_01110_10101_011_00011_0110011, .mulhu 3 21 14),
  (0b0000001_01110_10101_100_00011_0110011, .div 3 21 14),
  (0b0000001_01110_10101_101_00011_0110011, .divu 3 21 14),
  (0b0000001_01110_10101_110_00011_0110011, .rem 3 21 14),
  (0b0000001_01110_10101_111_00011_0110011, .remu 3 21 14),
  (0b1001110_00111_10101_000_00011_0001111, .fence 0x9c7 21 3),
  (0b1001110_00111_10101_001_00011_0001111, .fenceI 0x9c7 21 3),
  (0b0000000_00000_00000_000_00000_1110011, .ecall),
  (0b0000000_00001_00000_000_00000_1110011, .ebreak),
  (0b1000001_10101_10101_001_00011_1110011, .csrrw 3 0x835 21),
  (0b1000001_10101_10101_010_00011_1110011, .csrrs 3 0x835 21),
  (0b1000001_10101_10101_011_00011_1110011, .csrrc 3 0x835 21),
  (0b1000001_10101_11001_101_00011_1110011, .csrrwi 3 0x835 25),
  (0b1000001_10101_11001_110_00011_1110011, .csrrsi 3 0x835 25),
  (0b1000001_10101_11001_111_00011_1110011, .csrrci 3 0x835 25)]

/-- The words of R55 to R57 decode to their instructions. -/
theorem test_base_words_decode : ∀ p ∈ baseWords1 ++ baseWords2, decodeStrand p.1 = some p.2 := by decide +kernel

def controlWords1 : List (Word × Instr) := [
  (0b0100101_00001_10101_000_00000_0001011, .lpBegin 21 0x4a1),
  (0b1100101_00001_10101_000_00000_0001011, .lpBeginRot 21 0x4a1),
  (0b0100101_00001_10001_001_00110_0001011, .lpBegini 0x226 0x4a1),
  (0b1100101_00001_10001_001_00110_0001011, .lpBeginiRot 0x226 0x4a1),
  (0b0000000_00000_00000_010_00000_0001011, .lpExit),
  (0b0000001_00000_00000_010_00000_0001011, .lpPop),
  (0b0000010_00100_00000_010_00011_0001011, .lpIdx 3 4),
  (0b0000011_01001_00000_010_00000_0001011, .trap 9),
  (0b0000100_00000_00000_010_00000_0001011, .tret),
  (0b0000101_00000_00000_010_00000_0001011, .sdone),
  (0b0000110_00000_10101_010_00000_0001011, .feWait 21),
  (0b0000111_00000_10101_010_00011_0001011, .feChk 3 21),
  (0b0001000_00000_00000_010_00000_0001011, .yield),
  (0b0001001_00000_00000_010_00000_0001011, .depWait),
  (0b0001010_00000_00000_010_00000_0001011, .depTrig),
  (0b0000000_00000_10101_011_00000_0001011, .tcLd 21),
  (0b0000001_00000_10101_011_00110_0001011, .tcSet 6 21),
  (0b0000010_00000_00000_011_00011_0001011, .tcPush 3),
  (0b0000011_01110_10101_011_01101_0001011, .vcsLd 13 21 14),
  (0b0000100_01110_10101_011_00000_0001011, .tcForce 21 14),
  (0b0000101_00000_00000_011_00000_0001011, .tcDrain),
  (0b0000110_00101_10101_100_00000_0001011, .semWait 0xc5 21),
  (0b0001110_00101_10101_100_00000_0001011, .semSig 0xc5 21),
  (0b0010110_00101_10101_100_00011_0001011, .semTry 3 0xc5 21),
  (0b0011110_00101_00000_100_00011_0001011, .semRd 3 0xc5),
  (0b0100110_00101_10101_100_00000_0001011, .semSet 0xc5 21),
  (0b0101110_00101_10101_100_00000_0001011, .wrAdv 0xc5 21),
  (0b0000000_00000_10101_101_00000_0001011, .grpJoin 21),
  (0b0000010_00000_10101_101_00000_0001011, .grpLeave 21),
  (0b0000100_00000_10101_101_00011_0001011, .grpSize 3 21),
  (0b0000110_00000_10101_101_00011_0001011, .grpRank 3 21),
  (0b0001001_01011_10101_101_00000_0001011, .barInit 0x2b 21),
  (0b0001011_01011_10101_101_00000_0001011, .barArrive 0x2b 21),
  (0b0001101_01011_00000_101_00011_0001011, .barWait 3 0x2b),
  (0b0001111_01011_10101_101_00011_0001011, .barSync 3 0x2b 21),
  (0b0000000_01110_10101_110_00000_0001011, .rngInit 21 14),
  (0b0000001_00000_00000_110_00011_0001011, .rngNext 3),
  (0b0000010_01011_10101_110_00000_0001011, .ppPush 11 21),
  (0b0000011_01011_00000_110_00011_0001011, .ppPop 3 11),
  (0b0000100_01011_00000_110_00011_0001011, .ppPeek 3 11)]

def controlWords2 : List (Word × Instr) := [
  (0b0000000_01011_10101_111_00000_0001011, .grBegin 11 21),
  (0b0001000_01011_00000_111_00000_0001011, .grEnd 11),
  (0b0010000_00000_10101_111_00000_0001011, .grCfg 21),
  (0b0011000_00000_10101_111_00000_0001011, .grInval 21)]

/-- The words of custom-0 (R58, R59) decode to their instructions. -/
theorem test_control_words_decode : ∀ p ∈ controlWords1 ++ controlWords2, decodeStrand p.1 = some p.2 := by decide +kernel

def vectorWords1 : List (Word × Instr) := [
  (0b0000101_01110_10101_000_00011_0101011, .vaddF 3 21 14 5),
  (0b0000101_01110_10101_001_00011_0101011, .vsubF 3 21 14 5),
  (0b0000101_01110_10101_010_00011_0101011, .vmulF 3 21 14 5),
  (0b0000101_01110_10101_011_00011_0101011, .vfmaF 3 21 14 5),
  (0b0000101_01110_10101_100_00011_0101011, .vminF 3 21 14 5),
  (0b0000101_01110_10101_101_00011_0101011, .vmaxF 3 21 14 5),
  (0b0000101_00000_10101_110_00011_0101011, .vabsF 3 21 5),
  (0b0000101_00000_10101_111_00011_0101011, .vnegF 3 21 5),
  (0b0001101_00000_10101_000_00011_0101011, .vrcp 3 21 5),
  (0b0001101_00000_10101_001_00011_0101011, .vsqrt 3 21 5),
  (0b0001101_00000_10101_010_00011_0101011, .vrsqrt 3 21 5),
  (0b0001101_00000_10101_011_00011_0101011, .vexp2 3 21 5),
  (0b0001101_00000_10101_100_00011_0101011, .vlog2 3 21 5),
  (0b0010101_01110_10101_000_00011_0101011, .vaddI 3 21 14 5),
  (0b0010101_01110_10101_001_00011_0101011, .vsubI 3 21 14 5),
  (0b0010101_01110_10101_010_00011_0101011, .vmulI 3 21 14 5),
  (0b0010101_01110_10101_011_00011_0101011, .vmulhI 3 21 14 5),
  (0b0010101_01110_10101_100_00011_0101011, .vminI 3 21 14 5),
  (0b0010101_01110_10101_101_00011_0101011, .vmaxI 3 21 14 5),
  (0b0011101_01110_10101_000_00011_0101011, .vand 3 21 14 5),
  (0b0011101_01110_10101_001_00011_0101011, .vor 3 21 14 5),
  (0b0011101_01110_10101_010_00011_0101011, .vxor 3 21 14 5),
  (0b0011101_01110_10101_011_00011_0101011, .vshl 3 21 14 5),
  (0b0011101_01110_10101_100_00011_0101011, .vshr 3 21 14 5),
  (0b0011101_01110_10101_101_00011_0101011, .vsra 3 21 14 5),
  (0b0100101_01110_10101_000_00011_0101011, .vcmpFEq 3 21 14 5),
  (0b0100101_01110_10101_001_00011_0101011, .vcmpFNe 3 21 14 5),
  (0b0100101_01110_10101_010_00011_0101011, .vcmpFLt 3 21 14 5),
  (0b0100101_01110_10101_011_00011_0101011, .vcmpFLe 3 21 14 5),
  (0b0101101_01110_10101_000_00011_0101011, .vcmpIEq 3 21 14 5),
  (0b0101101_01110_10101_001_00011_0101011, .vcmpINe 3 21 14 5),
  (0b0101101_01110_10101_010_00011_0101011, .vcmpILt 3 21 14 5),
  (0b0101101_01110_10101_011_00011_0101011, .vcmpILe 3 21 14 5),
  (0b0101101_01110_10101_100_00011_0101011, .vcmpILtu 3 21 14 5),
  (0b0101101_01110_10101_101_00011_0101011, .vcmpILeu 3 21 14 5),
  (0b0110101_01110_10101_000_00011_0101011, .vsel 3 21 14 5),
  (0b0110101_00000_10101_001_00011_0101011, .vmv 3 21 5),
  (0b0110101_00000_10101_010_00011_0101011, .vbcast 3 21 5),
  (0b0111000_00101_00110_000_00011_0101011, .vpand 3 6 5),
  (0b0111000_00101_00110_001_00011_0101011, .vpor 3 6 5)]

def vectorWords2 : List (Word × Instr) := [
  (0b0111000_00000_00110_010_00011_0101011, .vpnot 3 6),
  (0b0111000_00000_00110_011_10011_0101011, .vpcnt 19 6),
  (0b0000101_00000_10101_000_00011_1011011, .vld 3 21 5),
  (0b0000101_00000_10101_001_00011_1011011, .vst 3 21 5),
  (0b0000101_01110_10101_010_00011_1011011, .vlds 3 21 14 5),
  (0b0000101_01110_10101_011_00011_1011011, .vsts 3 21 14 5),
  (0b0000101_01110_10101_100_00011_1011011, .vldx 3 21 14 5),
  (0b0001101_01110_10101_000_00011_1011011, .vperm 3 21 14 5),
  (0b0001101_01110_10101_001_00011_1011011, .vslide 3 21 14 5),
  (0b0001101_00000_10101_010_00011_1011011, .vscan 3 21 5),
  (0b0010101_11100_10101_000_00011_1011011, .vcvt 3 21 12 true 5),
  (0b0011101_00000_10101_000_00011_1011011, .vredSum 3 21 5),
  (0b0011101_00000_10101_001_00011_1011011, .vredMax 3 21 5),
  (0b0011101_00000_10101_010_00011_1011011, .vredMin 3 21 5),
  (0b0011101_00000_10101_011_00011_1011011, .vredAnd 3 21 5),
  (0b0011101_00000_10101_100_00011_1011011, .vredOr 3 21 5),
  (0b0100101_01110_10101_000_00011_1011011, .vnz 3 21 14 5),
  (0b0100101_00000_10101_001_00011_1011011, .vcst 3 21 5),
  (0b0100101_00000_10101_010_00011_1011011, .vhist 3 21 5),
  (0b0100101_00000_10101_011_00011_1011011, .vhmerge 3 21 5)]

/-- The words of custom-1 and custom-2 (R60 to R63) decode to their instructions. -/
theorem test_vector_words_decode : ∀ p ∈ vectorWords1 ++ vectorWords2, decodeStrand p.1 = some p.2 := by decide +kernel

def walkerWords1 : List (Word × Instr) := [
  (0b00000000000000_0000_0000_0000_000000, .wkNop),
  (0b11111111110011_0000_0110_0011_000001, .wkLd 3 6 0x3ff3),
  (0b00000000000010_1001_0110_0011_000010, .wkLdx 3 6 9 2),
  (0b00000000000000_0000_0110_0011_000011, .wkMov 3 6),
  (0b00000000000000_1001_0110_0011_000100, .wkAdd 3 6 9),
  (0b11111111110011_0000_0110_0011_000101, .wkAddi 3 6 0x3ff3),
  (0b00000000000011_1001_0110_0011_000110, .wkCmp 3 6 9 3),
  (0b11111111110011_0000_0110_0000_000111, .wkBr 6 0x3ff3),
  (0b11111111110011_0000_0110_0000_001000, .wkLoop 6 0x3ff3),
  (0b00000000000000_1001_0110_0000_001001, .wkEmit 6 9),
  (0b00000000000000_0000_0000_0000_001010, .wkZero),
  (0b00000000000000_0000_0000_0000_001011, .wkFlush),
  (0b00000000000000_0000_0110_0000_001100, .wkSkip 6),
  (0b00000000000000_0000_0000_0000_001101, .wkEnd)]

/-- The walker words of R217 decode to their instructions. -/
theorem test_walker_words_decode : ∀ p ∈ walkerWords1, decodeWalker p.1 = some p.2 := by decide +kernel

/-! Move words (R69, R70): imm, flags, src2, src1, dst and op, from the left. -/

def dataFieldsOf : DataWord := { dst := 10, src1 := 11, src2 := 12, rc := true, after := true, blk := 0xABCE0 }

def moveWords : List (DWord × Instr) := [
  (0x0000000000_0_0_0_0_00, .mvNop),
  (0xFFFFFFFFF1_0_0_0_3_01, .mvLi 3 0xFFFFFFFFF1),
  (0x0000000000_0_5_4_3_02, .mvAdd 3 4 5),
  (0xFFFFFFFFF8_0_0_2_3_03, .mvAddi 3 2 0xFFFFFFFFF8),
  (0x0000000000_0_5_4_3_04, .mvSub 3 4 5),
  (0x0000000000_0_5_4_3_05, .mvAnd 3 4 5),
  (0x0000000000_0_5_4_3_06, .mvShl 3 4 5),
  (0x0000000000_0_5_4_3_07, .mvMul 3 4 5),
  (0x8000000001_5_7_6_0_08, .mvBr 5 6 7 0x8000000001),
  (0x8000000001_0_0_0_9_09, .mvJal 9 0x8000000001),
  (0x0000000000_1_0_8_9_09, .mvJalReg 9 8),
  (0x0000000000_0_0_8_5_0A, .mvNest 5 8),
  (0xFFFFFFFFFE_0_0_0_4_0B, .mvLp 4 0xFFFFFFFFFE),
  (0x00000ABCE0_3_C_B_A_10, .mvCopy dataFieldsOf),
  (0x00000ABCE0_3_C_B_A_11, .mvGath dataFieldsOf),
  (0x00000ABCE0_3_C_B_A_12, .mvScat dataFieldsOf),
  (0x00000ABCE0_3_C_B_A_13, .mvTpose dataFieldsOf),
  (0x00000ABCE0_3_C_B_A_14, .mvCvt dataFieldsOf),
  (0x00000ABCE0_3_C_B_A_15, .mvRed dataFieldsOf),
  (0x00000ABCE0_3_C_B_A_16, .mvMcast dataFieldsOf),
  (0x0000000059_0_C_B_A_17, .mvAtom 10 11 12 9 1 true),
  (0x00000ABCE0_3_C_B_A_18, .mvWin dataFieldsOf),
  (0x00000ABCE0_3_C_B_A_19, .mvZip dataFieldsOf),
  (0x00000ABCE0_3_C_B_A_1A, .mvUnzip dataFieldsOf),
  (0x0000000000_0_0_0_A_1B, .mvCsum 10),
  (0x0000000000_1_0_0_A_1B, .mvCsumSrc 10),
  (0x000003A5C7_0_0_B_0_20, .mvSig 11 0xC7 0xA5 3),
  (0x0000000000_0_C_B_0_21, .mvTw 11 12),
  (0x00000000C7_1_C_B_0_21, .mvTwSem 0xC7 11 12),
  (0x0000000000_0_0_0_0_22, .mvFence),
  (0x0000000000_1_0_0_A_22, .mvFenceRd 10),
  (0x000001BEEF_0_C_B_A_23, .mvNvm 10 11 12 0xBEEF true),
  (0x0000000000_0_0_0_0_3E, .mvRet),
  (0x9876543210_0_0_0_0_3F, .mvTrap 0x9876543210)]

/-- The move words of R70 and R228 to R246 decode to their instructions. -/
theorem test_move_words_decode : ∀ p ∈ moveWords, decodeMove p.1 = some p.2 := by decide +kernel

/-! Tile command words (R65 to R67): field D, field B, field A and the control part, from the left. The control part is
chain, signal amount, wait amount, scope 3 with both enables, and the two semaphores, engine and command. -/

def hdrOf : TileHdr :=
  { waitSem := 0xA5, waitEn := true, sigSem := 0x5C, sigEn := true, scope := 3, waitAmt := 0x17, sigAmt := 0x29
    chain := 0x8004 }

/-- chain 0x8004, signal amount 0x29, wait amount 0x17; scope 3, enable, sm92, enable, sm165, bit 11 and the engine. -/
def ctlOf (engine : BitVec 3) (code : BitVec 8) : DWord :=
  0x8004_29_17#32 ++ (0b11_1_01011100_1_10100101_0#21 ++ (engine ++ code))

/-- mask, tr, columns - 1 = 0x123, rows - 1 = 0x0FE, format 11, map 6, peer 5 with its flag, address 0x7FFFF0. -/
def fieldA : DWord := 0b0110_000100100011_000011111110_1011_0110_1_101#40 ++ 0x7FFFF0#24

def descA : Desc :=
  { addr := 0x7FFFF0, peer := 5, peerF := true, map := 6, fmt := 11, rows := 0x0FE, cols := 0x123, acc := false, tr := true
    mask := true }

/-- acc, columns - 1 = 0x0FF, rows - 1 = 0x001, format 1, map 0, no peer, offset 0x7FFF0. -/
def fieldD : DWord := 0b0001_000011111111_000000000001_0001_0000_0_000#40 ++ 0x07FFF0#24

def descD : Desc :=
  { addr := 0x7FFF0, peer := 0, peerF := false, map := 0, fmt := 1, rows := 1, cols := 0xFF, acc := true, tr := false
    mask := false }

def par64 : DWord := 0x123456789ABCDEF0

def tileWords : List (TileWord × Instr) := [
  (fieldD ++ (par64 ++ (fieldA ++ ctlOf 0 0x01)), .mm hdrOf descA par64 descD),
  (fieldD ++ (par64 ++ (fieldA ++ ctlOf 0 0x02)), .mmTri hdrOf descA par64 descD),
  (par64 ++ (fieldD ++ (fieldA ++ ctlOf 0 0x03)), .wload hdrOf descA descD par64),
  (par64 ++ (fieldD ++ (fieldA ++ ctlOf 0 0x04)), .wloadAns hdrOf descA descD par64),
  (fieldD ++ (0#64 ++ (fieldA ++ ctlOf 1 0x10)), .tstore hdrOf descA descD),
  (fieldD ++ (par64 ++ (fieldA ++ ctlOf 1 0x11)), .tconv hdrOf descA par64 descD),
  (fieldD ++ (0#64 ++ (fieldA ++ ctlOf 1 0x12)), .tcopy hdrOf descA descD),
  (fieldD ++ (par64 ++ (0#64 ++ ctlOf 1 0x13)), .tfill hdrOf par64 descD),
  (fieldD ++ (0#64 ++ (0#64 ++ ctlOf 1 0x14)), .tclr hdrOf descD),
  (fieldD ++ (par64 ++ (fieldA ++ ctlOf 1 0x15)), .vtCall hdrOf descA par64 descD),
  (fieldD ++ (par64 ++ (fieldA ++ ctlOf 2 0x20)), .twalk hdrOf descA par64 descD),
  (1#64 ++ (par64 ++ (2#64 ++ ctlOf 3 0x30)), .xfer hdrOf 2 par64 1)]

/-- The tile command words of R66 decode to their instructions. -/
theorem test_tile_words_decode : ∀ p ∈ tileWords, decodeTile p.1 = some p.2 := by decide +kernel

/-- Strand words that R55 to R63 call illegal: the low bits, an empty cell, a reserved funct3, funct7 or field, an unnamed CSR,
a loop of no words, a fifth loop level, an unused field, a reserved sub-opcode, p0 as a destination, a format that `vcvt` lacks. -/
theorem test_illegal_strand_words :
    ([0x00000001, 0x00000007, 0x0000007B, 0x00003003, 0x80000033, 0x00200073, 0x80C01073, 0x0000000B, 0x0000100B, 0x0061200B,
      0x0200208B, 0x1600200B, 0x0A00308B, 0x6000400B, 0x0A00600B, 0x4000700B, 0x4000002B, 0x7000002B, 0x2060005B,
      0x20F0005B].map (fun w => (decodeStrand w).isNone)) = List.replicate 20 true := by decide +kernel

/-- Tile words that R68 calls illegal: bit 11, the engine, the code, a field that must be zero, a descriptor's bit 63, format
15, a low address bit, an address out of range. -/
theorem test_illegal_tile_words :
    (([fieldD ++ (0#64 ++ (fieldA ++ (ctlOf 1 0x12 ||| 0x800))), fieldD ++ (0#64 ++ (fieldA ++ ctlOf 0 0x12)),
      fieldD ++ (0#64 ++ (fieldA ++ ctlOf 4 0x40)), fieldD ++ (1#64 ++ (fieldA ++ ctlOf 1 0x12))] ++
      [fieldA ||| 0x8000000000000000, fieldA ||| 0xF00000000, fieldA ||| 8, fieldA ||| 0x800000, fieldD ||| 0x80000].map
        (fun a => fieldD ++ (0#64 ++ (a ++ ctlOf 1 0x12)))).map (fun w => (decodeTile w).isNone)) =
      List.replicate 9 true := by decide +kernel

/-- Move words that R70 and R228 to R246 call illegal: an opcode, the condition of `mv.br`, the level of `mv.nest`, an unused
register, flags, immediate and src2 of a data word, flags of `mv.tw`, high bits of `mv.atom` and `mv.nvm`. -/
theorem test_illegal_move_words :
    ([0x0000000000_0_0_0_0_0C, 0x0000000000_6_0_0_0_08, 0x0000000000_0_0_0_6_0A, 0x0000000000_0_1_0_0_03,
      0x0000000000_4_0_0_0_10, 0x0000100000_0_0_0_0_10, 0x0000000000_0_1_0_0_10, 0x0000000000_2_0_0_0_21,
      0x0000000080_0_0_0_0_17, 0x0000020000_0_0_0_0_23].map (fun w => (decodeMove w).isNone)) = List.replicate 10 true := by
  decide +kernel

/-- Walker words that R72 and R217 call illegal: an opcode, an unused field, sz = 3, imm[13:2] of `wk.cmp`. -/
theorem test_illegal_walker_words :
    ([0x0000000E, 0x00000040, 0x000C0002, 0x00100006].map (fun w => (decodeWalker w).isNone)) = List.replicate 4 true := by
  decide +kernel

/-! ## One ill-formed term for each check -/

/-- R56 to R72: what breaks a limit on a field is not well formed. -/
theorem test_ill_formed :
    (Instr.csrrw 1 0x80C 2).wf = false ∧ (Instr.csrrs 1 0x816 2).wf = false ∧ (Instr.csrrc 1 0x822 2).wf = false ∧
    (Instr.csrrwi 1 0x836 2).wf = false ∧ (Instr.csrrsi 1 0x7FF 2).wf = false ∧ (Instr.csrrci 1 0xC00 2).wf = false ∧
    (Instr.lpBegin 1 0).wf = false ∧ (Instr.lpBeginRot 1 0).wf = false ∧ (Instr.lpBegini 1 0).wf = false ∧
    (Instr.lpBeginiRot 1 0).wf = false ∧ (Instr.lpIdx 1 6).wf = false ∧ (Instr.ppPush 16 1).wf = false ∧
    (Instr.ppPop 1 16).wf = false ∧ (Instr.ppPeek 1 31).wf = false ∧ (Instr.vcmpFEq 0 1 2 3).wf = false ∧
    (Instr.vcmpILeu 0 1 2 3).wf = false ∧ (Instr.vpand 0 1 2).wf = false ∧ (Instr.vpor 0 1 2).wf = false ∧
    (Instr.vpnot 0 1).wf = false ∧ (Instr.vcvt 1 2 6 false 0).wf = false ∧ (Instr.vcvt 1 2 15 false 0).wf = false ∧
    (Instr.wkLdx 1 2 3 3).wf = false ∧ (Instr.mvBr 6 1 2 0).wf = false ∧ (Instr.mvNest 6 1).wf = false ∧
    (Instr.mvLp 15 0).wf = false ∧ (Instr.mvCopy { dataFieldsOf with rc := false }).wf = false := by decide +kernel

/-- R68: the checks on a descriptor, and the words that carry a bad one. -/
theorem test_ill_formed_descriptors :
    { descA with fmt := 15 }.wf = false ∧ { descA with addr := 8 }.wf = false ∧ { descA with addr := 0x800000 }.wf = false ∧
    { descD with addr := 0x80000 }.wf = false ∧ descA.wf = true ∧ descD.wf = true ∧
    (Instr.mm hdrOf { descA with fmt := 15 } 0 descD).wf = false ∧ (Instr.wload hdrOf descA { descD with addr := 4 } 0).wf = false ∧
    (Instr.tfill hdrOf 0 { descD with addr := 0x80000 }).wf = false ∧ (Instr.tclr hdrOf { descA with fmt := 15 }).wf = false := by
  decide +kernel

/-! ## States and operands that meet the hypotheses of the statements

A witness shows hypotheses, one for each clause; its conclusion is the statement's. -/

/-- A READY device on which one strand of one kernel may issue: kernel 1, team 0 on core 0, the whole scratchpad as region 0. -/
def base : State := { ({ State.reset with dev := .ready } : State).withStrand with cur := .strand 0 0 }

def onStrand (f : Strand → Strand) (s : State := base) : State := s.updStrand (strandKey 1 0) f
def onTeam (f : Team → Team) (s : State := base) : State := s.updTeam (teamKey 1 0) f
def onKernel (f : Kernel → Kernel) (s : State := base) : State := s.updKernel 1 f
def onCore (f : Core → Core) (s : State := base) : State := s.updCore 0 f
def withX (r : XReg) (v : Word) (s : State := base) : State := onStrand (fun st => st.setX r v) s

/-- The instruction answers a next state. -/
def completes (i : Instr) (s : State) : Bool :=
  match exec i s with
  | .next _ => true
  | _ => false

theorem next_of {i : Instr} {s : State} (h : completes i s = true) : ∃ t, exec i s = .next t := by
  unfold completes at h
  cases he : exec i s with
  | next t => exact ⟨t, rfl⟩
  | fault _ => simp [he] at h
  | refused _ => simp [he] at h

theorem env_with {s : State} {p : Env → Prop} [DecidablePred p]
    (h : (match s.env with
      | some e => decide (p e)
      | none => false) = true) : ∃ e, s.env = some e ∧ p e := by
  cases he : s.env with
  | none => simp [he] at h
  | some e => rw [he] at h; exact ⟨e, rfl, of_decide_eq_true h⟩

theorem ready_with {s : State} {srcs dsts : List XReg} {p : Env → Prop} [DecidablePred p]
    (h : (match s.env with
      | some e => decide ((∀ r ∈ srcs ++ dsts, e.st.isEmpty r = false) ∧ p e)
      | none => false) = true) : ∃ e, Ready s e srcs dsts ∧ p e := by
  cases he : s.env with
  | none => simp [he] at h
  | some e => rw [he] at h; exact ⟨e, ⟨he, (of_decide_eq_true h).1⟩, (of_decide_eq_true h).2⟩

/-- A level of one word at the strand's pc, run `count` times and now in its iteration `index`. -/
def level (index count : BitVec 16) (rot : Bool) : LoopLevel :=
  { start := 0x800000, stop := 0x800000, count := count, index := index, rot := rot }

/-! ### Base instructions, loops and traps (01, 02 of the statements) -/

theorem witness_ImmediateWordsWriteTheirValue :
    (∃ e, Ready base e [] [3] ∧ e.st.pc = 0x800000) ∧ ∃ e, Ready (withX 1 0x80000000) e [1] [0] ∧ e.st.getX 1 = 0x80000000 :=
  ⟨ready_with (by decide +kernel), ready_with (by decide +kernel)⟩

theorem witness_RegisterWordsComputeTheirValue :
    (∃ e, Ready (withX 1 7) e [1, 2] [3] ∧ e.st.getX 2 = 0) ∧
    (∃ e, Ready (withX 1 0x80000000 (withX 2 0xFFFFFFFF)) e [1, 2] [3] ∧ e.st.getX 1 = 0x80000000 ∧ e.st.getX 2 = 0xFFFFFFFF) ∧
    ∃ e, Ready (withX 1 0xFFFFFFF9 (withX 2 2)) e [1, 2] [3] ∧ e.st.getX 2 ≠ 0 ∧
      ¬(e.st.getX 1 = 0x80000000 ∧ e.st.getX 2 = 0xFFFFFFFF) :=
  ⟨ready_with (by decide +kernel), ready_with (by decide +kernel), ready_with (by decide +kernel)⟩

/-- A strand whose x5 waits for a result. -/
def pending : State := onStrand (fun st => st.later 5 9)

theorem witness_EmptyRegistersStallTrapAndFill :
    (∃ st, base.strands.get? (strandKey 1 0) = some st ∧ st.st ≠ .ended ∧ (5 : XReg) ≠ 0 ∧ st.isEmpty 5 = false) ∧
    (∃ e, pending.env = some e ∧ e.st.isEmpty 5 = true ∧ e.st.isEmpty 1 = false ∧ e.st.femode = false ∧ e.st.pend ≠ []) ∧
    (∃ e, (onStrand (fun st => { st with femode := true }) pending).env = some e ∧ e.st.isEmpty 5 = true ∧
      e.st.femode = true) ∧
    ∃ e, base.env = some e ∧ e.st.pend = [] :=
  ⟨⟨_, rfl, by decide +kernel⟩, env_with (by decide +kernel), env_with (by decide +kernel), env_with (by decide +kernel)⟩

theorem witness_JumpsAndBranchesPassControl :
    (∃ e, Ready base e [] [1] ∧ (e.st.pc + ((3 : BitVec 20) ++ (0 : BitVec 1)).signExtend 32).toNat % 4 ≠ 0) ∧
    (∃ e, Ready (withX 2 0x800100) e [2] [1] ∧ ((e.st.getX 2 + (4 : Word)) &&& 0xFFFFFFFE).toNat % 4 = 0) ∧
    ∃ e, Ready (withX 1 0xFFFFFFFF (withX 2 1)) e [1, 2] [] ∧ (e.st.getX 1).toInt < (e.st.getX 2).toInt ∧
      (e.st.getX 2).toNat < (e.st.getX 1).toNat :=
  ⟨ready_with (by decide +kernel), ready_with (by decide +kernel), ready_with (by decide +kernel)⟩

theorem witness_RegisterWordFrame :
    registerWord (.div 3 1 2) = some ([1, 2], 3) ∧ (∃ e, Ready base e [1, 2] [3] ∧ e.st.atEnd e.st.pc = false) ∧
    (∃ t, exec (.div 3 1 2) base = .next t) :=
  ⟨rfl, ready_with (by decide +kernel), next_of (by decide +kernel)⟩

theorem witness_CsrWordsFollowTheirRules :
    (∃ e, Ready base e [1] [3] ∧ e.st.hflag = false) ∧
    (∃ e, (onStrand (fun st => { st with loops := [level 2 5 false] })).env = some e ∧ e.st.hflag = false ∧
      e.st.loops.reverse[0]? = some (level 2 5 false) ∧ e.st.loops.length ≤ 5) ∧
    ∃ e, (onStrand (fun st => { st with hflag := true, saved := [level 2 5 false] })).env = some e ∧ e.st.hflag = true ∧
      e.st.saved.reverse[0]? = some (level 2 5 false) ∧ e.st.saved.length ≤ 5 :=
  ⟨ready_with (by decide +kernel), env_with (by decide +kernel), env_with (by decide +kernel)⟩

/-- Strands in the first, the last and no iteration of a level that ends at their pc. -/
def looping (ls : List LoopLevel) : State := onStrand (fun st => { st with loops := ls })

theorem witness_LoopsFollowTheirLevels :
    (∃ e, (looping []).env = some e ∧ e.st.loops = []) ∧
    (∃ e, (looping [{ level 0 2 true with stop := 0x800004 }]).env = some e ∧
      e.st.loops = [{ level 0 2 true with stop := 0x800004 }] ∧ (0x800004 : Word) ≠ e.st.pc) ∧
    (∃ e, (looping [level 0 2 true]).env = some e ∧ e.st.loops = [level 0 2 true] ∧ (level 0 2 true).stop = e.st.pc ∧
      (level 0 2 true).index.toNat + 1 < (level 0 2 true).count.toNat) ∧
    (∃ e, (looping [level 1 2 false]).env = some e ∧ e.st.loops = [level 1 2 false] ∧
      (level 1 2 false).count.toNat ≤ (level 1 2 false).index.toNat + 1) ∧
    -- the four begin words: no iterations, with an end inside and outside the scratchpad, too many, no level, outside, pushed
    (∃ e, Ready base e [1] [] ∧ (e.st.getX 1).toNat = 0 ∧ 0x800000 ≤ (e.st.pc + 4 * 1 + 4).toNat) ∧
    (∃ e, Ready (onStrand (fun st => { st with pc := 0x83FFFC })) e [1] [] ∧ (e.st.getX 1).toNat = 0 ∧
      ¬(e.st.pc + 4 * (1 : Word) + 4).toNat < 0x840000) ∧
    (∃ e, Ready (withX 1 0x10000) e [1] [] ∧ 65535 < (e.st.getX 1).toNat) ∧
    (∃ e, Ready (withX 1 0xFFFF (looping (List.replicate 6 (level 0 2 false)))) e [1] [] ∧ (e.st.getX 1).toNat = 65535 ∧
      e.st.loops.length = 6) ∧
    (∃ e, (looping [level 0 2 false]).env = some e ∧ e.st.loops = [level 0 2 false] ∧
      (level 0 2 false).stop.toNat < (e.st.pc + 4 * (1 : Word)).toNat) ∧
    (∃ e, base.env = some e ∧ e.st.loops.length ≠ 6 ∧ (1 : BitVec 10).toNat = 1) ∧
    -- lp.idx of the one level and of none
    (∃ e, Ready (looping [level 1 2 false]) e [] [3] ∧ e.st.loops[(0 : BitVec 5).toNat]? = some (level 1 2 false) ∧
      e.st.loops.length ≤ (1 : BitVec 5).toNat) := by
  and_intros <;> first | exact ready_with (by decide +kernel) | exact env_with (by decide +kernel)

/-- A strand with a handler, in it (with the given `kdone`) or not. -/
def handler (inside done : Bool) : State :=
  onStrand (fun st => { st with ktvec := 0x800100, kepc := 0x800000, kdone := done, hflag := inside }) pending

theorem witness_TrapsEnterTheHandlerAndReturn :
    (∃ e, base.env = some e ∧ e.st.hflag = false) ∧
    (∃ e, (handler false false).env = some e ∧ e.st.hflag = false ∧ 4 ≤ 4 ∧ e.st.ktvec ≠ 0 ∧
      e.st.pend.filter (fun p => p.1 == 5) = [(5, 9)] ∧ e.st.isEmpty 1 = false) ∧
    (∃ e, base.env = some e ∧ e.tm.num < 512 ∧ e.kn.st.live = true ∧ e.kn.fl.fk = 0 ∧ e.st.hflag = false ∧ e.st.ktvec = 0) ∧
    (∃ e, (handler true true).env = some e ∧ e.tm.num < 512 ∧ e.kn.st.live = true ∧ e.kn.fl.fk = 0 ∧ e.st.hflag = true ∧
      e.st.kdone = true) ∧
    ∃ e, (handler true false).env = some e ∧ e.st.hflag = true ∧ e.st.kdone = false := by
  and_intros <;> exact env_with (by decide +kernel)
/-! ### Loads and stores, semaphores, groups and barriers (03, 04) -/

/-- A region of 0x100 bytes at 0 in place of the whole scratchpad. -/
def small (n : Nat) (s : State := base) : State :=
  onTeam (fun t => { t with regions := t.regions.set 0 (Region.launch 0 n 1) }) s

/-- A second team of the kernel, on core 1, with a region of `n` bytes. -/
def duo (n : Nat) : State :=
  let s := onKernel (fun k => { k with desc := { k.desc with nsm := 4 }, cores := [0, 1] })
  { s with
    teams := s.teams.set (teamKey 1 1) { Team.start 1 1 [(0, n, 1)] with place := .active 1, started := true }
    strands := s.strands.set (strandKey 1 4) (Strand.start 1 4 0x800000 0)
    cores := s.cores.set 1 { Core.init with active := some (teamKey 1 1) } }

/-- The word of a `tclr` of 1 x 16 BF16 elements at `a`. -/
def clrWord (a : BitVec 24) : TileWord := (0x000F0001_00#40 ++ a) ++ (0#64 ++ (0#64 ++ 0x114#64))

/-- A dispatched `tclr` of the 32 bytes at 0x1000 in front of the strand's next word. -/
def dispatched : State := { base.withTileWord (clrWord 0x1000).toNat with cur := .strand 0 0, agenda := [] }

/-- The same with its sub-tile still open. -/
def opened : State := onCore (fun k => { k with stook := k.stook.map (fun h => { h with subs := [.opn] }) }) dispatched

/-- R137: both ends of every range. -/
theorem test_local_map :
    localTo 9 0 = .dsp 0 ∧ localTo 9 0x7FFFFF = .dsp 0x7FFFFF ∧ localTo 9 0x800000 = .isp 0 ∧
    localTo 9 0x83FFFF = .isp 0x3FFFF ∧ localTo 9 0x840000 = .unmapped ∧ localTo 9 0x8FFFFF = .unmapped ∧
    localTo 9 0x900000 = .sem 0 false ∧ localTo 9 0x9007FF = .sem 255 true ∧ localTo 9 0x900800 = .unmapped ∧
    localTo 9 0x90FFFF = .unmapped ∧ localTo 9 0x910000 = .reg 0 ∧ localTo 9 0x910FFF = .reg 0xFFF ∧
    localTo 9 0x911000 = .unmapped ∧ localTo 9 0xFFFFFFF = .unmapped ∧ localTo 9 0x10000000 = .peer 8 0 ∧
    localTo 9 0x11000005 = .dsp 5 ∧ localTo 511 0x177FFFFF = .dsp 0x7FFFFF ∧ localTo 9 0x10800000 = .unmapped ∧
    localTo 9 0x17FFFFFF = .unmapped ∧ localTo 9 0x18000000 = .unmapped := by decide +kernel

theorem witness_LocalMapAndAccessFaults :
    (∃ e, Ready (withX 1 2) e [1] [3] ∧ (e.st.getX 1).toNat % 4 ≠ 0) ∧
    (∃ e, Ready (withX 1 0x840000) e [1] [3] ∧ localTo e.core (e.st.getX 1).toNat = .unmapped) ∧
    (∃ e, Ready (withX 1 0x100 (small 0x100)) e [1] [3] ∧ localTo e.core (e.st.getX 1).toNat = .dsp 0x100 ∧
      (e.tm.firstUnowned 0x100 (0x100 + 4)).isSome = true) ∧
    (∃ e, Ready (withX 1 0x11000000) e [1] [3] ∧ localTo e.core (e.st.getX 1).toNat = .peer 1 0 ∧
      base.peerCase e.tm.lid 1 = .fails) ∧
    (∃ e, Ready (withX 1 0x11000100 (duo 0x100)) e [1] [3] ∧ localTo e.core (e.st.getX 1).toNat = .peer 1 0x100 ∧
      (duo 0x100).peerCase e.tm.lid 1 = .served (teamKey 1 1) ∧
      (((duo 0x100).teams.get? (teamKey 1 1)).bind (fun t => t.firstUnowned 0x100 (0x100 + 4))).isSome = true) ∧
    (∃ e, Ready (withX 1 0x800000 (onKernel (fun k => { k with desc := { k.desc with tw := false } }))) e [1, 2] [] ∧
      localTo e.core (e.st.getX 1).toNat = .isp 0 ∧ e.kn.desc.tw = false) ∧
    (∃ e, Ready (withX 1 0x900008) e [1, 2] [] ∧ localTo e.core (e.st.getX 1).toNat = .sem 1 false) ∧
    (∃ e, Ready (withX 1 0x900008 (onKernel (fun k => { k with desc := { k.desc with slo := 2 } }))) e [1] [3] ∧
      e.kn.desc.ownsSem 1 = false) ∧
    (∃ e, Ready (withX 1 0x910420) e [1] [3] ∧ localTo e.core (e.st.getX 1).toNat = .reg 0x420 ∧ regMapped 0x420 = false) ∧
    scalarAccess (.lw 3 1 0) = some ⟨[1], [3], 1, 0, 4, false⟩ ∧ scalarAccess (.sw 2 1 0) = some ⟨[1, 2], [], 1, 0, 4, true⟩ := by
  and_intros <;> first | exact ready_with (by decide +kernel) | rfl

/-- The kernel has core 1, and a team of it waits. -/
def absent : State :=
  let s := onKernel (fun k => { k with cores := [1] })
  { s with teams := s.teams.set (teamKey 1 1) (Team.start 1 1 []) }

/-- Semaphore `n` of the team. -/
def withSemAt (n : Nat) (q : Sem) (s : State := base) : State := { s with sems := s.sems.set (semKey (teamKey 1 0) n) q }

theorem witness_LoadsGiveWhatTheyRead :
    (∃ e, Ready (withX 1 0x7FFFFC) e [1] [3] ∧ base.dataAt e 0x7FFFFC 4 = .loc (dspLoc 0 0x7FFFFC) ∧
      ((withX 1 0x7FFFFC).reachAll e.core e.mark (e.demander 0) [(dspLoc 0 0x7FFFFC, dspLoc 0 0x7FFFFC + 4)] []).2 = false ∧
      ((withX 1 0x7FFFFC).readCheck (some e.kn.ctx) (dspLoc 0 0x7FFFFC) 4).2 = none ∧ base.mem.wf = true) ∧
    (∃ e, Ready dispatched e [1] [3] ∧ dispatched.dataAt e 0x1000 4 = .loc (dspLoc 0 0x1000) ∧
      (dispatched.reachAll e.core e.mark (e.demander 0) [(dspLoc 0 0x1000, dspLoc 0 0x1000 + 4)] []).2 = true) ∧
    (∃ e, Ready absent e [1] [3] ∧ absent.dataAt e 0x11000000 4 = .wait) ∧
    (∃ e, Ready (withX 1 0x83FFFF) e [1] [3] ∧ localTo e.core (e.st.getX 1).toNat = .isp 0x3FFFF ∧
      ((withX 1 0x83FFFF).readCheck (some e.kn.ctx) (ispLoc e.core 0x3FFFF) 1).2 = none) ∧
    (∃ e, Ready (withX 1 0x9007FC (withSemAt 255 { count := 3, ovf := true, sys := false, q := [] })) e [1] [3] ∧ localTo e.core (e.st.getX 1).toNat = .sem 255 true ∧ e.kn.desc.ownsSem 255 = true ∧
      e.tk = teamKey 1 0) ∧
    (∃ e, Ready (withX 1 0x9108FC) e [1] [3] ∧ localTo e.core (e.st.getX 1).toNat = .reg 0x8FC ∧ regMapped 0x8FC = true) ∧
    counterLow.contains 0x618 = true ∧ strandTeam (strandKey 1 0) = teamKey 1 0 ∧
    (base.activeTeam 0).map (·.1) = some (teamKey 1 0) := by
  and_intros <;> first | exact ready_with (by decide +kernel) | decide +kernel

/-- An ECC word of core 0's scratchpad poisoned. -/
def spoilt (o : Nat) (s : State := base) : State := { s with poison := [dspLoc 0 o] }

theorem witness_StoresWriteOnlyTheirBytes :
    (∃ e, Ready (withX 1 0x7FFFFC) e [1, 2] [] ∧ base.dataAt e 0x7FFFFC 4 = .loc (dspLoc 0 0x7FFFFC) ∧ base.mem.wf = true ∧
      (base.reachAll e.core e.mark (e.demander 0) [] [(dspLoc 0 0x7FFFFC, dspLoc 0 0x7FFFFC + 4)]).2 = false ∧
      ((base.reachAll e.core e.mark (e.demander 0) [] [(dspLoc 0 0x7FFFFC, dspLoc 0 0x7FFFFC + 4)]).1.checkSpans e.kn.ctx
        (partWords [(dspLoc 0 0x7FFFFC, dspLoc 0 0x7FFFFC + 4)])).2 = none) ∧
    -- the word that the store covers in part holds an error, before and after the stored bytes
    (∃ e, Ready (withX 1 0x7FFFFC (spoilt 0x7FFFC0)) e [1, 2] [] ∧
      (((spoilt 0x7FFFC0).reachAll e.core e.mark (e.demander 0) [] [(dspLoc 0 0x7FFFFC, dspLoc 0 0x7FFFFC + 4)]).1.checkSpans e.kn.ctx
        (partWords [(dspLoc 0 0x7FFFFC, dspLoc 0 0x7FFFFC + 4)])).2 = some (dspLoc 0 0x7FFFC0)) ∧
    (∃ e, Ready dispatched e [1, 2] [] ∧
      (dispatched.reachAll e.core e.mark (e.demander 0) [] [(dspLoc 0 0x1000, dspLoc 0 0x1000 + 4)]).2 = true) ∧
    (∃ e, Ready (withX 1 0x83FFFC) e [1, 2] [] ∧ localTo e.core (e.st.getX 1).toNat = .isp 0x3FFFC ∧ e.kn.desc.tw = true ∧
      (base.core e.core).stale = [] ∧
      (base.checkSpans e.kn.ctx (partWords [(ispLoc e.core 0x3FFFC, ispLoc e.core 0x3FFFC + 4)])).2 = none) ∧
    -- core registers: a region field with and without work there, RW and RO words, the stook's occupancy, the last windrow
    (∃ e, Ready (withX 1 0x910010 dispatched) e [1, 2] [] ∧ localTo e.core (e.st.getX 1).toNat = .reg 0x10 ∧
      regMapped 0x10 = true ∧ isRegionField 0x10 = true ∧
      (dispatched.regionFieldWrite e.core e.tk e.mark (e.demander 0) 0x10 0).2 = true) ∧
    (∃ e, Ready (withX 1 0x910010 (small 0x100)) e [1, 2] [] ∧
      ((small 0x100).regionFieldWrite e.core e.tk e.mark (e.demander 0) 0x10 0).2 = false) ∧
    (∃ e, Ready (withX 1 0x910624) e [1, 2] [] ∧ localTo e.core (e.st.getX 1).toNat = .reg 0x624 ∧ regMapped 0x624 = true ∧
      isRegionField 0x624 = false) ∧
    (∃ e, Ready (withX 1 0x91052C) e [1, 2] [] ∧ localTo e.core (e.st.getX 1).toNat = .reg 0x52C ∧ regMapped 0x52C = true) ∧
    (∃ e, Ready (withX 1 0x9103E8) e [1, 2] [] ∧ localTo e.core (e.st.getX 1).toNat = .reg 0x3E8 ∧ regMapped 0x3E8 = true) ∧
    ∃ e, Ready (withX 1 0x9108FC) e [1, 2] [] ∧ localTo e.core (e.st.getX 1).toNat = .reg 0x8FC ∧ regMapped 0x8FC = true ∧
      0x8FC / 0x20 = 0x40 + (7 : Fin 8).val := by
  and_intros <;> exact ready_with (by decide +kernel)

/-- A windrow of `rows` rows that semaphore 7 serves, `arrived` of them arrived. -/
def windrow (rows : BitVec 12) (arrived : Word) (s : State := base) : State :=
  let w : Windrow := { Windrow.zero with en := true, sem := 7, rows := rows, pitch := 16, arrived := arrived }
  onCore (fun k => { k with windrows := k.windrows.set 2 w }) s

theorem witness_RegionsAndWindrowsFollowTheirRegisters :
    -- region 0 is enabled and has work, region 15 is not
    (∃ t, (small 0x100).activeTeam (0 : BitVec 9).toNat = some (teamKey 1 0, t) ∧ t.regions[0].mode ≠ 0 ∧ t.regions[15].mode = 0 ∧
      ((small 0x100).reach 0 ((small 0x100).core 0).nextSeq (outerDemander 0 0) [] [(dspLoc 0 0, dspLoc 0 0x100)]).2 = false) ∧
    (dispatched.reach 0 (dispatched.core 0).nextSeq (outerDemander 0 0) [] [(dspLoc 0 0, dspLoc 0 0x800000)]).2 = true ∧
    -- wr.adv: no windrow, too many rows, none, not arrived, arrived
    (∃ e, Ready (withX 1 1) e [1] [] ∧ e.kn.desc.ownsSem 7 = true ∧
      ∀ i : Fin 8, (base.core e.core).windrows[i.val].en = false) ∧
    (∃ e, Ready (withX 1 3 (windrow 2 2)) e [1] [] ∧
      ((windrow 2 2).core e.core).windrows[2].rows.toNat < (e.st.getX 1).toNat) ∧
    (∃ e, Ready (withX 1 0 (windrow 2 2)) e [1] [] ∧ e.st.getX 1 = 0 ∧
      ∀ j : Fin 8, j < 2 → ((windrow 2 2).core e.core).windrows[j.val].en = false) ∧
    (∃ e, Ready (withX 1 2 (windrow 2 1)) e [1] [] ∧ (e.st.getX 1).toNat = 2 ∧
      ((windrow 2 1).core e.core).windrows[2].arrived.toNat < 2) ∧
    ∃ e, Ready (withX 1 2 (windrow 2 2)) e [1] [] ∧ (e.st.getX 1).toNat ≤ ((windrow 2 2).core e.core).windrows[2].rows.toNat ∧
      (e.st.getX 1).toNat ≤ (((windrow 2 2).core e.core).windrows[2].arrived -
        ((windrow 2 2).core e.core).windrows[2].head).toNat := by
  and_intros <;> first | exact ready_with (by decide +kernel) | decide +kernel | exact ⟨_, rfl, by decide +kernel⟩

/-- Semaphore 7 of the team. -/
def withSem (q : Sem) (s : State := base) : State := withSemAt 7 q s
def sem (count : Word) : Sem := { count := count, ovf := false, sys := false, q := [] }

/-- Two strands of the kernel; the second waits for 3 at semaphore 7. -/
def waiting : State :=
  let s := onKernel (fun k => { k with desc := { k.desc with nsm := 1 } })
  withSem { sem 1 with q := [(.strand (strandKey 1 1), 3)] }
    { s with strands := s.strands.set (strandKey 1 1) { Strand.start 1 1 0x800000 0 with st := .blocked, wait := some .sem } }

theorem witness_SemaphoresCountAndServe :
    -- sem.sig and sem.set: pending results, OVERFLOWED, the last count that fits with a waiting strand that is served, FREE
    (∃ e, Ready pending e [1] [] ∧ e.kn.desc.ownsSem 7 = true ∧ e.st.pend ≠ []) ∧
    (∃ e, Ready (withSem { sem 0 with ovf := true }) e [1] [] ∧ e.st.pend = []) ∧
    (∃ e, Ready (withX 1 0xFFFFFFFE waiting) e [1] [] ∧ waiting.sems.get? (semKey e.tk 7) = some
        { sem 1 with q := [(.strand (strandKey 1 1), 3)] } ∧ (1 : Word).toNat + (e.st.getX 1).toNat < 2 ^ 32 ∧
      (waiting.strands.get? (strandKey 1 1)).isSome = true) ∧
    (∃ e, Ready base e [1] [] ∧ base.sems.get? (semKey e.tk 7) = none) ∧
    -- overflow
    (∃ e, Ready (withX 1 0xFFFFFFFF waiting) e [1] [] ∧ e.tm.num < 512 ∧ e.tk = teamKey e.tm.lid e.tm.num ∧
      e.kn.st.live = true ∧ e.kn.fl.fk = 0 ∧ 2 ^ 32 ≤ (1 : Word).toNat + (e.st.getX 1).toNat) ∧
    -- sem.wait and sem.try: fits exactly, does not fit behind a wait that does not fit either
    (∃ e, Ready (withX 1 4 (withSem (sem 4))) e [1] [3] ∧ e.kn.desc.ownsSem 7 = true ∧
      ((withSem (sem 4)).stookStep e.core (fun k => k.forceWhole e.core (e.demander 0) (fun h => h.signals e.core e.tk 7))).sems.get?
        (semKey e.tk 7) = some (sem 4) ∧ (e.st.getX 1).toNat ≤ 4) ∧
    (∃ e, Ready (withX 1 1 waiting) e [1] [3] ∧ (waiting.core e.core).switch = false ∧
      (waiting.stookStep e.core (fun k => k.forceWhole e.core (e.demander 0) (fun h => h.signals e.core e.tk 7))).sems.get?
        (semKey e.tk 7) = some { sem 1 with q := [(.strand (strandKey 1 1), 3)] } ∧ (1 : Word).toNat < (3 : Word).toNat) ∧
    -- the ends of the range
    ∃ e, Ready (onKernel (fun k => { k with desc := { k.desc with slo := 1, shi := 6 } })) e [1] [3] ∧
      e.kn.desc.ownsSem 0 = false ∧ e.kn.desc.ownsSem 1 = true ∧ e.kn.desc.ownsSem 6 = true ∧ e.kn.desc.ownsSem 7 = false := by
  and_intros <;> exact ready_with (by decide +kernel)

/-- Barrier 63 of the kernel, bound to group 1 with the sum of its contributions, and the members of the group. -/
def barrier (b : Bar) (ms : List Nat) (s : State := base) : State :=
  onKernel (fun k => { k with bars := [(63, b)], groups := [(1, ms)] }) s
def bar (k : Nat) (arr : List (Nat × Word)) : Bar :=
  { word := 0x1301, k := k, arr := arr, broken := false, results := [(0, 9)] }

/-- Two teams on cores 0 and `c`, a strand of each in group 1 and one strand in group 2. -/
def spread (c : Nat) : State :=
  let s := onKernel (fun k => { k with groups := [(1, [0, 4]), (2, [0])] }) (duo 0x100)
  { s with teams := s.teams.set (teamKey 1 1) { Team.start 1 1 [] with place := .active c } }

theorem witness_GroupWordsKeepTheJoinOrder :
    (∃ e, Ready (withX 1 256) e [1] [3] ∧ 255 < (e.st.getX 1).toNat) ∧
    (∃ e, Ready (withX 1 255 (onKernel (fun k => { k with groups := [(255, [5, 0])] }))) e [1] [3] ∧ (e.st.getX 1).toNat ≤ 255 ∧
      e.kn.members 255 = [5, 0] ∧ e.st.num = 0 ∧ e.st.num ∈ e.kn.members 255 ∧ (e.kn.members 255)[1]? = some e.st.num) ∧
    (∃ e, Ready (withX 1 255) e [1] [3] ∧ e.st.num ∉ e.kn.members 255 ∧ e.kn.memberships e.st.num < 16) ∧
    (∃ e, Ready (withX 1 255 (onKernel (fun k => { k with groups := (List.range 16).map (fun n => (n + 1, [0])) }))) e [1] [3] ∧
      e.st.num ∉ e.kn.members 255 ∧ 16 ≤ e.kn.memberships e.st.num) ∧
    (∃ e, Ready base e [1] [3] ∧ e.st.getX 1 = 0) ∧
    -- grp.leave by a member, whose barrier's other members have arrived, and have not
    (∃ e, Ready (withX 1 1 (barrier (bar 0 [(4, 1)]) [0, 4])) e [1] [] ∧ e.st.num ∈ e.kn.members 1 ∧
      e.kn.bars.get? 63 = some (bar 0 [(4, 1)]) ∧ (bar 0 [(4, 1)]).word.toNat % 256 = 1 ∧
      ∀ m ∈ e.kn.members 1, m ≠ e.st.num → ∃ p ∈ (bar 0 [(4, 1)]).arr, p.1 = m) ∧
    (∃ e, Ready (withX 1 1 (barrier (bar 0 []) [0, 4])) e [1] [] ∧ e.kn.bars.get? 63 = some (bar 0 []) ∧ (bar 0 []).arr = []) ∧
    -- spans: a core, a cluster, a die, the device, and none
    (∀ c ∈ [1, 8, 64], ((spread c).kernels.get? 1).map (fun k => (k.members 1, k.members 2)) = some ([0, 4], [0]) ∧
      ((spread c).teams.get? (teamKey 1 0)).map (·.place) = some (.active 0) ∧
      ((spread c).teams.get? (teamKey 1 1)).map (·.place) = some (.active c)) ∧
    ((spread 1).kernels.get? 1).map (·.members 3) = some [] := by
  and_intros <;> first | exact ready_with (by decide +kernel) | decide +kernel

/-- The strand has arrived at barrier 63. -/
def arrived (p : Arrival) (s : State) : State := onStrand (fun st => { st with arrivals := [(63, p)] }) s

theorem witness_BarriersCompleteTheirPhases :
    -- bar.init: unbound with a valid and an invalid word; bound with the same word, another, with arrivals; broken
    (∃ e, Ready (withX 1 0x401) e [1] [] ∧ e.kn.bars.get? 63 = none ∧ (e.st.getX 1).toNat / 2 ^ 8 % 8 ≤ 4 ∧
      (e.st.getX 1).toNat / 2 ^ 11 % 2 = 0 ∧ (e.st.getX 1).toNat / 2 ^ 16 = 0) ∧
    (∃ e, Ready (withX 1 0x501) e [1] [] ∧ ¬(e.st.getX 1).toNat / 2 ^ 8 % 8 ≤ 4) ∧
    (∃ e, Ready (withX 1 0x1301 (barrier (bar 0 []) [0])) e [1] [] ∧ e.kn.bars.get? 63 = some (bar 0 []) ∧
      (bar 0 []).word = e.st.getX 1) ∧
    (∃ e, Ready (withX 1 0x301 (barrier (bar 0 []) [0])) e [1] [] ∧ (bar 0 []).word ≠ e.st.getX 1 ∧ (bar 0 []).arr = []) ∧
    (∃ e, Ready (withX 1 0x301 (barrier (bar 0 [(0, 1)]) [0, 4])) e [1] [] ∧ e.kn.bars.get? 63 = some (bar 0 [(0, 1)])) ∧
    (∃ e, Ready (barrier { bar 0 [] with broken := true } [0]) e [1] [3] ∧
      e.kn.bars.get? 63 = some { bar 0 [] with broken := true } ∧ e.st.wait ≠ some .synced) ∧
    -- arrivals: no member; still in the phase; completes it; does not
    (∃ e, Ready (barrier (bar 0 []) [4]) e [1] [3] ∧ e.st.num ∉ e.kn.members ((bar 0 []).word.toNat % 256)) ∧
    (∃ e, Ready (arrived { phase := 0, flag := true } (barrier (bar 0 [(0, 1)]) [0, 4])) e [1] [3] ∧
      e.st.arrivals.get? 63 = some { phase := 0, flag := true } ∧ e.st.num ∈ e.kn.members 1) ∧
    (∃ e, Ready (arrived { phase := 0, flag := true } (barrier (bar 1 [(4, 1)]) [0, 4])) e [1] [3] ∧ e.st.pend = [] ∧
      e.st.arrivals.get? 63 = some { phase := 0, flag := true } ∧
      ∀ m ∈ e.kn.members 1, ∃ p ∈ (bar 1 [(4, 1)]).arr ++ [(e.st.num, e.st.getX 1)], p.1 = m) ∧
    (∃ e, Ready (barrier (bar 0 []) [0, 4]) e [1] [3] ∧ e.st.pend = [] ∧
      ¬∀ m ∈ e.kn.members 1, ∃ p ∈ (bar 0 []).arr ++ [(e.st.num, e.st.getX 1)], p.1 = m) ∧
    -- waits: without an arrival, after the phase, in the phase, broken
    (∃ e, Ready (barrier (bar 0 []) [0]) e [] [3] ∧ e.st.arrivals.get? 63 = none) ∧
    (∃ e, Ready (arrived { phase := 0, flag := true } (barrier (bar 1 []) [0, 4])) e [] [3] ∧ 0 < (bar 1 []).k) ∧
    (∃ e, Ready (arrived { phase := 1, flag := true } (barrier (bar 1 [(0, 1)]) [0, 4])) e [] [3] ∧ (bar 1 []).k ≤ 1) ∧
    -- the timeout of a barrier with arrivals that sets one
    (∃ k, (barrier (bar 0 [(0, 1)]) [0, 4]).kernels.get? 1 = some k ∧ k.bars.get? 63 = some (bar 0 [(0, 1)]) ∧
      (bar 0 [(0, 1)]).word.toNat / 4096 % 16 ≠ 0) := by
  and_intros <;> first | exact ready_with (by decide +kernel) | exact ⟨_, rfl, by decide +kernel⟩
/-! ### Kernel words, pushes, forces and the granary (05 to 07) -/

def switching : State := onCore (fun k => { k with switch := true })

/-- The kernel waits for record 9, whose kernel 9 has not triggered. -/
def dependent : State :=
  let s := onKernel (fun k => { k with producers := [9] })
  { s with recs := [(9, { Rec.blank 0 0 0 with lids := [9] })], kernels := s.kernels.set 9 probeKernel }

theorem witness_StrandsEndYieldAndTrigger :
    (∃ e, base.env = some e ∧ (base.core e.core).switch = false ∧ e.tm.park = none ∧ base.producersFired e.kn = true ∧
      e.kn.producers = []) ∧
    (∃ e, switching.env = some e ∧ (switching.core e.core).switch = true) ∧
    (∃ e, (onTeam (fun t => { t with park := some 9 })).env = some e ∧ e.tm.park ≠ none) ∧
    (∃ e, dependent.env = some e ∧ dependent.producersFired e.kn = false ∧ (dependent.core e.core).switch = false) ∧
    (∃ e, pending.env = some e ∧ e.st.pend ≠ []) ∧
    ∃ e, base.env = some e ∧ e.st.pend = [] ∧ e.kn.st.live = true ∧ e.kn.rbOn = false ∧ e.kn.fired = false ∧ e.kn.desc.nsm = 0 := by
  and_intros <;> exact env_with (by decide +kernel)

/-- The strand steals from team 1, which still has the indices from 3 to `hi`. -/
def stealing (hi : Word) (us : List Nat) : State :=
  let s := onStrand (fun st => { st with st := .blocked, wait := some (.steal 3 (1 :: us)) }) (duo 0x100)
  s.updTeam (teamKey 1 1) (fun t => { t with lo := 3, hi := hi })

def stealHyps (s : State) : Bool :=
  match s.strands.get? (strandKey 1 0), s.teams.get? (strandTeam (strandKey 1 0)), s.teams.get? (teamKey 1 1) with
  | some _, some thief, some v => decide (thief.hi.toNat ≤ thief.lo.toNat) && v.started
  | _, _, _ => false

theorem witness_WorkRangesAreHandedOutAndStolen :
    (∃ e, Ready (withX 1 4 (withX 2 5)) e [1, 2] [] ∧ (e.st.getX 1).toNat < (e.st.getX 2).toNat) ∧
    (∃ e, Ready (onTeam (fun t => { t with lo := 4, hi := 5 })) e [] [3] ∧ e.tm.lo.toNat < e.tm.hi.toNat) ∧
    (∃ e, Ready (onTeam (fun t => { t with lo := 5, hi := 5 })) e [] [3] ∧ e.tm.hi.toNat ≤ e.tm.lo.toNat ∧
      (e.kn.desc.nsm + 4) / 4 = 1) ∧
    (∃ e, Ready (duo 0x100) e [] [3] ∧ e.tm.hi.toNat ≤ e.tm.lo.toNat ∧ 1 < (e.kn.desc.nsm + 4) / 4) ∧
    -- two indices left, one left with another victim, one left with none
    stealHyps (stealing 5 []) = true ∧ stealHyps (stealing 4 [2]) = true ∧ stealHyps (stealing 4 []) = true ∧
    strandLid (strandKey 1 0) = 1 ∧ teamKey 1 1 ≠ strandTeam (strandKey 1 0) ∧ (3 : XReg) ≠ 0 := by
  and_intros <;> first | exact ready_with (by decide +kernel) | decide +kernel

/-- A record of two stages; the strand's kernel is member 0 and kernel 9, with one running strand, is member 1. Pipe 15 leads from
stage `prd` to the other. -/
def piped (prd depth : Nat) (q : List Word) (closed : Bool) : State :=
  let p : Pipe := { prd := prd, con := 1 - prd, depth := depth, pf := 0, cf := 1, sat := false, q := q, samples := [] }
  let st := Strand.start 9 0 0x800000 0
  { base with
    recs := [(0, { Rec.blank 0 0 0 with form := 3, lids := [1, 9], pipes := [(15, p)] })]
    teams := base.teams.set (teamKey 9 0) { Team.start 9 0 [] with started := true }
    strands := base.strands.set (strandKey 9 0) { st with st := if closed then .ended else .running } }

def pipeOf (s : State) (e : Env) (prd con depth len : Nat) (closed : Bool) : Bool :=
  match s.pipe e.kn 15 with
  | some p => decide (p.prd = prd ∧ p.con = con ∧ p.depth = depth ∧ p.q.length = len) && s.pipeClosed e.kn p == closed
  | none => false

theorem witness_PipeWordsAreFirstInFirstOut :
    (∃ e, Ready (piped 0 2 [] false) e [1] [3] ∧ (piped 0 2 [] false).pipe e.kn 14 = none) ∧
    -- the producer: full, with one place, and with a pending result elsewhere; the consumer may not push
    (∃ e, Ready (piped 0 2 [1, 2] false) e [1] [3] ∧ e.kn.member = 0 ∧ pipeOf (piped 0 2 [1, 2] false) e 0 1 2 2 false = true) ∧
    (∃ e, Ready (piped 0 2 [1] false) e [1] [3] ∧ e.st.pend = [] ∧ pipeOf (piped 0 2 [1] false) e 0 1 2 1 false = true) ∧
    -- the consumer: empty and open, empty and closed, one entry
    (∃ e, Ready (piped 1 2 [] false) e [1] [3] ∧ e.kn.member = 0 ∧ pipeOf (piped 1 2 [] false) e 1 0 2 0 false = true) ∧
    (∃ e, Ready (piped 1 2 [] true) e [1] [3] ∧ pipeOf (piped 1 2 [] true) e 1 0 2 0 true = true) ∧
    ∃ e, Ready (piped 1 2 [7] true) e [1] [3] ∧ pipeOf (piped 1 2 [7] true) e 1 0 2 1 true = true := by
  and_intros <;> exact ready_with (by decide +kernel)

/-- The strand's command registers hold a word. -/
def pushing (w : TileWord) (s : State := base) : State :=
  onStrand (fun st => { st with c := Vector.ofFn (fun i : Fin 8 => w.extractLsb' (32 * i.val) 32) }) s

/-- A `tcopy` of 1 x 16 BF16 elements from `a` to `d`, and the same as a `tstore`; an `xfer` of program 0. -/
def copyWord (code : DWord) (a d : BitVec 24) : TileWord := (0x000F0001_00#40 ++ d) ++ (0#64 ++ ((0x000F0001_00#40 ++ a) ++ code))
def xferWord : TileWord := 0#64 ++ (0#64 ++ (0#64 ++ 0x330#64))

/-- A core whose stook is full. -/
def crowded : State :=
  onCore (fun k => { k with stook := (List.range 1024).map (fun i => { probeSheaf i (teamKey 1 0) (clrWord 0) with subs := [.opn] })
                            nextSeq := 1024 })

def checkOf (s : State) (e : Env) (w : TileWord) : Option Reject := chainCheck e s e.tm.wfmt [w]

/-- A core one of whose engine queues is full. -/
def fullQueue (x : Bool) : State :=
  let q : Queued := { seq := 0, lid := 1, team := teamKey 1 0, word := xferWord, cmdNo := 0, pc := 0, sid := 0, mapA := none
                      wait := .notQueued, far := [] }
  onCore (fun k => if x then { k with xq := List.replicate queueDepth q } else { k with tq := List.replicate queueDepth q })

/-- Eager issue on the core, and a `tc.push` that waits for the sheaf numbered `q`. -/
def eager : State := onCore (fun k => { k with eager := true })
def waitingPush (q : Nat) (s : State) : State := onStrand (fun st => { st with wait := some (.pushed q (q + 1) 4 0 none) }) s

def quietB (s : State) : Bool :=
  s.cores.all (fun c => c.2.stook.isEmpty && c.2.tq.isEmpty && c.2.sb.isEmpty) && s.poison.isEmpty && s.injected.isEmpty

theorem quiet_of {s : State} (h : quietB s = true) : Quiet s := by
  simp only [quietB, Bool.and_eq_true, List.all_eq_true, List.isEmpty_iff] at h
  exact ⟨fun c hc => (h.1.1 c hc).1.1, fun c hc => (h.1.1 c hc).1.2, fun c hc => (h.1.1 c hc).2, h.1.2, h.2⟩

/-- Another strand of the team, which issued a push in step 0 that waits for room. -/
def pushAhead (s : State) : State :=
  { s with tick := 1
           strands := s.strands.set (strandKey 1 1) { Strand.start 1 1 0x800000 0 with
             st := .blocked, wait := some (.room 4 []), issue := 0, held := some (.tcPush 3) } }

/-- A `tclr` at 0x1000 that links to the word `w` 32 bytes behind the template address 0x2000. -/
def linkWord (disp : BitVec 15) : TileWord := clrWord 0x1000 ||| ((1#1 ++ disp).setWidth 256 <<< 48)
def chained (w : TileWord) (s : State := base) : State :=
  onStrand (fun st => { st with tmpl := some 0x2000 }) (pushing (linkWord 1) (s.setMem (s.mem.setNum (dspLoc 0 0x2020) 32 w.toNat)))

def chainHyps (s : State) (e : Env) (v : Option Reject) (ws : List TileWord) : Bool :=
  decide (s.pushBefore e = false ∧ ws.head? = some e.st.tileWord ∧ chainCheck e s e.tm.wfmt ws = v ∧ s.teams.get? e.tk = some e.tm ∧
    e.st.wait = none)

/-- A link from the word `w` at address `a` to the word `w'` at address `z`. -/
def link2 (s : State) (e : Env) (a : Word) (w w' : TileWord) (z : Word) : Prop :=
  (wordHdr w).chain.getLsbD 15 = true ∧ ((wordHdr w).chain.truncate 15 : BitVec 15) ≠ 0 ∧
    a + BitVec.ofInt 32 (32 * ((wordHdr w).chain.truncate 15 : BitVec 15).toInt) = z ∧ z.toNat % 32 = 0 ∧ z.toNat < 0x800000 ∧
    e.tm.firstUnowned z.toNat (z.toNat + 32) = none ∧
    w'.toNat = leNat ((List.range 32).map (fun i => s.mem.get (dspLoc e.core z.toNat + i)))

theorem linked_two {s : State} {e : Env} {a z : Word} {w w' : TileWord} (h : link2 s e a w w' z) : linked s e a [w, w'] z := by
  obtain ⟨h1, h2, rfl, h4, h5, h6, h7⟩ := h
  exact ⟨h1, h2, h4, h5, h6, h7, rfl⟩

theorem chain_with {s : State} {a z : Word} {w w' : TileWord} {v : Option Reject}
    (h : (match s.env with
      | some e => decide (e.st.isEmpty 3 = false ∧ e.st.tmpl = some a ∧ chainHyps s e v [w, w'] = true ∧
          (wordHdr w).chain.getLsbD 15 = true ∧ ((wordHdr w).chain.truncate 15 : BitVec 15) ≠ 0 ∧
          a + BitVec.ofInt 32 (32 * ((wordHdr w).chain.truncate 15 : BitVec 15).toInt) = z ∧ z.toNat % 32 = 0 ∧ z.toNat < 0x800000 ∧
          e.tm.firstUnowned z.toNat (z.toNat + 32) = none ∧
          w'.toNat = leNat ((List.range 32).map (fun i => s.mem.get (dspLoc e.core z.toNat + i))))
      | none => false) = true) :
    ∃ e, Ready s e [] [3] ∧ e.st.tmpl = some a ∧ linked s e a [w, w'] z ∧ chainHyps s e v [w, w'] = true := by
  cases he : s.env with
  | none => simp [he] at h
  | some e =>
    rw [he] at h
    obtain ⟨h1, h2, h3, h4⟩ := of_decide_eq_true h
    exact ⟨e, ⟨he, by simpa using h1⟩, h2, linked_two h4, h3⟩

/-- Of the same statement: the order of pushes, and chains. -/
theorem witness_PushesWaitAndAreChained :
    -- a push of another strand that has issued and waits, and none
    (∃ e, Ready (pushing (clrWord 0) (pushAhead base)) e [] [3] ∧ (pushing (clrWord 0) (pushAhead base)).pushBefore e = true ∧
      e.st.wait = none) ∧
    (∃ e, Ready (pushing (clrWord 0)) e [] [3] ∧ (pushing (clrWord 0)).pushBefore e = false) ∧
    -- chains of two words: accepted, illegal, unowned; and one whose link has no displacement, or no template address
    (∃ e, Ready (chained (clrWord 0x40)) e [] [3] ∧ e.st.tmpl = some 0x2000 ∧
      linked (chained (clrWord 0x40)) e 0x2000 [linkWord 1, clrWord 0x40] 0x2020 ∧
      chainHyps (chained (clrWord 0x40)) e none [linkWord 1, clrWord 0x40] = true) ∧
    Quiet (chained (clrWord 0x40)) ∧ (chained (clrWord 0x40)).mem.wf = true ∧
    appends (tileInstr (linkWord 1)) = true ∧ appends (tileInstr (clrWord 0x40)) = true ∧ (wordHdr (clrWord 0x40)).chain.getLsbD 15 = false ∧
    (∃ e, Ready (chained 0) e [] [3] ∧ e.st.tmpl = some 0x2000 ∧ linked (chained 0) e 0x2000 [linkWord 1, 0] 0x2020 ∧
      chainHyps (chained 0) e (some .illegal) [linkWord 1, 0] = true) ∧
    (∃ e, Ready (chained (clrWord 0x2FF0) (small 0x3000)) e [] [3] ∧ e.st.tmpl = some 0x2000 ∧
      linked (chained (clrWord 0x2FF0) (small 0x3000)) e 0x2000 [linkWord 1, clrWord 0x2FF0] 0x2020 ∧
      chainHyps (chained (clrWord 0x2FF0) (small 0x3000)) e (some (.byte 0x3000)) [linkWord 1, clrWord 0x2FF0] = true) ∧
    (∃ e, Ready (onStrand (fun st => { st with tmpl := some 0x2000 }) (pushing (linkWord 0))) e [] [3] ∧
      [linkWord 0].head? = some e.st.tileWord ∧ (wordHdr (linkWord 0)).chain.getLsbD 15 = true ∧
      ((wordHdr (linkWord 0)).chain.truncate 15 : BitVec 15) = 0) ∧
    (∃ e, Ready (pushing (linkWord 1)) e [] [3] ∧ e.st.tmpl = none ∧ (wordHdr e.st.tileWord).chain.getLsbD 15 = true) := by
  and_intros <;> first
    | exact ready_with (by decide +kernel)
    | exact quiet_of (by decide +kernel)
    | exact chain_with (by decide +kernel)
    | decide +kernel

theorem witness_PushesAppendTheCheckedWord :
    -- tc.ld: misaligned, foreign, the last 32 bytes, behind dispatched work
    (∃ e, Ready (withX 1 16) e [1] [] ∧ (e.st.getX 1).toNat % 32 ≠ 0) ∧
    (∃ e, Ready (withX 1 0x100 (small 0x100)) e [1] [] ∧ (e.tm.firstUnowned 0x100 (0x100 + 32)).isSome = true) ∧
    (∃ e, Ready (withX 1 0x7FFFE0) e [1] [] ∧ (e.st.getX 1).toNat < 0x800000 ∧ e.tm.firstUnowned 0x7FFFE0 0x800000 = none ∧
      ((withX 1 0x7FFFE0).reach e.core e.mark (e.demander 0) [(dspLoc 0 0x7FFFE0, dspLoc 0 0x7FFFE0 + 32)] []).2 = false ∧
      (base.readCheck (some e.kn.ctx) (dspLoc 0 0x7FFFE0) 32).2 = none) ∧
    (∃ e, Ready (withX 1 0x1000 dispatched) e [1] [] ∧
      (dispatched.reach e.core e.mark (e.demander 0) [(dspLoc 0 0x1000, dspLoc 0 0x1000 + 32)] []).2 = true) ∧
    -- tc.push: illegal, an unowned byte, appended, a full stook, the two queues
    (∃ e, Ready (pushing 0) e [] [3] ∧ checkOf base e e.st.tileWord = some .illegal) ∧
    (∃ e, Ready (pushing (clrWord 0xF0) (small 0x100)) e [] [3] ∧
      checkOf (small 0x100) e e.st.tileWord = some (.byte 0x100) ∧ e.st.tileWord = clrWord 0xF0) ∧
    (∃ e, Ready (pushing (clrWord 0)) e [] [3] ∧ checkOf base e e.st.tileWord = none ∧
      appends (tileInstr e.st.tileWord) = true ∧ (wordHdr e.st.tileWord).chain.getLsbD 15 = false ∧ e.st.wait = none ∧
      (base.teams.get? e.tk).isSome = true ∧ (base.core e.core).stook = [] ∧ (base.core e.core).eager = false) ∧
    -- with eager issue: pushed, waiting for a sheaf, and waiting for one that is gone
    (∃ e, Ready (pushing (clrWord 0) eager) e [] [3] ∧ checkOf eager e e.st.tileWord = none ∧
      (eager.core e.core).eager = true ∧ (eager.core e.core).stook = []) ∧
    (∃ e, Ready (waitingPush 0 crowded) e [] [3] ∧ e.st.wait = some (.pushed 0 1 4 0 none) ∧
      (crowded.core e.core).stook.any (fun h => decide (h.team = e.tk ∧ 0 ≤ h.seq ∧ h.seq < 1)) = true) ∧
    (∃ e, Ready (waitingPush 0 base) e [] [3] ∧ e.st.wait = some (.pushed 0 1 4 0 none) ∧
      (base.core e.core).stook.any (fun h => decide (h.team = e.tk ∧ 0 ≤ h.seq ∧ h.seq < 1)) = false) ∧
    (∃ e, Ready (pushing (clrWord 0) crowded) e [] [3] ∧ checkOf crowded e e.st.tileWord = none ∧
      ((crowded.core e.core).stook.filter (fun h => h.team = e.tk)).length = 1024) ∧
    (∃ e, Ready (pushing xferWord) e [] [3] ∧ checkOf base e e.st.tileWord = none ∧
      tileInstr e.st.tileWord = .xfer noHdr 0 0 0) ∧
    (∃ e, Ready (pushing (copyWord 0x110 0 0x100)) e [] [3] ∧ checkOf base e e.st.tileWord = none ∧
      queuedWord (tileInstr e.st.tileWord) = some false) ∧
    (∀ x, ∃ e, Ready (pushing (if x then xferWord else copyWord 0x110 0 0x100) (fullQueue x)) e [] [3] ∧
      e.st.wait = none ∧ checkOf base e e.st.tileWord = none ∧ queuedWord (tileInstr e.st.tileWord) = some x) ∧
    (queueDepth ≤ ((fullQueue false).core 0).tq.length ∧ queueDepth ≤ ((fullQueue true).core 0).xq.length) ∧
    -- vcs.ld: misaligned, a length off by one word, no length, an unowned byte, to the end of the store, behind dispatched work
    (∃ e, Ready (withX 1 2) e [1, 2] [] ∧ (e.st.getX 1).toNat % 4 ≠ 0) ∧
    (∃ e, Ready (withX 2 0x404) e [1, 2] [] ∧ 16384 < 1024 * (15 : BitVec 4).toNat + (e.st.getX 2).toNat) ∧
    (∃ e, Ready base e [1, 2] [] ∧ (e.st.getX 2).toNat = 0) ∧
    (∃ e, Ready (withX 2 0x104 (small 0x100)) e [1, 2] [] ∧ e.tm.firstUnowned 0 0x104 = some 0x100) ∧
    (∃ e, Ready (withX 2 0x400) e [1, 2] [] ∧ 1024 * (15 : BitVec 4).toNat + (e.st.getX 2).toNat = 16384 ∧
      e.tm.firstUnowned 0 0x400 = none ∧ (base.reach e.core e.mark (e.demander 0) [(dspLoc 0 0, dspLoc 0 0x400)] []).2 = false) ∧
    (∃ e, Ready (withX 1 0x1000 (withX 2 4 dispatched)) e [1, 2] [] ∧
      (dispatched.reach e.core e.mark (e.demander 0) [(dspLoc 0 0x1000, dspLoc 0 0x1004)] []).2 = true) := by
  and_intros <;> first | exact ready_with (by decide +kernel) | skip
  · intro x
    cases x <;> exact ready_with (by decide +kernel)
  all_goals exact (List.length_replicate (n := queueDepth)).ge

theorem witness_ForcesDispatchTheOpenWork :
    (∃ e, Ready base e [1, 2] [] ∧ (e.st.getX 2).toNat = 0) ∧
    (∃ e, Ready (withX 1 0xFF (withX 2 2 (small 0x100))) e [1, 2] [] ∧ e.tm.firstUnowned 0xFF (0xFF + 2) = some 0x100) ∧
    (∃ e, Ready (withX 1 0x107FFFF (withX 2 2)) e [1, 2] [] ∧ (e.st.getX 1).toNat < 0x1080000 ∧
      firstOutside [(e.kn.desc.accRows.1 * 1024, e.kn.desc.accRows.2 * 1024)] 2 0x7FFFF (0x7FFFF + 2) = some 0x80000) ∧
    (∃ e, Ready (withX 1 0x1000000 (withX 2 1)) e [1, 2] [] ∧
      firstOutside [(e.kn.desc.accRows.1 * 1024, e.kn.desc.accRows.2 * 1024)] 2 0 1 = none) ∧
    (∃ e, Ready (withX 1 0x1000 (withX 2 1 opened)) e [1, 2] [] ∧ e.tm.firstUnowned 0x1000 0x1001 = none ∧
      ((opened.core e.core).stook.map (·.seq)).Nodup ∧ ∃ h ∈ (opened.core e.core).stook, h.seq < e.mark ∧ h.openAt 0 = true ∧
        h.team = e.tk ∧ e.mark ≤ (opened.core e.core).nextSeq) := by
  and_intros <;> exact ready_with (by decide +kernel)

/-- A granary block of slot 0, and an entry of context 0 with key 5 whose input is 0x100 zero bytes. -/
def inBlock (b : BlockSt) (s : State := base) : State := onTeam (fun t => { t with blocks := [(0, (b, 5))] }) s
def entry (rc : Nat) (out : List Byte) : GEntry :=
  { ctx := 0, key := 5, st := .valid, fmt := 0, input := List.replicate 0x100 0, output := out, place := [(0, 0x100)]
    outPlace := [(0x100, 0x100 + out.length)], rc := rc, step := 0, pins := [], inval := false, used := 0 }

/-- The same, pinned by the strand's block. -/
def pinned (out : List Byte) : GEntry := { entry 0 out with pins := [strandKey 1 0] }
def withEntry (g : GEntry) (s : State := small 0x100) : State := onCore (fun k => { k with gran := [g] }) s

/-- A dispatched `tclr` of 32 bytes at each of some addresses, of a core whose region 0 has 0x100 bytes. -/
def clearing (as : List (BitVec 24)) : State :=
  onCore (fun k => { k with stook := as.map (fun a => { probeSheaf 0 (teamKey 1 0) (clrWord a) with
    subs := [.disp (outerDemander 0 0)], wait := .served }), nextSeq := 1 }) (small 0x100)

/-- What `gr.begin` reads, and whether the entry fits its input. -/
def beginHyps (s : State) (e : Env) : Bool :=
  (s.reach e.core e.mark (e.demander 4) [(dspLoc 0 0, dspLoc 0 0x100)] []).2 == false &&
    (s.readCheck (some e.kn.ctx) (dspLoc 0 0) 0x100).2 == none && (s.teams.get? e.tk).isSome

theorem witness_GranaryBlocksAreCapturedAndReplayed :
    -- misuses
    (∃ e, Ready (inBlock .run) e [1] [] ∧ e.kn.st.live = true ∧ e.kn.fl.fk = 0 ∧ e.tm.num < 512 ∧
      e.tm.blocks.get? e.slot ≠ none ∧ e.st.hflag = false ∧ e.tm.regions[15].mode = 0) ∧
    (∃ e, Ready (withX 1 0x40000000 (onStrand (fun st => { st with hflag := true }))) e [1] [] ∧
      e.tm.blocks.get? e.slot = none ∧ (e.st.getX 1).toNat / 2 ^ 30 ≠ 0 ∧ e.st.hflag = true) ∧
    (∃ e, Ready (withX 1 0x3FFFFFFF) e [1] [] ∧ e.tm.blocks.get? e.slot = none ∧ (e.st.getX 1).toNat / 2 ^ 30 = 0 ∧
      e.tm.regions[15].mode = 0) ∧
    (∃ e, (inBlock .replay (withEntry (pinned [1]))).env = some e ∧ e.tm.blocks.get? e.slot = some (.replay, 5) ∧
      e.tm.regions[0].mode ≠ 0 ∧ ((inBlock .replay (withEntry (pinned [1]))).core e.core).gran = [pinned [1]] ∧
      (pinned [1]).pinnedBy e.kn.ctx 5 e.key = true ∧ [(1 : Byte)].length ≠ e.tm.regions[0].size.toNat) ∧
    -- gr.begin: a match below the limit and at it, and no entry
    (∃ e, Ready (withX 1 5 (withEntry (entry 0 []))) e [1] [] ∧ beginHyps (withEntry (entry 0 [])) e = true ∧
      (entry 0 []).rc < e.tm.glim.toNat ∧
      granaryMatch 0 e.tm.grel e.tm.gthr ((withEntry (entry 0 [])).mem.read (dspLoc 0 0) 0x100) (entry 0 []).input = true) ∧
    (∃ e, Ready (withX 1 5 (withEntry (entry 1 []))) e [1] [] ∧ beginHyps (withEntry (entry 1 [])) e = true ∧
      e.tm.glim.toNat ≤ (entry 1 []).rc) ∧
    (∃ e, Ready (withX 1 5 (small 0x100)) e [1] [] ∧ beginHyps (small 0x100) e = true ∧
      ((small 0x100).core e.core).gran = []) ∧
    (∃ e, Ready (withX 1 5 (withEntry { entry 0 [] with st := .filling })) e [1] [] ∧
      beginHyps (withEntry { entry 0 [] with st := .filling }) e = true) ∧
    -- the input is read where an entry could match, and not where it has another size
    (entry 0 []).comparable 0 0x100 = true ∧ (entry 0 []).inputRuns 0 = [(granLoc 0 0, granLoc 0 0x100)] ∧
    (entry 0 []).comparable 0 0x80 = false ∧
    -- gr.end of a run and of a replay
    (∃ e, (inBlock .run).env = some e ∧ e.tm.blocks.get? e.slot = some (.run, 5) ∧ e.tm.regions[0].mode ≠ 0) ∧
    (∃ e, (inBlock .replay (withEntry (pinned (List.replicate 0x100 7)))).env = some e ∧
      e.tm.blocks.get? e.slot = some (.replay, 5) ∧ (pinned (List.replicate 0x100 7)).output.length = e.tm.regions[0].size.toNat ∧
      (pinned (List.replicate 0x100 7)).pinnedBy e.kn.ctx 5 e.key = true ∧
      ((inBlock .replay (withEntry (pinned (List.replicate 0x100 7)))).reach e.core e.mark (e.demander 0) []
        [(dspLoc 0 0, dspLoc 0 0x100)]).2 = false ∧
      ((inBlock .replay (withEntry (pinned (List.replicate 0x100 7)))).checkSpans e.kn.ctx
        ((pinned (List.replicate 0x100 7)).outputRuns e.core)).2 = none) ∧
    -- of a replay and of a capture whose entry is gone
    (∀ b ∈ [BlockSt.replay, .capture], ∃ e, (inBlock b (small 0x100)).env = some e ∧ e.tm.blocks.get? e.slot = some (b, 5) ∧
      e.tm.regions[0].mode ≠ 0 ∧ ((small 0x100).core e.core).gran = []) ∧
    -- gr.cfg: misaligned, foreign, in range (theta 0, limit 1), out of range (limit 0)
    (∃ e, Ready (withX 1 8) e [1] [] ∧ (e.st.getX 1).toNat % 16 ≠ 0) ∧
    (∃ e, Ready (withX 1 0x100 (small 0x100)) e [1] [] ∧ (small 0x100).dataAt e 0x100 16 = .bad) ∧
    (∃ e, Ready (base.setMem (base.mem.setNum (dspLoc 0 4) 4 0x1000)) e [1] [] ∧ base.dataAt e 0 16 = .loc (dspLoc 0 0) ∧
      (base.reachAll e.core e.mark (e.demander 0) [(dspLoc 0 0, dspLoc 0 16)] []).2 = false ∧
      bytesValue (base.mem.setNum (dspLoc 0 4) 4 0x1000) (dspLoc 0 4) 4 false = 0x1000) ∧
    (∃ e, Ready base e [1] [] ∧ bytesValue base.mem (dspLoc 0 4) 4 false = 0 ∧ e.st.hflag = false ∧
      (base.kernels.get? e.tm.lid).isSome = true) ∧
    -- gr.end of a capture into a FILLING entry, and one that waits, as a replay does, for dispatched work in the region
    (∃ e, (inBlock .capture (withEntry { pinned [] with st := .filling })).env = some e ∧
      e.tm.blocks.get? e.slot = some (.capture, 5) ∧ e.tm.regions[0].mode ≠ 0 ∧
      ({ pinned [] with st := .filling } : GEntry).pinnedBy e.kn.ctx 5 e.key = true ∧
      ((small 0x100).reach e.core e.mark (e.demander 0) [(dspLoc 0 0, dspLoc 0 0x100)] []).2 = false ∧
      ((small 0x100).readCheck (some e.kn.ctx) (dspLoc 0 0) 0x100).2 = none) ∧
    (∀ b ∈ [BlockSt.capture, .replay], ∃ e, (inBlock b (clearing [0x40])).env = some e ∧
      e.tm.blocks.get? e.slot = some (b, 5) ∧ (((clearing [0x40]).core 0).stook.map (·.seq)).Nodup ∧
      ((clearing [0x40]).reach e.core e.mark (e.demander 0) [] [(dspLoc 0 0, dspLoc 0 0x100)]).2 = true ∧
      ((clearing [0x40]).reach e.core e.mark (e.demander 0) [(dspLoc 0 0, dspLoc 0 0x100)] []).2 = true) ∧
    -- completion: with nothing pending, of gr.begin, gr.end in each state, gr.cfg and gr.inval
    Quiet (small 0x100) ∧ (∃ e, Ready (withX 1 5 (small 0x100)) e [1] [] ∧ e.tm.blocks.get? e.slot = none ∧
      (e.st.getX 1).toNat < 2 ^ 30 ∧ e.tm.regions[0].mode ≠ 0) ∧
    Quiet (withEntry (entry 0 (List.replicate 0x100 7))) ∧
    Quiet (base.setMem (base.mem.setNum (dspLoc 0 4) 4 0x1000)) := by
  and_intros <;> first
    | exact ready_with (by decide +kernel) | exact env_with (by decide +kernel) | exact quiet_of (by decide +kernel)
    | (intro b hb; simp only [List.mem_cons, List.not_mem_nil, or_false] at hb
       rcases hb with rfl | rfl <;> exact env_with (by decide +kernel))
    | decide +kernel
/-! ### Vector words (08) -/

/-- The hypotheses of `RowsReady`, as they are evaluated. -/
def rowsB (s : State) (e : Env) (rd wr : List Nat) (mrd mwr : List Span) (put : List Span := []) : Bool :=
  let r := s.reachAll e.core e.mark (e.demander 0) (rd.map (rowSpan e.core) ++ mrd) (wr.map (rowSpan e.core) ++ mwr)
  (rd ++ wr).all (fun r => decide (e.kn.desc.accRows.1 ≤ r ∧ r < e.kn.desc.accRows.2)) && r.2 == false &&
    (r.1.checkSpans e.kn.ctx (rd.map (rowSpan e.core) ++ mrd ++ partWords (put ++ mwr))).2 == none

theorem rows_ready {s : State} {e : Env} {rd wr : List Nat} {mrd mwr put : List Span}
    (h : rowsB s e rd wr mrd mwr put = true) : ∃ u, RowsReady s e rd wr mrd mwr put u := by
  simp only [rowsB, Bool.and_eq_true, List.all_eq_true, decide_eq_true_eq, beq_iff_eq] at h
  exact ⟨_, ⟨h.1.1, _, Prod.ext rfl h.1.2, Prod.ext rfl h.2⟩⟩

/-- No other strand of the team holds the vector engine. -/
def engineFree (s : State) (e : Env) : Bool :=
  (List.range 4).all (fun sl => sl == e.slot || match s.strands.get? (strandKey e.tm.lid (e.tm.num * 4 + sl)) with
    | some st => st.waitsIn vectorWord == false
    | none => true)

theorem engine_free {s : State} {e : Env} (h : engineFree s e = true) : ∀ sl < 4, sl ≠ e.slot → ∀ st,
    s.strands.get? (strandKey e.tm.lid (e.tm.num * 4 + sl)) = some st → st.waitsIn vectorWord = false := by
  intro sl hl hn st hs
  have := List.all_eq_true.1 h sl (List.mem_range.2 hl)
  simpa [hn, hs] using this

theorem vready_with {s : State} {srcs dsts : List XReg} {p : Env → Prop} [DecidablePred p]
    (h : (match s.env with
      | some e => engineFree s e && decide ((∀ r ∈ srcs ++ dsts, e.st.isEmpty r = false) ∧ p e)
      | none => false) = true) : ∃ e, VReady s e srcs dsts ∧ p e := by
  cases he : s.env with
  | none => simp [he] at h
  | some e =>
    rw [he] at h
    obtain ⟨h1, h2⟩ := Bool.and_eq_true_iff.1 h
    exact ⟨e, ⟨⟨he, (of_decide_eq_true h2).1⟩, engine_free h1⟩, (of_decide_eq_true h2).2⟩

/-- The lanes of a predicate with their locations resolve. -/
def lanesB (s : State) (e : Env) (p : PReg) (es : Nat) (addr : Nat → Word) (at_ : List (Nat × Nat)) : Bool :=
  decide (at_.map (·.1) = (List.range (8192 / elemW e.st.fmt)).filter (fun k => (e.st.getP p).getLsbD k)) &&
    at_.all (fun q => decide ((addr q.1).toNat % es = 0) && decide (s.dataAt e (addr q.1).toNat es = .loc q.2))

theorem lanes_resolve {s : State} {e : Env} {p : PReg} {es : Nat} {addr : Nat → Word} {at_ : List (Nat × Nat)}
    (h : lanesB s e p es addr at_ = true) : lanesResolve s e p es addr at_ := by
  simp only [lanesB, Bool.and_eq_true, List.all_eq_true, decide_eq_true_eq] at h
  exact h

/-- A strand with a lane format, and with lanes 0 and the last one in p1. -/
def lanes (f : BitVec 4) (s : State := base) : State :=
  onStrand (fun st => { st with fmt := f, p := st.p.set 1 (1 ||| (1 <<< (8192 / elemW f - 1))) }) s

/-- A kernel that owns accumulator row 0 alone. -/
def oneRow (s : State) : State := onKernel (fun k => { k with desc := { k.desc with acnt := 1 } }) s

/-- Another strand of the team holds the vector engine with a `vmv` that waits. -/
def engineHeld (s : State) : State :=
  { s with strands := s.strands.set (strandKey 1 1) { Strand.start 1 1 0x800000 0 with
      st := .blocked, wait := some (.poll 0), held := some (.vmv 1 2 0) } }

theorem witness_LaneWordsWriteTheActiveLanes :
    laneWord (.vfmaF 1 2 3 0) = some ⟨1, 2, 3, 0, true, true, LaneCtx.fma⟩ ∧
    (∀ f ∈ ([0, 1, 2, 11, 12] : List (BitVec 4)), laneFmt f ∧
      ∃ e, VReady (lanes f) e [] [] ∧ e.st.fmt = f ∧ rowsB (lanes f) e [2, 3, 1] [1] [] [] (laneRuns e.core 1 e.st.fmt (e.st.getP 1)) = true) ∧
    (∃ e, VReady (oneRow (lanes 0)) e [] [] ∧ e.st.row 0 = 0 ∧ e.kn.desc.accRows = (0, 1) ∧ e.st.row 1 = 1 ∧ e.st.row 2 = 2) ∧
    -- another strand's vector word has issued and waits
    (∃ e st, (engineHeld (lanes 0)).env = some e ∧ 1 ≠ e.slot ∧
      (engineHeld (lanes 0)).strands.get? (strandKey e.tm.lid (e.tm.num * 4 + 1)) = some st ∧ st.waitsIn vectorWord = true) ∧
    ((2 : Nat) ^ 16 - 1 < 2 ^ elemW 12 ∧ (2 : Nat) ^ 32 - 1 < 2 ^ elemW 11 ∧ base.mem.wf = true) := by
  refine ⟨rfl, ?_, vready_with (by decide +kernel), ?_, by decide +kernel⟩
  rotate_left
  · obtain ⟨e, he, h⟩ := env_with (s := engineHeld (lanes 0)) (p := fun e => 1 ≠ e.slot ∧
      ((engineHeld (lanes 0)).strands.get? (strandKey e.tm.lid (e.tm.num * 4 + 1))).any (fun st => st.waitsIn vectorWord) = true)
      (by decide +kernel)
    obtain ⟨st, hs, hw⟩ := Option.any_eq_true _ _ |>.1 h.2
    exact ⟨e, st, he, h.1, hs, hw⟩
  intro f hf
  simp only [List.mem_cons, List.not_mem_nil, or_false] at hf
  rcases hf with rfl | rfl | rfl | rfl | rfl
  all_goals exact ⟨by unfold laneFmt; decide, vready_with (by decide +kernel)⟩

/-- Binary32 lanes; annihilating or not. -/
def fp (ann : Bool) : LaneCtx := { fmt := 0, rm := .rne, daz := false, ftz := false, ann := ann }

theorem witness_FloatLanesFollowTheSpecialCases :
    laneFmt (fp false).fmt ∧ (∃ e, (fp false).num 0x80000000 = .fin true 0 e) ∧ (fp false).num 0x7F800000 = .inf false ∧
    (fp false).num 0xFF800000 = .inf true ∧ (∃ m e, (fp false).num 0xBF800000 = .fin true m e ∧ m ≠ 0) ∧
    (fp false).num 0x7FC00000 = .nan false ∧ (fp false).num 0x7F800001 = .nan true ∧ (fp false).ann = false ∧
    ((fp true).ann = true ∧ ((fp true).num 0).isZero = true) ∧
    ((fp false).num 0xBF800000).lt ((fp false).num 0) = true ∧ ((fp false).num 0).isNaN = false :=
  by and_intros <;> first
    | decide +kernel
    | exact Or.inl rfl
    | exact ⟨_, rfl⟩
    | exact ⟨_, _, rfl, by decide +kernel⟩

theorem witness_ComparesSelectsAndPredicates :
    compareWord (.vcmpILeu 7 1 2 1) = some (7, 1, 2, 1, LaneCtx.ileu) ∧
    (∃ e, VReady (lanes 12) e [] [] ∧ (7 : PReg) ≠ 0 ∧ rowsB (lanes 12) e [1, 2] [] [] [] = true) ∧
    ((2 : Nat) ^ 32 - 1 < 2 ^ elemW (fp false).fmt ∧ ((fp false).num 0x7F800001).isNaN = true ∧
      (((fp false).num 0).isZero && ((fp false).num 0x80000000).isZero) = true) ∧
    (∃ e, VReady (lanes 0) e [] [] ∧ rowsB (lanes 0) e [1, 2] [3] [] [] (laneRuns e.core 3 e.st.fmt (e.st.getP 0)) = true) ∧
    (∃ e, VReady (lanes 2) e [1] [] ∧ rowsB (lanes 2) e [] [3] [] [] (laneRuns e.core 3 e.st.fmt (e.st.getP 1)) = true) ∧
    (∃ e, VReady (lanes 11) e [] [3] ∧ e.st.fmt = 11) := by
  and_intros <;> first | exact vready_with (by decide +kernel) | decide +kernel | rfl

/-- Binary32 lanes 0 and 255 of p1 at unit stride from x1, at stride x2, and at the indices of row 2. -/
def unitAt (e : Env) (k : Nat) : Word := e.st.getX 1 + BitVec.ofNat 32 (k * 4)
def strideAt (e : Env) (k : Nat) : Word := e.st.getX 1 + BitVec.ofNat 32 k * e.st.getX 2
def indexAt (s : State) (e : Env) (k : Nat) : Word :=
  e.st.getX 1 + BitVec.ofNat 32 (laneAt e.st.fmt (s.rowAt e.core (e.st.row 2)) k) * BitVec.ofNat 32 4

def gather : State := withX 1 0x100 (withX 2 8 (lanes 0))

theorem witness_VectorMemoryMovesTheActiveLanes :
    (∃ e, VReady gather e [1] [] ∧ lanesB gather e 1 4 (unitAt e) [(0, dspLoc 0 0x100), (255, dspLoc 0 0x4FC)] = true ∧
      rowsB gather e [] [3] (joinRuns 4 [dspLoc 0 0x100, dspLoc 0 0x4FC]) [] (laneRuns e.core 3 e.st.fmt (e.st.getP 1)) = true ∧
      rowsB gather e [3] [] [] (joinRuns 4 [dspLoc 0 0x100, dspLoc 0 0x4FC]) = true) ∧
    (∃ e, VReady gather e [1, 2] [] ∧ lanesB gather e 1 4 (strideAt e) [(0, dspLoc 0 0x100), (255, dspLoc 0 0x8F8)] = true ∧
      rowsB gather e [] [3] (joinRuns 4 [dspLoc 0 0x100, dspLoc 0 0x8F8]) [] (laneRuns e.core 3 e.st.fmt (e.st.getP 1)) = true ∧
      rowsB gather e [3] [] [] (joinRuns 4 [dspLoc 0 0x100, dspLoc 0 0x8F8]) = true) ∧
    (∃ e, VReady gather e [1] [] ∧ lanesB gather e 1 4 (indexAt gather e) [(0, dspLoc 0 0x100), (255, dspLoc 0 0x100)] = true ∧
      rowsB gather e [2] [] [] [] = true ∧ rowsB gather e [2] [3] (joinRuns 4 [dspLoc 0 0x100, dspLoc 0 0x100]) [] (laneRuns e.core 3 e.st.fmt (e.st.getP 1)) = true) ∧
    -- the first failing lane is the last one: misaligned with a stride of 1, foreign past a region of 0x400 bytes
    (∃ e, VReady (withX 2 1 gather) e [1, 2] [] ∧ (strideAt e 255).toNat % 4 ≠ 0 ∧
      ∀ j, j < 255 → (e.st.getP 1).getLsbD j = true → (strideAt e j).toNat % 4 = 0 ∧ gather.dataAt e (strideAt e j).toNat 4 ≠ .bad) ∧
    (∃ e, VReady (small 0x400 gather) e [1] [] ∧ (small 0x400 gather).dataAt e (unitAt e 255).toNat 4 = .bad ∧
      (small 0x400 gather).dataAt e (unitAt e 0).toNat 4 ≠ .bad) ∧
    (∃ e, VReady (withX 1 2 gather) e [1] [] ∧ rowsB (withX 1 2 gather) e [2] [] [] [] = true ∧
      (indexAt (withX 1 2 gather) e 0).toNat % 4 ≠ 0 ∧ (e.st.getP 1).getLsbD 0 = true) ∧
    -- vcst: misaligned, foreign, a misaligned pointer, no lane, two lanes apart from the pointer
    (∃ e, VReady (withX 1 2 gather) e [1] [] ∧ (e.st.getX 1).toNat % 4 ≠ 0 ∧ e.kn.desc.accRows = (0, 512)) ∧
    (∃ e, VReady (withX 1 0x400 (small 0x400 gather)) e [1] [] ∧ (small 0x400 gather).dataAt e 0x400 4 = .bad) ∧
    (∃ e, VReady gather e [1] [] ∧ gather.dataAt e 0x100 4 = .loc (dspLoc 0 0x100) ∧
      rowsB gather e [3] [] [(dspLoc 0 0x100, dspLoc 0 0x104)] [] = true ∧
      bytesValue (gather.mem.setNum (dspLoc 0 0x100) 4 2) (dspLoc 0 0x100) 4 false = 2) ∧
    (∃ e, VReady gather e [1] [] ∧ (List.range 256).filter (fun k => (e.st.getP 2).getLsbD k) = []) ∧
    (∃ e, VReady gather e [1] [] ∧ gather.dataAt e (0 + BitVec.ofNat 32 (1 * 4)).toNat 4 = .loc (dspLoc 0 4) ∧
      ([dspLoc 0 0, dspLoc 0 4]).Pairwise (fun b c => b + 4 ≤ c ∨ c + 4 ≤ b) ∧
      rowsB gather e [] [] [] ((dspLoc 0 0x100, dspLoc 0 0x104) :: joinRuns 4 [dspLoc 0 0, dspLoc 0 4]) = true) := by
  and_intros <;> exact vready_with (by decide +kernel)

theorem witness_PermutesAndHistogramsLaneByLane :
    (∃ e, VReady (lanes 12) e [] [] ∧ rowsB (lanes 12) e [1, 2] [3] [] [] (laneRuns e.core 3 e.st.fmt (e.st.getP 1)) = true) ∧
    (∃ e, VReady (withX 1 0xFFFFFFFF (lanes 0)) e [1] [] ∧ rowsB (lanes 0) e [1] [3] [] [] (laneRuns e.core 3 e.st.fmt (e.st.getP 1)) = true ∧ (e.st.getX 1).toInt = -1) ∧
    (∃ e, VReady (onStrand (fun st => { st with wg := 2 }) (lanes 1)) e [] [3] ∧ e.st.wg.toNat ≤ 2 ∧
      rowsB (lanes 1) e [1] [3] [] [] [rowSpan e.core 3] = true) ∧
    (∃ e, VReady (lanes 11) e [] [] ∧ ((List.range 16).map (fun j => e.st.row (16 + j))).Nodup ∧
      rowsB (lanes 11) e (e.st.row 1 :: (List.range 16).map (fun j => e.st.row (16 + j)))
        ((List.range 16).map (fun j => e.st.row (16 + j))) [] [] = true) ∧
    (∃ e, VReady (lanes 11) e [] [] ∧
      rowsB (lanes 11) e (e.st.row 1 :: (List.range 16).map (fun j => e.st.row (16 + j))) [e.st.row 1] [] []
        [(accLoc e.core (e.st.row 1 * 1024), accLoc e.core (e.st.row 1 * 1024) + 16 * (elemW e.st.fmt / 8))] = true) := by
  and_intros <;> exact vready_with (by decide +kernel)

theorem witness_ScansConversionsAndReductions :
    (∃ e, VReady (lanes 0) e [] [] ∧ rowsB (lanes 0) e [1] [3] [] [] (laneRuns e.core 3 e.st.fmt (e.st.getP 1)) = true ∧ base.mem.wf = true) ∧
    -- vcvt: to 8-bit elements, to 32-bit elements of 16-bit lanes (two rows), unpacked from them, stochastic
    (∃ e, VReady (lanes 0) e [] [] ∧ (3 : BitVec 4).toNat ≤ 5 ∧ rowsB (lanes 0) e [e.st.row 1] [e.st.row 2] [] []
        (cvtRuns e.core [e.st.row 2] 3 (laneMask e.st.fmt (e.st.getP 1))) = true) ∧
    (∃ e, VReady (lanes 1) e [] [] ∧ (512 * elemW 0 + 8191) / 8192 = 2 ∧ e.st.cdir = false ∧
      ([e.st.row 2, e.st.row 3]).Nodup ∧ rowsB (lanes 1) e [e.st.row 1] [e.st.row 2, e.st.row 3] [] []
        (cvtRuns e.core [e.st.row 2, e.st.row 3] 0 (laneMask e.st.fmt (e.st.getP 1))) = true) ∧
    (∃ e, VReady (onStrand (fun st => { st with cdir := true }) (lanes 1)) e [] [] ∧ e.st.cdir = true ∧
      rowsB (lanes 1) e [e.st.row 2, e.st.row 3] [e.st.row 1] [] []
        (cvtRuns e.core [e.st.row 1] 1 (laneMask e.st.fmt (e.st.getP 1))) = true) ∧
    (∃ e, VReady (onStrand (fun st => { st with vfrm := 5 }) (lanes 0)) e [] [] ∧ e.st.vfrm.toNat % 8 = 5 ∧
      isStochastic 1 = true) ∧
    -- reductions of both kinds
    (∃ e, VReady (lanes 2) e [] [3] ∧ isFloatKind e.st.fmt = true ∧ rowsB (lanes 2) e [1] [] [] [] = true) ∧
    (∃ e, VReady (lanes 12) e [] [3] ∧ isFloatKind e.st.fmt = false ∧ rowsB (lanes 12) e [1] [] [] [] = true) := by
  and_intros <;> exact vready_with (by decide +kernel)

/-! Completion of vector words -/

theorem vector_with {s : State} {p : Env → Prop} [DecidablePred p]
    (h : (match s.env with
      | some e => quietB s && engineFree s e && decide ((e.st.fmt.toNat = 0 ∨ e.st.fmt.toNat = 1 ∨ e.st.fmt.toNat = 2 ∨ e.st.fmt.toNat = 11 ∨
          e.st.fmt.toNat = 12) ∧ e.st.vfrm.toNat / 32 = 0 ∧ p e)
      | none => false) = true) : ∃ e, VectorTurn s e ∧ p e := by
  cases he : s.env with
  | none => simp [he] at h
  | some e =>
    rw [he] at h
    simp only [Bool.and_eq_true, decide_eq_true_eq] at h
    exact ⟨e, ⟨⟨⟨he, by simp⟩, engine_free h.1.2⟩, quiet_of h.1.1, h.2.1, h.2.2.1⟩, h.2.2.2⟩

theorem witness_VectorWordsComplete :
    (∃ e, VectorTurn (lanes 12) e ∧ e.st.isEmpty 1 = false ∧ rowsOwned e [e.st.row 1, e.st.row 2, e.st.row 3] ∧
      rowsOwned e (e.st.row 1 :: (List.range 16).map (fun k => e.st.row (16 + k)))) ∧
    (∃ e, VectorTurn gather e ∧ e.st.isEmpty 1 = false ∧ e.st.isEmpty 2 = false ∧ rowsOwned e [e.st.row 3] ∧
      rowsOwned e [e.st.row 2] ∧ lanesB gather e 1 4 (unitAt e) [(0, dspLoc 0 0x100), (255, dspLoc 0 0x4FC)] = true ∧
      lanesB gather e 1 4 (strideAt e) [(0, dspLoc 0 0x100), (255, dspLoc 0 0x8F8)] = true ∧
      lanesB gather e 1 4 (indexAt gather e) [(0, dspLoc 0 0x100), (255, dspLoc 0 0x100)] = true ∧
      (e.st.getX 1).toNat % 4 = 0 ∧ gather.dataAt e (e.st.getX 1).toNat 4 = .loc (dspLoc 0 0x100) ∧
      bytesValue gather.mem (dspLoc 0 0x100) 4 false = 0 ∧ gather.mem.wf = true ∧
      ((List.range 256).filter (fun k => (e.st.getP 1).getLsbD k)).length = 2 ∧
      ∀ j, j < 2 → gather.dataAt e (0 + BitVec.ofNat 32 (j * 4)).toNat 4 = .loc (dspLoc 0 (j * 4))) ∧
    (∀ f ∈ ([0, 3, 14] : List (BitVec 4)), ∃ e, VectorTurn (lanes 1) e ∧ e.st.cdir = false ∧
      rowsOwned e ((List.range (packedRows 1 f)).map (fun k => e.st.row (1 + k)))) := by
  refine ⟨vector_with (by decide +kernel), vector_with (by decide +kernel), fun f hf => ?_⟩
  simp only [List.mem_cons, List.not_mem_nil, or_false] at hf
  rcases hf with rfl | rfl | rfl <;> exact vector_with (by decide +kernel)

/-! Numbers (00) -/

theorem replicate_forall₂ {α β : Type} {R : α → β → Prop} {a : α} {b : β} (h : R a b) (n : Nat) :
    List.Forall₂ R (List.replicate n a) (List.replicate n b) := by
  induction n with
  | zero => exact .nil
  | succ n ih => exact .cons h ih

theorem value_of {x : Machine.Num} {n : Bool} {m : Nat} {e : Int} {q : ℚ} (h : x = .fin n m e) (hq : dyadic n m e = q) :
    hasValue x q := ⟨n, m, e, h, hq⟩

theorem one_fp32 : hasValue (decodeE fFP32 0x3F800000) 1 := value_of (n := false) (m := 2 ^ 23) (e := -23) (by decide +kernel) (by norm_num [dyadic])

/-- Formats of each kind, values of codes, a magnitude below the normal ones, and blocks of ones, of zeros and with a NaN. -/
theorem witness_ConversionsRoundOnce :
    (ffmt fFP32 = some ⟨8, 23, 127, .ieee⟩ ∧ ffmt 3 = some ⟨4, 3, 7, .e4m3⟩ ∧ (ffmt 5).map (·.sp) = some .none ∧
      ifmt 10 = some (8, true) ∧ isBlock 6 = true ∧ isBlock fYF4 = true ∧ ffmt fYF4 = ffmt 5) ∧
    tiny fFP32 1 ∧ ¬tiny fFP32 0x3F800000 ∧ hasValue (decodeE 10 5) ((5 : Int) : ℚ) ∧ hasValue (decodeE fE4M3 0x38) 1 ∧
    (∀ x : Machine.Num × ℚ, x = (.fin false 1 0, 1) ∨ x = (.fin false 0 0, 0) →
      List.Forall₂ hasValue (List.replicate 32 x.1) (List.replicate 32 x.2) ∧
      (∀ v ∈ List.replicate 32 x.2, |v| ≤ x.2) ∧ ∃ v ∈ List.replicate 32 x.2, |v| = x.2) ∧
    (∃ x ∈ List.replicate 32 (Machine.Num.nan true), x.isNaN = true ∨ x.isInf = true) := by
  refine ⟨by decide +kernel, ⟨_, _, rfl, value_of (n := false) (m := 1) (e := -149) (by decide +kernel) rfl, by norm_num [dyadic],
    by norm_num [dyadic, ffmt]⟩, ?_, value_of (n := false) (m := 5) (e := 0) (by decide +kernel) (by norm_num [dyadic]),
    value_of (n := false) (m := 8) (e := -3) (by decide +kernel) (by norm_num [dyadic]), ?_, _, List.mem_replicate.2 ⟨by decide, rfl⟩,
    Or.inl rfl⟩
  · rintro ⟨F, q, hF, ⟨n, m, e, hd, hq⟩, -, hl⟩
    obtain rfl : F = ⟨8, 23, 127, .ieee⟩ := by simpa [ffmt, fFP32] using hF.symm
    obtain ⟨rfl, rfl, rfl⟩ : false = n ∧ 2 ^ 23 = m ∧ (-23 : Int) = e := by
      have : decodeE fFP32 0x3F800000 = .fin false (2 ^ 23) (-23) := by decide +kernel
      simpa using this.symm.trans hd
    subst hq
    norm_num [dyadic] at hl
  · rintro x (rfl | rfl)
    · exact ⟨replicate_forall₂ (value_of rfl (by norm_num [dyadic])) 32, by simp, 1, by simp, by norm_num⟩
    · exact ⟨replicate_forall₂ (value_of rfl (by norm_num [dyadic])) 32, by simp, 0, by simp, by norm_num⟩

theorem witness_FloatLanesRound :
    laneFmt (fp false).fmt ∧ (∀ u, (fp false).rm ≠ .sto u) ∧ ffmt (laneT (fp false).fmt) = some ⟨8, 23, 127, .ieee⟩ ∧
    hasValue ((fp false).num 0x3F800000) 1 ∧ (fp false).ann = false ∧ ((fp false).num 0x7FC00000).isNaN = true ∧
    (fp false).num 0x7F800000 = .inf false := by
  refine ⟨Or.inl rfl, (fun _ h => by cases h), by decide +kernel, ?_, rfl, by decide +kernel, by decide +kernel⟩
  exact value_of (n := false) (m := 2 ^ 23) (e := -23) (by decide +kernel) (by norm_num [dyadic])


/-- Operands 3, 3/2, 1, 2, -1, 1/2 and 4096 of the float functions, and a power that no format reaches. -/
theorem witness_FunctionsRoundTheirExactValue :
    hasValue ((fp false).num 0x40400000) 3 ∧ hasValue ((fp false).num 0x3FC00000) (3 / 2) ∧
    hasValue ((fp false).num 0x3F800000) 1 ∧ hasValue ((fp false).num 0x40000000) 2 ∧
    hasValue ((fp false).num 0xBF800000) (-1) ∧ hasValue ((fp false).num 0x3F000000) (1 / 2) ∧
    hasValue ((fp false).num 0x45800000) 4096 ∧ (3 : ℚ) = (3 : ℤ) ∧ (2 : ℚ) = 2 ^ (1 : ℤ) ∧ (1 / 2 : ℚ) = 2 ^ (-1 : ℤ) ∧
    (∀ k : ℤ, (3 / 2 : ℚ) ≠ k) ∧ ∀ k : ℤ, (3 : ℚ) ≠ 2 ^ k := by
  have val (b n m e q) (h : (fp false).num b = .fin n m e) (hq : dyadic n m e = q) : hasValue ((fp false).num b) q := ⟨n, m, e, h, hq⟩
  refine ⟨val _ false (3 * 2 ^ 22) (-22) _ (by decide +kernel) (by norm_num [dyadic]),
    val _ false (3 * 2 ^ 22) (-23) _ (by decide +kernel) (by norm_num [dyadic]),
    val _ false (2 ^ 23) (-23) _ (by decide +kernel) (by norm_num [dyadic]),
    val _ false (2 ^ 23) (-22) _ (by decide +kernel) (by norm_num [dyadic]),
    val _ true (2 ^ 23) (-23) _ (by decide +kernel) (by norm_num [dyadic]),
    val _ false (2 ^ 23) (-24) _ (by decide +kernel) (by norm_num [dyadic]),
    val _ false (2 ^ 23) (-11) _ (by decide +kernel) (by norm_num [dyadic]), by norm_num, by norm_num, by norm_num, ?_, ?_⟩
  · intro k hk
    have h2 : (3 : ℚ) = 2 * (k : ℚ) := by linarith
    have h3 : (3 : ℤ) = 2 * k := by exact_mod_cast h2
    omega
  · intro k hk
    rcases lt_or_ge k 2 with h | h
    · have : (2 : ℚ) ^ k ≤ 2 ^ (1 : ℤ) := zpow_le_zpow_right₀ (by norm_num) (by omega)
      norm_num at this; linarith
    · have : (2 : ℚ) ^ (2 : ℤ) ≤ 2 ^ k := zpow_le_zpow_right₀ (by norm_num) h
      norm_num at this; linarith
/-! ### Tile commands and the walker (09, 10) -/

/-- A region of the own scratchpad, with its counts less one. -/
def reg (a : BitVec 24) (fmt : BitVec 4) (rows cols : BitVec 12) : Desc :=
  { addr := a, peer := 0, peerF := false, map := 0, fmt := fmt, rows := rows, cols := cols, acc := false, tr := false
    mask := false }

/-- A tile word as the dispatched work of a core, which acts, or at the head of its queue. -/
def working (i : Instr) : State :=
  match encode i with
  | some (.tile w) => { base.withTileWord w.toNat with cur := .tile 0 0 0, agenda := [] }
  | _ => base
def queued (x : Bool) (i : Instr) (f : Queued → Queued) : State :=
  match encode i with
  | some (.tile w) =>
    onCore (fun k => { k with tq := k.tq.map f, xq := k.xq.map f }) { base.withTileWord w.toNat with cur := .queue 0 x, agenda := [] }
  | _ => base
def onSheaf (f : Sheaf → Sheaf) (s : State) : State := onCore (fun k => { k with stook := k.stook.map f }) s

theorem clean_of {u : State} (hp : u.poison = []) (hi : u.injected = []) (xs : List Span) : cleanAround u xs := by
  intro x _ z _ _
  simp [State.errorsIn, hp, hi]

/-- A sub-tile may run, and no byte holds an error. -/
def Turns (s : State) (e : TileEnv) (i : Instr) (more : List Span) : Prop :=
  ∃ u, TileTurn s e i more u ∧ ∀ xs, cleanAround u xs

theorem turn_with {s : State} {i : Instr} {more : TileEnv → List Span} {p : TileEnv → Prop} [DecidablePred p]
    (h : (match s.tileEnv with
      | some (e, true) =>
        let r := s.peers (.tile e.core e.h.seq e.u) e.h.lid e.core (tileReads e i) (tileWrites e i) (tileNeeds e i)
        let c := r.1.checkSpans (r.1.lidCtx e.h.lid) (tileNeeds e i ++ more e)
        s.tileReady e i && r.2 == .ok && c.2 == none && c.1.mem.wf && c.1.poison.isEmpty && c.1.injected.isEmpty && decide (p e)
      | _ => false) = true) : ∃ e, Turns s e i (more e) ∧ p e := by
  split at h
  · rename_i e he
    simp only [Bool.and_eq_true, beq_iff_eq, decide_eq_true_eq, List.isEmpty_iff] at h
    obtain ⟨⟨⟨⟨⟨⟨h1, h2⟩, h3⟩, h4⟩, h5⟩, h6⟩, h7⟩ := h
    exact ⟨e, ⟨_, ⟨he, h1, ⟨_, Prod.ext rfl h2, Prod.ext rfl h3⟩, h4⟩, clean_of h5 h6⟩, h7⟩
  · cases h

def none_ (_ : TileEnv) : List Span := []
def shapedB (d : Desc) : Bool := decide (d.ncols * elemW d.fmt % 8 = 0) && (!isBlock d.fmt || decide (d.ncols % 32 = 0))

theorem shaped_of {d : Desc} (h : shapedB d = true) : shaped d := by
  simp only [shapedB, Bool.and_eq_true, decide_eq_true_eq, Bool.or_eq_true, Bool.not_eq_true'] at h
  exact ⟨h.1, fun hb => h.2.resolve_left (by simp [hb])⟩

/-- Copies of BF16 elements and of a block format, whose flags are all enabled or none is. -/
def copyI (fmt : BitVec 4) : Instr := .tcopy noHdr (reg 0 fmt 1 31) (reg 0x1000 fmt 1 31)

/-- A `tstore` or an `xfer` that waits for 5 at semaphore 7, whose count is `n`. -/
def waitingHead (x : Bool) (n : Word) : State :=
  let h : TileHdr := { noHdr with waitEn := true, waitSem := 7, waitAmt := 5 }
  withSem (sem n) (queued x (if x then .xfer h 0 0 0 else .tstore h (reg 0 1 1 31) (reg 0x1000 1 1 31))
    (fun q => { q with wait := .notQueued }))
/-- The semaphore and the length of the queue after the work that would signal it is forced. -/
def headSem (n : Word) (x : Bool) : Option (Option Sem × Nat) :=
  let s := waitingHead x n
  (s.queueEnv x).map (fun q =>
    let u := s.stookStep q.1 (fun k => k.forceWhole q.1 waitDemander (fun h => h.signals q.1 q.2.team 7))
    (u.sems.get? (semKey q.2.team 7), (if x then (u.core 0).xq else (u.core 0).tq).length))

theorem witness_CopiesFillsAndStoresWriteTheirRegion :
    (shaped (reg 0 1 1 31) ∧ shaped (reg 0 6 1 31) ∧ isBlock 6 = true) ∧
    (∃ e, Turns (working (copyI 1)) e (copyI 1) (none_ e) ∧ e.h.vfrm = 0) ∧
    (∃ e, Turns (working (copyI 6)) e (copyI 6) (none_ e) ∧ e.u = 0) ∧
    (∃ e, Turns (working (.tfill noHdr 0x7F00000012 (reg 0 9 1 31))) e (.tfill noHdr 0x7F00000012 (reg 0 9 1 31)) (none_ e) ∧
      e.u = 0) ∧
    (∃ e, Turns (working (.tclr noHdr (reg 0 5 0 31))) e (.tclr noHdr (reg 0 5 0 31)) (none_ e) ∧ e.u = 0) ∧
    -- tstore: at the head, with its wait queued, busy, and copying with a signal
    (∀ f : SheafWait, ∃ q, (queued false (.tstore noHdr (reg 0 1 1 31) (reg 0x1000 1 1 31)) (fun q => { q with wait := f })).queueEnv false =
      some (0, q) ∧ q.wait = f ∧ (wordHdr q.word).waitEn = false) ∧
    (∃ q, (queued false (.tstore { noHdr with sigEn := true } (reg 0 1 1 31) (reg 0x1000 1 1 31)) id).queueEnv false = some (0, q) ∧
      tileInstr q.word = .tstore { noHdr with sigEn := true } (reg 0 1 1 31) (reg 0x1000 1 1 31) ∧
      (queued false (.tstore { noHdr with sigEn := true } (reg 0 1 1 31) (reg 0x1000 1 1 31)) id).busy 0 q.seq q.seq
        (granulesOf (readSpans 0 0 (tileInstr q.word) q.mapA [] 0)) (granulesOf (writeSpans 0 0 (tileInstr q.word) 0)) = false ∧
      ((queued false (.tstore { noHdr with sigEn := true } (reg 0 1 1 31) (reg 0x1000 1 1 31)) id).peers (.tile 0 q.seq 0) q.lid 0
        (readSpans 0 0 (tileInstr q.word) q.mapA [] 0) (writeSpans 0 0 (tileInstr q.word) 0) (needSpans 0 0 (tileInstr q.word) q.mapA [] 0)).2 = .ok ∧
      q.far = []) ∧
    -- a sub-tile whose wait is queued, and whose turn has not come
    (∃ e, (onSheaf (fun h => { h with wait := .queued }) (working (copyI 1))).tileEnv = some (e, true) ∧ e.h.wait = .queued ∧
      (onSheaf (fun h => { h with wait := .queued }) (working (copyI 1))).tileReady e (copyI 1) = false) ∧
    -- a word at the head of its queue with a wait: served at once, and behind a count too small
    (∀ x, ∃ q, (waitingHead x 5).queueEnv x = some (0, q) ∧ q.wait = .notQueued ∧ (wordHdr q.word).waitEn = true ∧
      (wordHdr q.word).waitSem = 7 ∧ (wordHdr q.word).waitAmt = 5) ∧
    (∀ x, headSem 5 x = some (some (sem 5), 1) ∧ headSem 4 x = some (some (sem 4), 1)) := by
  and_intros <;> first
    | decide +kernel
    | exact shaped_of (by decide +kernel)
    | exact turn_with (by decide +kernel)
    | exact ⟨_, rfl, by decide +kernel⟩
    | (intro f; cases f <;> exact ⟨_, rfl, by decide +kernel⟩)

/-- A conversion of FP32 to a block format, on the own core and by a mask that names it. -/
def convI (mask : DWord) : Instr := .tconv noHdr (reg 0 0 0 31) (mask <<< 8) (reg 0x1000 8 0 31)
/-- A `vt.call` of one word at the start of the control store on 2 rows of FP32. -/
def callI : Instr := .vtCall noHdr (reg 0 0 1 31) 0 (reg 0x1000 0 1 31)

theorem witness_ConversionsAndMicroprogramsMakeTheirRows :
    (shaped (reg 0 0 0 31) ∧ shaped (reg 0x1000 8 0 31) ∧ shaped (reg 0 0 1 31) ∧ laneFmt 0) ∧
    (∃ e, Turns (working (convI 0)) e (convI 0) (none_ e) ∧ par (0 <<< 8) 8 8 = 0) ∧
    (∃ e, Turns (working (convI 1)) e (convI 1) (none_ e) ∧ par (1 <<< 8) 8 8 ≠ 0) ∧
    (∃ e, Turns (working callI) e callI (none_ e) ∧ (reg 0 0 1 31).ncols ≤ 8192 / elemW 0) ∧
    -- a program of an illegal word, and of vadd.f v1, v0, v0
    (match microProgram (fp false) false (microX 0 0) 0 [0] with | .inr k => k == 0 | .inl _ => false) = true ∧
    (match microProgram (fp false) false (microX 0 0) 0 [0x000000AB] with | .inl fs => fs.length == 1 | .inr _ => false) = true :=
  by and_intros <;> first
    | decide +kernel
    | exact shaped_of (by decide +kernel)
    | exact turn_with (by decide +kernel)
    | exact Or.inl rfl

/-- Products of BF16 and of INT8 elements, added to what is there, and a triangular one whose last columns are past the
diagonal. -/
def mmI (a : BitVec 4) : Instr := .mm noHdr (reg 0 a 1 31) 0x7E (reg 0x1000 (if a = 10 then 11 else 0) 1 31)
def triI : Instr := .mmTri noHdr (reg 0 1 1 31) 0x7C (reg 0x1000 0 1 31)
def latched (f : BitVec 4) (s : State) : State := onSheaf (fun h => { h with wfmt := f }) s

theorem witness_MatrixProductsAndTheirWeights :
    (∃ e, Turns (latched 1 (working (mmI 1))) e (mmI 1) (mmWeights false (mmI 1) 0x7E e) ∧ e.h.wfmt = 1 ∧
      mmClass e.h.wfmt = some 0 ∧ par 0x7E 2 10 + 1 ≤ kLimit e.h.wfmt ∧ par 0x7E 1 1 = 1) ∧
    (∃ e, Turns (latched 10 (working (mmI 10))) e (mmI 10) (mmWeights false (mmI 10) 0x7E e) ∧ mmClass e.h.wfmt = some 3) ∧
    (∃ e, Turns (latched 1 (working triI)) e triI (mmWeights true triI 0x7C e) ∧ par 0x7C 1 1 = 0 ∧
      ¬((31 : Int) ≤ 1 + parDg 0x7C)) ∧
    (shaped (reg 0 1 1 31) ∧ shaped (reg 0x1000 6 1 31) ∧ elemW 0 = 32 ∧ elemW 11 = 32) ∧
    -- wload of a transposed BF16 region and of a block region with its own scales
    (∃ e, Turns (working (.wload noHdr { reg 0 1 1 31 with tr := true } (reg 0 0 0 0) 1)) e
        (.wload noHdr { reg 0 1 1 31 with tr := true } (reg 0 0 0 0) 1) (none_ e) ∧ wloadFmt 1 = true ∧ e.u = 0) ∧
    (∃ e, Turns (working (.wload noHdr (reg 0 6 255 511) (reg 0 0 0 0) 0)) e
        (.wload noHdr (reg 0 6 255 511) (reg 0 0 0 0) 0) (none_ e) ∧ wloadFmt 6 = true ∧ (512 : Nat) ≤ kLimit 6) := by
  and_intros <;> first | exact turn_with (by decide +kernel) | decide +kernel

/-- A Dexo header of one INT8 element: frequencies of symbols 0 and 1, one initial state, and 127 more of 2^23. -/
def dexo (magic f0 f1 x0 : Nat) : List Byte :=
  leBytes 2 magic ++ leBytes 2 0x0A01 ++ leBytes 12 0 ++ leBytes 2 f0 ++ leBytes 2 f1 ++ leBytes 508 0 ++ leBytes 4 x0 ++
    (List.replicate 127 (leBytes 4 0x800000)).flatten

def ansI : Instr := .wloadAns noHdr (reg 0x1000 10 0 15) (reg 0 10 0 0x40F) 0xA0

/-- What the stream of no bytes behind a header gives: accepted by the header's checks, decoded, and every state at its end. -/
def ansRun (hd : List Byte) : Option (Option Bool) :=
  if dexoBad hd 10 16 = none then
    some ((ansLoop (leSplit 2 256 ((hd.drop 0x10).take 512)) 1 0 (leSplit 4 128 ((hd.drop 0x210).take 512)).toArray [] []).map
      (fun r => r.2.1.toList.all (· == 2 ^ 23)))
  else none

theorem witness_EntropyCodedWeights :
    (∃ e, Turns (working ansI) e ansI (none_ e) ∧ wloadFmt (BitVec.ofNat 4 (par 0xA0 4 4)) = true) ∧
    dexoBad (dexo 0xD3C1 4096 0 0x800000) 10 16 = some 0 ∧ ansRun (dexo 0xD3C0 1 4095 0x800000) = some none ∧
    ansRun (dexo 0xD3C0 4096 0 0x800001) = some (some false) ∧ ansRun (dexo 0xD3C0 4096 0 0x800000) = some (some true) := by
  and_intros <;> first | exact turn_with (by decide +kernel) | decide +kernel

/-- A sub-tile that may run, and what is asked of it beside. -/
theorem free_with {s : State} {i : Instr} {p : TileEnv → Prop} [DecidablePred p]
    (h : (match s.tileEnv with
      | some (e, true) => s.tileReady e i && (otherCores e.core (tileReads e i ++ tileWrites e i)).isEmpty && s.poison.isEmpty &&
          s.injected.isEmpty && decide (e.h.vfrm.toNat / 32 = 0) && decide (p e)
      | _ => false) = true) : ∃ e, TileFree s e i ∧ p e := by
  split at h
  · rename_i e he
    simp only [Bool.and_eq_true, List.isEmpty_iff, decide_eq_true_eq] at h
    exact ⟨e, ⟨he, h.1.1.1.1.1, h.1.1.1.1.2, h.1.1.1.2, h.1.1.2, h.1.2⟩, h.2⟩
  · cases h

/-- `wload.ans` of the header `dexo` without a stream, and a `vt.call` of vadd.f v1, v0, v0. -/
def ansReady : State :=
  let s := working ansI
  s.setMem (s.mem.write (dspLoc 0 0) (dexo 0xD3C0 4096 0 0x800000))
def callReady : State :=
  let s := working callI
  s.setMem (s.mem.setNum (vcsLoc 0 0) 4 0xAB)

theorem witness_TileWordsComplete :
    (∃ e, TileFree (latched 1 (working (mmI 1))) e (mmI 1) ∧ e.u = 0) ∧ (∃ e, TileFree (latched 1 (working triI)) e triI ∧ e.u = 0) ∧
    (∃ e, TileFree (working (.wload noHdr (reg 0 6 255 511) (reg 0 0 0 0) 0)) e (.wload noHdr (reg 0 6 255 511) (reg 0 0 0 0) 0) ∧
      e.u = 0) ∧
    (∃ e, TileFree (working (convI 1)) e (convI 1) ∧ e.u = 0) ∧ (∃ e, TileFree (working (copyI 6)) e (copyI 6) ∧ e.u = 0) ∧
    (∃ e, TileFree (working (.tfill noHdr 0x12 (reg 0 9 1 31))) e (.tfill noHdr 0x12 (reg 0 9 1 31)) ∧ e.u = 0) ∧
    (∃ e, TileFree (working (.tclr noHdr (reg 0 5 0 31))) e (.tclr noHdr (reg 0 5 0 31)) ∧ e.u = 0) ∧
    (∃ e, TileFree ansReady e ansI ∧
      ansReady.mem.read (descReg (reg 0 10 0 0x40F) e.core).base (descReg (reg 0 10 0 0x40F) e.core).codeBytes =
        dexo 0xD3C0 4096 0 0x800000) ∧
    (∃ e, TileFree callReady e callI ∧ leNat (callReady.mem.read (vcsLoc e.core e.h.bank) 4) = 0xAB) := by
  and_intros <;> exact free_with (by decide +kernel)

theorem witness_TileStoresComplete :
    let s := queued false (.tstore { noHdr with sigEn := true } (reg 0 1 1 31) (reg 0x1000 1 1 31)) (fun q => { q with wait := .served })
    (∃ q, s.queueEnv false = some (0, q) ∧ q.wait = .served) ∧ s.poison = [] ∧ s.injected = [] ∧
    otherCores 0 (readSpans 0 0 (.tstore noHdr (reg 0 1 1 31) (reg 0x1000 1 1 31)) none [] 0 ++
      writeSpans 0 0 (.tstore noHdr (reg 0 1 1 31) (reg 0x1000 1 1 31)) 0) = [] := by
  refine ⟨⟨_, rfl, by decide +kernel⟩, rfl, rfl, by decide +kernel⟩

/-- Sums of one product: annihilated, of a zero by an infinity, of an infinity, and finite; accumulators of each kind. -/
theorem witness_GroupsAreSummed :
    let z : Machine.Num := .fin false 0 0
    let o : Machine.Num := .fin false 1 0
    ([(z, o)].filter (fun p => !(p.1.isZero || p.2.isZero)) = []) ∧ zeroByInf (z, .inf false) ∧ infProduct true (.inf false, .fin true 1 0) ∧
    List.Forall₂ (fun (p : Machine.Num × Machine.Num) (v : ℚ × ℚ) => hasValue p.1 v.1 ∧ hasValue p.2 v.2) [(o, z)] [(1, 0)] ∧
    groupSum true [(z, o)] = none ∧ hasValue (decodeE fFP32 0x3F800000) 1 ∧ decodeE fFP32 0x7F800000 = .inf false ∧
    decodeE fFP32 0x7FC00000 = .nan false := by
  refine ⟨by decide, Or.inl (by decide), by unfold infProduct; decide, ?_, by decide +kernel, one_fp32, by decide +kernel, by decide +kernel⟩
  exact .cons ⟨value_of rfl (by norm_num [dyadic]), value_of rfl (by norm_num [dyadic])⟩ .nil

theorem witness_TileFaultsFailTheKernel :
    ∃ e, Turns (working (copyI 1)) e (copyI 1) (none_ e) ∧
      (((working (copyI 1)).kernels.get? e.h.lid).any (fun k => k.st.live && k.fl.fk == 0)) = true ∧ e.by_.key = none :=
  turn_with (by decide +kernel)

/-- A walker with 10 in k4, 1 in k6 and 0x80000000 in k5, at row `er` of two. -/
def walking (er : Nat) : State :=
  let s := { base.withWalkerWord 0 with cur := .walker 0, agenda := [] }
  { s with walkers := s.walkers.map (fun w => (w.1, { w.2 with k := ((w.2.k.set 4 10).set 5 0x80000000).set 6 1, er := er })) }

theorem walk_with {s : State} {p : WalkEnv → Prop} [DecidablePred p]
    (h : (match s.walkEnv with
      | some w => (s.checkSpans (s.lidCtx w.e.h.lid) [(dspLoc w.r.core (par w.b 0 23 + 4 * w.r.wpc.toNat),
          dspLoc w.r.core (par w.b 0 23 + 4 * w.r.wpc.toNat) + 4)]).2 == none && shapedB w.d && decide (p w)
      | none => false) = true) : ∃ w, (∃ u, WalkTurn s w u) ∧ shaped w.d ∧ p w := by
  split at h
  · rename_i w hw
    simp only [Bool.and_eq_true, beq_iff_eq, decide_eq_true_eq] at h
    exact ⟨w, ⟨_, ⟨hw, Prod.ext rfl h.1.1⟩⟩, shaped_of h.1.2, h.2⟩
  · cases h

def peersOk (s : State) (w : WalkEnv) (rd wr : List Span) : Bool :=
  let r := s.peers (.tile w.r.core w.r.seq 0) w.e.h.lid w.r.core rd wr rd
  r.2 == .ok && (r.1.checkSpans (r.1.lidCtx w.e.h.lid) (rd ++ partWords wr)).2 == none

/-- The walker one word before its program, and its word with an error. -/
def strayed : State := { walking 0 with walkers := (walking 0).walkers.map (fun w => (w.1, { w.2 with wpc := -1 })) }
def badWord : State := { walking 0 with poison := (List.range 4).map (fun i => dspLoc 0 (32 * i)) ++ [dspLoc 0 0x1000] }
def fetchMeets (s : State) (w : WalkEnv) : Option Nat :=
  (s.checkSpans (s.lidCtx w.e.h.lid) [(dspLoc w.r.core (par w.b 0 23 + 4 * w.r.wpc.toNat),
    dspLoc w.r.core (par w.b 0 23 + 4 * w.r.wpc.toNat) + 4)]).2

theorem walkEnv_with {s : State} {p : WalkEnv → Prop} [DecidablePred p]
    (h : (s.walkEnv.any (fun w => decide (p w))) = true) : ∃ w, s.walkEnv = some w ∧ p w := by
  obtain ⟨w, hw, hp⟩ := (Option.any_eq_true _ _).1 h
  exact ⟨w, hw, of_decide_eq_true hp⟩

/-- The twalk of `walking` before a walker has taken it. -/
def ready_ : State :=
  onSheaf (fun h => { h with begun := false }) { base.withWalkerWord 0 with cur := .tile 0 0 0, agenda := [], walkers := [] }

theorem witness_WalkersRunTheirPrograms :
    -- registers: k0 and others, a loop at 1, an emit in and past the row of 64
    (∃ w, (∃ u, WalkTurn (walking 0) w u) ∧ shaped w.d ∧ w.d.ncols = 64 ∧ w.r.k[6] = 1 ∧ w.r.k[3].toNat = 64 ∧
      (w.r.k[4]).toNat < w.d.ncols ∧ w.d.ncols ≤ (w.r.k[3]).toNat) ∧
    -- wk.ld and wk.ldx: misaligned, past the 64 bytes, the last word of them; wk.flush and wk.skip of the one row
    (∃ w, (∃ u, WalkTurn (walking 0) w u) ∧ shaped w.d ∧ (w.r.k[4]).toNat % 4 ≠ 0 ∧
      (0 + (64 : BitVec 14).signExtend 32 : Word).toNat % 4 = 0 ∧
      w.a.nrows * w.a.ncols < (0 + (64 : BitVec 14).signExtend 32 : Word).toNat + 4 ∧
      (w.r.k[4] + w.r.k[6] * BitVec.ofNat 32 (2 ^ 0)).toNat + 1 ≤ w.a.nrows * w.a.ncols ∧
      peersOk (walking 0) w [((descReg w.a w.r.core).base + 11, (descReg w.a w.r.core).base + 12)] [] = true ∧
      (0 + (60 : BitVec 14).signExtend 32 : Word).toNat + 4 ≤ w.a.nrows * w.a.ncols ∧
      peersOk (walking 0) w [((descReg w.a w.r.core).base + 60, (descReg w.a w.r.core).base + 64)] [] = true ∧
      w.r.er < w.d.nrows ∧ peersOk (walking 0) w [] [((descReg w.d w.r.core).base, (descReg w.d w.r.core).base + 256)] = true ∧
      w.r.er + (w.r.k[6]).toNat = w.d.nrows ∧ w.d.nrows < w.r.er + (w.r.k[4]).toNat) ∧
    (∃ w, (∃ u, WalkTurn (walking 1) w u) ∧ shaped w.d ∧ w.d.nrows ≤ w.r.er) ∧
    -- outside the program, inside it, and a word with an error
    (∃ w, strayed.walkEnv = some w ∧ ¬(0 ≤ w.r.wpc ∧ w.r.wpc ≤ par w.b 23 9)) ∧
    (∃ w, (walking 0).walkEnv = some w ∧ 0 ≤ w.r.wpc ∧ w.r.wpc ≤ par w.b 23 9 ∧ fetchMeets (walking 0) w = none) ∧
    (∃ w, badWord.walkEnv = some w ∧ 0 ≤ w.r.wpc ∧ w.r.wpc ≤ par w.b 23 9 ∧ (fetchMeets badWord w).isSome = true) ∧
    -- the start, and a walker that is taken
    (∃ e, Turns ready_ e (tileInstr e.h.word) (none_ e) ∧ e.h.begun = false ∧
      ready_.walkers.get? (coreCluster e.core) = none ∧ ready_.walkFirst e.core e.h = true) ∧
    ((walking 0).walkers.get? (coreCluster 0)).isSome = true := by
  refine ⟨walk_with (by decide +kernel), walk_with (by decide +kernel), walk_with (by decide +kernel),
    walkEnv_with (by decide +kernel), walkEnv_with (by decide +kernel), walkEnv_with (by decide +kernel), ?_, by decide +kernel⟩
  have h := turn_with (s := ready_) (i := tileInstr probeTwalk) (more := none_)
    (p := fun e => e.h.word = probeTwalk ∧ e.h.begun = false ∧ ready_.walkers.get? (coreCluster e.core) = none ∧
      ready_.walkFirst e.core e.h = true) (by decide +kernel)
  obtain ⟨e, hu, hw, hp⟩ := h
  exact ⟨e, hw ▸ hu, hp⟩


/-! R30, R41: a SIGNBIT element 1 is −1, which UINT8 clamps to 0 with saturation, with no flag; R30, R45: code 0b1000 of a
YF4 block is its spare, so a NaN spare with its sign set stores 1. -/
theorem test_convert_signbit_to_uint8 : convElem fSIGN fU8 .rne true (0x7F, 0) 1 = ⟨0, 0⟩ := by decide
theorem test_convert_yf4_nan_spare_to_signbit :
    convElem fYF4 fSIGN .rne false (0x7F, 0xFF) 8 = ⟨1, 0⟩ ∧ convElem fYF4 fSIGN .rne false (0x7F, 0x7F) 8 = ⟨0, 0⟩ := by
  decide

/-! ### Move programs and commands (08) -/

/-- Engine 0 at the first word of a run of the kernel, with registers, commands and the run's state. -/
def engine (f : Engine → Engine) (s : State := base) : State :=
  { (s.withMoveWord 0).updEng 0 f with cur := .engine 0, agenda := [] }
def onRun (f : Run → Run) (s : State := base) : State := engine (fun e => { e with run := e.run.map f }) s
def withA (r : AReg) (v : DWord) (s : State := base) : State := onRun (fun x => { x with a := x.a.set r.toNat v r.isLt }) s

/-- A command of kernel 1 with registers a0 and a1. -/
def cmd (num : Nat) (op : Instr) (st : CmdSt) (a0 a1 : DWord := 0) (blk : List Byte := []) : Cmd :=
  { num := num, lid := 1, pc := 0, op := op, a := ((Vector.replicate 16 0).set 0 a0).set 1 a1, blk := blk, rows := 1, st := st
    after := false, bmp := 0, slots := [], flags := 0, status := 0, info := 0, nres := 0, susp := none, posted := false, ue := none
    far := none, full := [], wrote := [], readB := [], done := 0, row := none }

/-- `mv.copy` of a1 to a0, and a block of one row of one FP32 element. -/
def copyOp : DataWord := { dst := 0, src1 := 1, src2 := 0, rc := false, after := false, blk := 0x20 }
def oneFp32 : List Byte := leBytes 4 1 ++ leBytes 4 1 ++ leBytes 24 0
/-- The address of byte `o` of core 0's scratchpad. -/
def coreAt (o : Nat) : DWord := BitVec.ofNat 64 (2 ^ 62 + o)

def withCmds (cs : List Cmd) (s : State := base) : State := engine (fun e => { e with issue := cs.length, cmds := cs }) s

theorem move_with {s : State} {p : MoveEnv → Prop} [DecidablePred p]
    (h : (match s.moveEnv with
      | some e => decide (p e)
      | none => false) = true) : ∃ e, s.moveEnv = some e ∧ p e := by
  cases he : s.moveEnv with
  | none => simp [he] at h
  | some e => rw [he] at h; exact ⟨e, rfl, of_decide_eq_true h⟩

/-- The kernel of the run is live and has no fault. -/
def liveRun (s : State) (e : MoveEnv) : Bool := (s.kernels.get? e.r.lid).any (fun k => k.st.live && k.fl.fk == 0)

theorem witness_MoveProgramsRunTheirWords :
    (∃ e, (onRun (fun r => { r with atomW := some (1, 3) })).moveEnv = some e ∧ e.r.atomW.isSome = true) ∧
    (∃ e, (onRun (fun r => { r with n := (r.n.set 1 1).set 2 2 })).moveEnv = some e ∧ e.r.atomW = none ∧ e.r.n[0] = 0 ∧
      e.r.n[1] = 1 ∧ e.r.n[2] = 2) ∧
    -- each loop counter at 0, at 1 and above
    (∀ k, k < 6 → ∀ n : DWord, ∃ e, (onRun (fun r => { r with n := Vector.replicate 6 n })).moveEnv = some e ∧ e.r.atomW = none ∧
      ∀ h : k < 6, e.r.n[k] = n) ∧
    -- fences with and without an unretired command; the last word, one past it, and a misaligned one
    (∃ e, (engine id).moveEnv = some e ∧ e.r.atomW = none ∧ ∀ c ∈ e.e.cmds, c.st.gone = true) ∧
    (∃ e, (withCmds [cmd 1 .mvNop .active]).moveEnv = some e ∧ ¬∀ c ∈ e.e.cmds, c.st.gone = true) ∧
    (∃ e, (onRun (fun r => { r with pc := 0xFFFF8 })).moveEnv = some e ∧ liveRun base e = true ∧ e.r.pc.toNat % 8 = 0 ∧
      e.r.pc.toNat + 8 ≤ 2 ^ 20) ∧
    (∃ e, (onRun (fun r => { r with pc := 0x100000 })).moveEnv = some e ∧ 2 ^ 20 < e.r.pc.toNat + 8) ∧
    (∃ e, (onRun (fun r => { r with pc := 4 })).moveEnv = some e ∧ e.r.pc.toNat % 8 ≠ 0) ∧
    -- signals: no core, a foreign semaphore, an own one
    (∃ e, (withA 1 512).moveEnv = some e ∧ 512 ≤ e.r.a[1].toNat) ∧
    (∃ e, (withA 1 511).moveEnv = some e ∧ e.r.a[1].toNat < 512 ∧ (withA 1 511).ownSem e.r.lid e.r.a[1].toNat 7 = none) ∧
    (∃ e, (engine id).moveEnv = some e ∧ (engine id).ownSem e.r.lid e.r.a[1].toNat 7 = some (teamKey 1 0)) ∧
    -- waits: for a command not yet issued, retired, not retired; the semaphore form's states
    (∃ e, (withA 2 1).moveEnv = some e ∧ e.r.a[1].toNat = e.id ∧ e.e.issue < e.r.a[2].toNat) ∧
    (∃ e, (withA 1 1).moveEnv = some e ∧ e.r.a[1].toNat ≠ e.id ∧ e.r.a[2].toNat ≤ ((withA 1 1).eng e.r.a[1].toNat).retire) ∧
    (∃ e, (withA 2 1 (withCmds [cmd 1 .mvNop .active])).moveEnv = some e ∧ e.r.a[2].toNat ≤ e.e.issue ∧
      ((withA 2 1 (withCmds [cmd 1 .mvNop .active])).eng 0).retire < e.r.a[2].toNat) ∧
    (∀ w, ∃ e, (onRun (fun r => { r with semW := w })).moveEnv = some e ∧ e.r.semW = w) ∧
    (∃ e, (withA 2 (2 ^ 32)).moveEnv = some e ∧ 2 ^ 32 ≤ e.r.a[2].toNat) := by
  and_intros <;> first
    | exact move_with (by decide +kernel)
    | exact fun k _ n => ⟨_, rfl, rfl, fun h => by simp⟩
    | (intro w; cases w <;> exact move_with (by decide +kernel))

/-- The block of `oneFp32` at 0x20 of the move store, which a `mv.copy` of a1 to a0 names. -/
def issuing (blk : Nat) : State :=
  let s := onRun (fun r => { r with a := (r.a.set 0 (coreAt 0x1000)).set 1 (coreAt 0) })
  s.setMem (s.mem.setNum (moveLoc 0 + 0x20) 8 blk)
/-- The checks, without the rows register. -/
def checksB (s : State) (e : MoveEnv) (i : Instr) (blk : List Byte) (rows : Nat) : Bool :=
  s.issueOk e.id e.r.lid e.r.a e.r.last i &&
    (match dataFields i with
    | some w => decide (w.blk.toNat % 32 = 0) && dataOk i e.r.a { blkOf blk with rows := rows } && !w.rc
    | none => true)

theorem checks_of {s : State} {e : MoveEnv} {i : Instr} {blk : List Byte} {rows : Nat} (h : checksB s e i blk rows = true) :
    dataChecks s e i blk rows := by
  simp only [checksB, Bool.and_eq_true] at h
  refine ⟨h.1, fun w hw => ?_⟩
  rw [hw] at h
  simp only [Bool.and_eq_true, decide_eq_true_eq, Bool.not_eq_true'] at h
  exact ⟨h.2.1.1, h.2.1.2, fun hr => by simp [h.2.2] at hr⟩

theorem not_checks_of {s : State} {e : MoveEnv} {i : Instr} {w : DataWord} {blk : List Byte} {rows : Nat}
    (hw : dataFields i = some w) (h : dataOk i e.r.a { blkOf blk with rows := rows } = false) : ¬dataChecks s e i blk rows := by
  intro hc
  have := (hc.2 w hw).2.1
  rw [h] at this
  cases this

theorem issue_with {s : State} {i : Instr} {blk : List Byte} {rows : Nat}
    (h : (match s.moveEnv with
      | some e => decide (dataWord s e i = some (blk, rows, false)) && e.r.atomW == none && checksB s e i blk rows &&
          decide ((e.e.cmds.filter (fun c => !c.st.gone)).length < 8 ∧ e.r.stuck ≠ some e.e.retire)
      | none => false) = true) :
    ∃ e, s.moveEnv = some e ∧ e.r.atomW = none ∧ dataWord s e i = some (blk, rows, false) ∧
      ((e.e.cmds.filter (fun c => !c.st.gone)).length < 8 ∧ e.r.stuck ≠ some e.e.retire) ∧ dataChecks s e i blk rows := by
  cases he : s.moveEnv with
  | none => simp [he] at h
  | some e =>
    rw [he] at h
    simp only [Bool.and_eq_true, decide_eq_true_eq, beq_iff_eq] at h
    exact ⟨e, rfl, h.1.1.2, h.1.1.1, h.2, checks_of h.1.2⟩

/-- An `xfer` of program 0 that names engine 127. -/
def xferNamed : TileWord := 0#64 ++ (0#64 ++ (0xFF00000#64 ++ 0x330#64))
/-- An `xfer` at the head of its queue. -/
def sending (named : Bool) (f : Queued → Queued) (s : State := base) : State :=
  let s := s.withTileWord xferWord.toNat
  { s.updCore 0 (fun k => { k with xq := k.xq.map (fun q => f { q with word := if named then xferNamed else xferWord }) }) with
    cur := .queue 0 true, agenda := [] }

/-- Eight unretired commands. -/
def eightCmds : List Cmd := (List.range 8).map (fun n => cmd (n + 1) .mvNop .active)

/-- A context with a READY storage pair 0. -/
def storageCtx : Ctx := { Ctx.create 8 [] with pairs := [(0, { Pair.init with sst := 2 })] }
/-- Each data word with the block it names: kernel 1 in context 0, a0 and a1 in core 0, a2 = 0, a3 = 1, a windrow of 4 rows of
64 bytes at 0x2000, and a copy issued before. -/
def dataCases : List (Instr × Nat × List Byte) :=
  let w : DataWord := copyOp
  [(.mvCopy w, 1, oneFp32), (.mvCvt w, 1, oneFp32), (.mvTpose w, 1, oneFp32), (.mvGath { w with src2 := 2 }, 1, oneFp32),
   (.mvScat { w with src2 := 2 }, 1, oneFp32), (.mvRed w, 1, leBytes 4 1 ++ leBytes 4 0x2000001 ++ leBytes 24 0),
   (.mvMcast w, 1, leBytes 4 1 ++ leBytes 4 1 ++ leBytes 16 0 ++ leBytes 8 1),
   (.mvWin { w with dst := 2, src1 := 3 }, 1, leBytes 4 0 ++ leBytes 4 1 ++ leBytes 24 0),
   (.mvZip w, 1, leBytes 4 0xE0000020 ++ leBytes 4 1 ++ leBytes 24 0), (.mvUnzip w, 1, leBytes 4 0x0E000020 ++ leBytes 4 1 ++ leBytes 24 0),
   (.mvAtom 2 0 1 0 0 false, 1, []), (.mvCsum 0, 1, []), (.mvCsumSrc 0, 1, []), (.mvNvm 2 1 3 0 true, 1, [])]
def anyWindrow : Windrow := { Windrow.zero with en := true, base := 0x2000, rows := 4, pitch := 64 }
def forData (blk : List Byte) : State :=
  let s := onRun (fun r => { r with last := some 1, a := ((r.a.set 0 (coreAt 0x1000)).set 1 (coreAt 0)).set 3 1 })
    (withCmds [cmd 1 (.mvCopy copyOp) .retired])
  let s := onCore (fun k => { k with windrows := k.windrows.set 0 anyWindrow }) s
  { (s.setMem (s.mem.setNum (moveLoc 0 + 0x20) 32 (leNat blk))) with ctxs := [(0, storageCtx)] }

def dataReady (x : Instr × Nat × List Byte) : Bool :=
  match (forData x.2.2).moveEnv with
  | some e => decide (dataWord (forData x.2.2) e x.1 = some (x.2.2, x.2.1, false)) && e.r.atomW == none &&
      checksB (forData x.2.2) e x.1 x.2.2 x.2.1
  | none => false

theorem witness_MoveCommandsAreIssued :
    -- every data word with its checks met
    dataCases.all dataReady = true ∧
    -- a word that has found the engine full, before the retire counter has advanced
    (∃ e, (onRun (fun r => { r with stuck := some 0 })).moveEnv = some e ∧ e.r.stuck = some e.e.retire) ∧
    -- a copy, an atomic that returns, a checksum of the last command, a copy of no rows, an illegal block, a busy engine
    (∃ e, (issuing 0x100000001).moveEnv = some e ∧ e.r.atomW = none ∧
      dataWord (issuing 0x100000001) e (.mvCopy copyOp) = some (oneFp32, 1, false) ∧
      ((e.e.cmds.filter (fun c => !c.st.gone)).length < 8 ∧ e.r.stuck ≠ some e.e.retire) ∧ dataChecks (issuing 0x100000001) e (.mvCopy copyOp) oneFp32 1) ∧
    (∃ e, (engine id).moveEnv = some e ∧ e.r.atomW = none ∧
      dataWord (engine id) e (.mvAtom 0 1 2 9 1 true) = some ([], 1, false) ∧
      ((e.e.cmds.filter (fun c => !c.st.gone)).length < 8 ∧ e.r.stuck ≠ some e.e.retire) ∧ dataChecks (engine id) e (.mvAtom 0 1 2 9 1 true) [] 1) ∧
    (∃ e, (issuing 1).moveEnv = some e ∧ e.r.atomW = none ∧
      dataWord (issuing 1) e (.mvCopy copyOp) = some (leBytes 4 1 ++ leBytes 28 0, 0, false) ∧
      ((e.e.cmds.filter (fun c => !c.st.gone)).length < 8 ∧ e.r.stuck ≠ some e.e.retire) ∧
      dataChecks (issuing 1) e (.mvCopy copyOp) (leBytes 4 1 ++ leBytes 28 0) 0) ∧
    (∃ e, (issuing 0).moveEnv = some e ∧ dataWord (issuing 0) e (.mvCopy copyOp) = some (leBytes 32 0, 0, false) ∧
      dataOk (.mvCopy copyOp) e.r.a { blkOf (leBytes 32 0) with rows := 0 } = false ∧ liveRun base e = true ∧
      (e.e.cmds.filter (fun c => !c.st.gone)).length < 8 ∧ e.r.stuck ≠ some e.e.retire) ∧
    (∃ e, (withCmds eightCmds).moveEnv = some e ∧ dataWord (withCmds eightCmds) e (.mvAtom 0 1 2 0 0 false) = some ([], 1, false) ∧
      8 ≤ (e.e.cmds.filter (fun c => !c.st.gone)).length) ∧
    -- xfer: each state of its wait, an engine it names that is free and that runs, and any engine
    (∀ f : SheafWait, ∃ q, (sending false (fun q => { q with wait := f })).queueEnv true = some (0, q) ∧ q.wait = f) ∧
    ((∃ q, (sending true id).queueEnv true = some (0, q)) ∧ ((sending true id).eng (nearDie 0 * 128 + 127)).run = none) ∧
    ((∃ q, (sending true id (engine id)).queueEnv true = some (0, q)) ∧
      ((sending true id ((engine id).updEng 127 (fun _ => (engine id).eng 0))).eng (nearDie 0 * 128 + 127)).run ≠ none) ∧
    ((∃ q, (sending false id).queueEnv true = some (0, q)) ∧ ((sending false id).eng (nearDie 0 * 128 + 0)).run = none) := by
  and_intros <;> first
    | decide +kernel
    | exact issue_with (by decide +kernel)
    | exact move_with (by decide +kernel)
    | exact ⟨_, rfl⟩
    | (intro f; cases f <;> exact ⟨_, rfl, rfl⟩)

/-- One element of a copy whose registration is live, in a box of one element or of two. -/
def elemOf (op : Instr) (blk : List Byte) : Cmd :=
  { cmd 1 op .active (coreAt 0x1000) (coreAt 0) blk with slots := [{ box := 0, ph := false, cur := 0, saved := [] }] }
def boxed (op : Instr) (blk : List Byte) : State :=
  let s := onCore (fun k => { k with sb := [(0, { lo := 0, hi := 0, eng := 0, num := 1, mark := 0, live := true })] })
  { withCmds [elemOf op blk] s with cur := .box 0 1 0 1 }

/-- Two resolutions, one after the other. -/
theorem ok_two {α β ε δ : Type} {r : State × Except ε α} {f : State → α → State × Except δ β} {p : State → α → State → β → Prop}
    [∀ u a v b, Decidable (p u a v b)]
    (h : (match r with
      | (u, .ok a) =>
        (match f u a with
        | (v, .ok b) => decide (p u a v b)
        | _ => false)
      | _ => false) = true) : ∃ u a v b, r = (u, .ok a) ∧ f u a = (v, .ok b) ∧ p u a v b := by
  split at h
  · rename_i u a
    split at h
    · rename_i v b hv
      exact ⟨u, a, v, b, rfl, hv, of_decide_eq_true h⟩
    · cases h
  · cases h

/-- What the statement about elements asks of its state once the accesses are resolved. -/
abbrev elemReady (m : Mover) (s2 : State) (rs : List (Acc × List Piece)) : Prop :=
  s2.mustWait m rs = false ∧ s2.mem.wf = true ∧
  (∀ q ∈ rs, ∀ x ∈ q.2, x.far = false ∧ ∀ j, j < x.n → s2.isLive (x.loc + j) = true) ∧
  (s2.kernels.get? m.c.lid).all (fun k => !k.rb) = true

theorem witness_MoveElementsAreWritten :
    -- the last element of a box and one that is not; no element of the command is at a switch
    (∀ blk ∈ [oneFp32, leBytes 4 2 ++ leBytes 4 1 ++ leBytes 24 0], (boxed (.mvCopy copyOp) blk).cur = .box 0 1 0 1 ∧
      ((boxed (.mvCopy copyOp) blk).eng 0).cmd 1 = some (elemOf (.mvCopy copyOp) blk) ∧
      (boxed (.mvCopy copyOp) blk).contribs = []) ∧
    (elemOf (.mvCopy copyOp) oneFp32).boxLen 0 = 1 ∧
    (elemOf (.mvCopy copyOp) (leBytes 4 2 ++ leBytes 4 1 ++ leBytes 24 0)).boxLen 0 = 2 ∧
    (elemOf (.mvCopy copyOp) oneFp32).slot 0 = some { box := 0, ph := false, cur := 0, saved := [] } ∧
    isBlock (elemOf (.mvCopy copyOp) oneFp32).bk.sf = false ∧ isBlock (elemOf (.mvCopy copyOp) oneFp32).bk.df = false ∧
    -- a gather of an index below the limit and at it
    (0 : Nat) < (elemOf (.mvGath copyOp) (leBytes 4 1 ++ leBytes 4 1 ++ leBytes 16 0 ++ leBytes 8 1)).bk.ex % 2 ^ 32 ∧
    -- values of a sum that is not zero and of one that is; an integer format and none
    hasValue (decodeE fFP32 0x3F800000) 1 ∧ hasValue (decodeE fFP32 0xBF800000) (-1) ∧ ifmt 0 = none ∧ ifmt 10 = some (8, true) ∧
    decodeE fFP32 0x7F800000 = .inf false ∧ decodeE fFP32 0xFF800000 = .inf true ∧ (decodeE fFP32 0x7FC00000).isNaN = true := by
  and_intros <;> first
    | decide +kernel
    | exact ⟨_, _, _, rfl, by norm_num [dyadic]⟩

theorem witness_MoveElementsResolve :
    let c := elemOf (.mvCopy copyOp) oneFp32
    let m : Mover := { id := 0, c := c, box := 0 }
    ∃ s1 g s2 rs, (boxed (.mvCopy copyOp) oneFp32).readIndex m (c.boxLo 0) = (s1, .ok g) ∧
      (fun (u : State) (g : Nat) =>
        let p := c.plan (c.boxLo 0) 0 g
        u.resolveAll m (p.srcs ++ p.old.toList ++ p.dsts) []) s1 g = (s2, .ok rs) ∧ elemReady m s2 rs := by
  intro c m
  exact ok_two (p := fun _ _ s2 rs => elemReady m s2 rs) (by decide +kernel)

/-- A `mv.scat` of a row of one FP32 element, whose index is 0, in a phase. -/
def scatCmd (ph : Bool) (saved : List (Nat × List Byte)) : Cmd :=
  let c := elemOf (.mvScat { copyOp with src2 := 2 }) (leBytes 4 1 ++ leBytes 4 1 ++ leBytes 16 0 ++ leBytes 8 1)
  { c with a := c.a.set 2 (coreAt 0x2000), slots := [{ box := 0, ph := ph, cur := 0, saved := saved }] }
def scattering (ph : Bool) (saved : List (Nat × List Byte)) : State :=
  let s := onCore (fun k => { k with sb := [(0, { lo := 0, hi := 0, eng := 0, num := 1, mark := 0, live := true })] })
  { withCmds [scatCmd ph saved] s with cur := .box 0 1 0 1 }

/-- A checksum to 0x1000 of core 0 of the bytes of command 1. -/
def sumCmd (src : Bool) : Cmd :=
  { cmd 2 (if src then .mvCsumSrc 0 else .mvCsum 0) .active (coreAt 0x1000) with
    slots := [{ box := 0, ph := false, cur := 0, saved := [] }] }
def covered : Cmd := { cmd 1 (.mvCopy copyOp) .retired with wrote := [(1, 7), (2, 8)], readB := [(5, 9)] }
def summing (src : Bool) : State :=
  let s := onCore (fun k => { k with sb := [(0, { lo := 0, hi := 0, eng := 0, num := 2, mark := 0, live := true })] })
  { withCmds [covered, sumCmd src] s with cur := .box 0 2 0 1 }

theorem ok_one {s : State} {m : Mover} {a : Acc} {p : State → Piece → Prop} [∀ u x, Decidable (p u x)]
    (h : (match s.resolveAll m [a] [] with
      | (u, .ok [(b, [x])]) => decide (b = a ∧ p u x)
      | _ => false) = true) : ∃ u x, s.resolveAll m [a] [] = (u, .ok [(a, [x])]) ∧ p u x := by
  split at h
  · rename_i u b x hr
    obtain ⟨rfl, hp⟩ := of_decide_eq_true h
    exact ⟨u, x, hr, hp⟩
  · cases h

/-- What the statements about single writes ask of their state, once the access is resolved. -/
abbrev oneReady (m : Mover) (a : Acc) (n : Nat) (u : State) (x : Piece) : Prop :=
  u.mustWait m [(a, [x])] = false ∧ x.n = n ∧ x.far = false ∧ u.mem.wf = true ∧ (∀ j, j < n → u.isLive (x.loc + j) = true) ∧
    (u.kernels.get? m.c.lid).all (fun k => !k.rb) = true

theorem witness_ScattersAndChecksums :
    -- a read of a scatter, and the saved element of a box that writes
    (let c := scatCmd false []
     let m : Mover := { id := 0, c := c, box := 0 }
     let s := scattering false []
     s.cur = .box 0 1 0 1 ∧ (s.eng 0).cmd 1 = some c ∧ c.slot 0 = some { box := 0, ph := false, cur := 0, saved := [] } ∧
     ∃ s1 g s2 rs, s.readIndex m (c.boxLo 0) = (s1, .ok g) ∧
       (fun (u : State) (g : Nat) => u.resolveAll m (c.plan (c.boxLo 0) 0 g).srcs []) s1 g = (s2, .ok rs) ∧
       (s2.mustWait m rs = false ∧ s2.mem.wf = true ∧ ∀ q ∈ rs, ∀ x ∈ q.2, x.far = false)) ∧
    (let c := scatCmd true [(0, [1, 2, 3, 4])]
     let m : Mover := { id := 0, c := c, box := 0 }
     let s := scattering true [(0, [1, 2, 3, 4])]
     s.cur = .box 0 1 0 1 ∧ (s.eng 0).cmd 1 = some c ∧ c.slot 0 = some { box := 0, ph := true, cur := 0, saved := [(0, [1, 2, 3, 4])] } ∧
     ∃ a, (c.plan (c.boxLo 0) (0 % 2 ^ c.bk.gs * c.bk.cols + 0 % c.bk.cols) (0 / 2 ^ c.bk.gs)).dsts = [a] ∧ a.w = 0 ∧
       ∃ u x, s.resolveAll m [a] [] = (u, .ok [(a, [x])]) ∧ oneReady m a 4 u x) ∧
    -- an entry that reads no row
    (scatCmd true [(9, [])]).slot 0 = some { box := 0, ph := true, cur := 0, saved := [(9, [])] } ∧
    -- checksums of the bytes written and of those read
    (∀ src, let c := sumCmd src
     let m : Mover := { id := 0, c := c, box := 0 }
     (summing src).cur = .box 0 2 0 1 ∧ ((summing src).eng 0).cmd 2 = some c ∧ ((summing src).eng 0).cmd 1 = some covered ∧
     c.slot 0 = some { box := 0, ph := false, cur := 0, saved := [] } ∧ (c.boxLen 0 ≤ 1) ∧
     let a := bytesAcc (c.reg 0) 0 4 false true true
     ∃ u x, (summing src).resolveAll m [a] [] = (u, .ok [(a, [x])]) ∧ oneReady m a 4 u x) ∧
    ((covered.wrote).map (·.1)).Pairwise (· < ·) ∧
    -- tables of block formats: both sides, the source, and the target of each word that may have them
    (let bk (f : Nat) : List Byte := leBytes 4 (f * 2 ^ 24 + 0x20) ++ leBytes 4 1 ++ leBytes 24 0
     isBlock (elemOf (.mvCopy copyOp) (bk 0x66)).bk.sf = true ∧ (elemOf (.mvCopy copyOp) (bk 0x66)).bk.df = 6 ∧
     isBlock (elemOf (.mvCvt copyOp) (bk 0x06)).bk.sf = true ∧ isBlock (elemOf (.mvCvt copyOp) (bk 0x06)).bk.df = false ∧
     isBlock (elemOf (.mvZip copyOp) (bk 0x90)).bk.df = true ∧ isBlock (elemOf (.mvZip copyOp) (bk 0x90)).bk.sf = false ∧
     isBlock (elemOf (.mvUnzip copyOp) (bk 0x09)).bk.sf = true ∧ isBlock (elemOf (.mvUnzip copyOp) (bk 0x09)).bk.df = false) := by
  and_intros <;> first
    | decide +kernel
    | exact ok_two (p := fun _ _ s2 rs => s2.mustWait _ rs = false ∧ s2.mem.wf = true ∧ ∀ q ∈ rs, ∀ x ∈ q.2, x.far = false)
        (by decide +kernel)
    | exact ⟨_, rfl, by decide +kernel, ok_one (p := oneReady _ _ 4) (by decide +kernel)⟩
    | (intro src
       cases src <;> exact ⟨by decide +kernel, by decide +kernel, by decide +kernel, by decide +kernel, by decide +kernel,
         ok_one (p := oneReady _ _ 4) (by decide +kernel)⟩)

/-- A `mv.copy` to core 0, in a state, and an older command before it. -/
def copyIn (st : CmdSt) : Cmd := cmd 2 (.mvCopy copyOp) st (coreAt 0x1000) (coreAt 0) oneFp32
/-- A scoreboard with no entry free. -/
def fullSb : Tbl SbEntry := (List.range 32).map (fun i => (i, { lo := 0, hi := 0, eng := 1, num := 1, mark := 0, live := true }))
def doneCopy : Cmd := { copyIn .active with bmp := 1 }

theorem witness_MoveCommandsStartAndRetire :
    -- start: not issued, behind a command it waits for, free to start; retire: incomplete, complete
    ((withCmds [copyIn .active]).eng 0).cmd 2 = some (copyIn .active) ∧
    (∃ c, ((withCmds [cmd 1 .mvNop .active, { copyIn .issued with after := true }]).eng 0).cmd 2 = some c ∧ c.st = .issued ∧
      c.after = true ∧ ∃ d ∈ ((withCmds [cmd 1 .mvNop .active, { copyIn .issued with after := true }]).eng 0).cmds,
        d.num < 2 ∧ d.st.gone = false) ∧
    (∃ c, ((withCmds [copyIn .issued]).eng 0).cmd 2 = some c ∧ c.st = .issued ∧ c.after = false) ∧
    ((withCmds [copyIn .active]).cmdComplete 0 (copyIn .active) = false) ∧
    (((withCmds [cmd 1 .mvNop .retired, doneCopy]).eng 0).cmd 2 = some doneCopy ∧
      (withCmds [cmd 1 .mvNop .retired, doneCopy]).cmdComplete 0 doneCopy = true ∧
      (∀ d ∈ ((withCmds [cmd 1 .mvNop .retired, doneCopy]).eng 0).cmds, d.st.gone = false →
        ((withCmds [cmd 1 .mvNop .retired, doneCopy]).eng 0).retire < d.num)) ∧
    -- registration with a free entry and with none
    ((copyIn .active).ranges (withCmds [copyIn .active])).filter (fun r => r.1 = 0) =
      [(0, (dspLoc 0 0x1000, dspLoc 0 0x1040))] ∧
    (withCmds [copyIn .active]).peerCase 1 0 = .served (teamKey 1 0) ∧ ((withCmds [copyIn .active]).core 0).sb = [] ∧
    ((∀ i, i < 32 → fullSb.get? i ≠ none) ∧ (∀ e ∈ fullSb, ¬(e.2.eng = 0 ∧ e.2.num = 2)) ∧ (0 : Nat) ∉ (copyIn .active).full) ∧
    -- runs
    (∃ r, ((engine id).eng 0).run = some r ∧ r.ended = false) ∧
    (∃ r, ((onRun (fun r => { r with ended := true })).eng 0).run = some r ∧ r.ended = true ∧
      ∀ c ∈ ((onRun (fun r => { r with ended := true })).eng 0).cmds, c.st.gone = true) := by
  and_intros <;> decide +kernel

/-- An error at the command's destination. -/
def trouble : Trouble := { va := 0, box := 3, arr := 2, old := true }
def suspended : Cmd := { copyIn .suspended with susp := some (0x5, 0x12345678) }
def event (nmrg : Word) : FaultEvent :=
  { behind := 0, ctx := 0, code := 0, wr := false, nmrg := nmrg, fva := 0x12340000, eng := 5, lid := 1, num := 1 }
/-- The event of `suspended`. -/
def mine : FaultEvent := { event 1 with wr := true, fva := 0x12345678, eng := 0, num := 2 }
def onDie (f : Die → Die) (s : State) : State := s.updDie 0 f

/-- A walk of address 0x10000 in context 0, for command 2 of engine 0, with its level 3 table at 0x100 of package 0. -/
def walkReq : WalkReq := { seq := 1, eng := 0, num := 2, box := 0, mva := 0x10000, rd := true, wr := false, wbit := false }
def walkOf (reqs : List WalkReq) : Walk := { ctx := 0, va := 0x10000, eng := 0, taken := true, out := none, req := reqs }
def walkFor (reqs : List WalkReq) (leaf : Nat) : State :=
  let s := onDie (fun d => { d with walks := [walkOf reqs]
                                    wcache := [{ ctx := 0, lvl := 3, va := 0, tbl := 0x100 }] }) (withCmds [copyIn .active])
  { s.setMem (s.mem.setNum 0x108 8 leaf) with pkg := some 0 }

/-- The walk behind an access of the same engine that was asked for before, and its table with a poisoned word. -/
def walkAfter : State :=
  onDie (fun d => { d with walks := d.walks ++ [{ walkOf [{ walkReq with seq := 0 }] with va := 0x20000 }] }) (walkFor [walkReq] 0)
def badTable (s : State) : State := { s with poison := [0x100] }
/-- An element of command 2 that has been sent to a switch over a link that carries traffic. -/
def contribution : Contribution :=
  { lid := 1, pkg := 1, eng := 0, num := 2, elem := 0, box := 0, va := 0, pa := 2 ^ 41, fmt := fFP32, op := 10, sat := false
    val := 0x3F800000, cmp := 0, fl := 0, accepted := false }
def sender : Cmd := { copyIn .active with slots := [{ box := 0, ph := false, cur := 0, saved := [] }] }
def sentOut : State :=
  { onDie (fun d => { d with links := [(0, { Link.init with st := .active })] }) (withCmds [sender]) with contribs := [contribution] }
/-- A storage command that has been sent, with 512 bytes at 0x100000. -/
def nvmSlot : BoxSlot := { box := 0, ph := true, cur := 0, saved := [(0x100000, [])] }
def nvmCmd (dir : Bool) : Cmd :=
  let c := cmd 1 (.mvNvm 2 1 3 0 dir) .active
  { c with a := (c.a.set 3 1).set 2 0x10000, slots := [nvmSlot] }
def stored (dir : Bool) : State := { withCmds [nvmCmd dir] with pkg := some 0, live := [16] }

theorem witness_MoveFaultsSuspendOrEndTheirCommand :
    (∃ c, ((withCmds [{ copyIn .active with ue := some trouble }]).eng 0).cmd 2 = some c ∧ c.ue = some trouble ∧ c.st = .active) ∧
    (∃ c, ((withCmds [{ copyIn .active with far := some trouble }]).eng 0).cmd 2 = some c ∧ c.far = some trouble ∧ c.st = .active) ∧
    (((withCmds []).kernels.get? 1).any (fun k => k.st.live && k.fl.fk == 0 && !k.rb)) = true ∧
    -- fault events: the first, one that merges below the greatest count and at it, a full queue
    (∀ q ∈ [[], [event 7], [event 0xFFFFFFFF], List.replicate 1024 { event 1 with ctx := 1 }],
      let s := onDie (fun d => { d with faults := q, posts := [mine] }) (withCmds [suspended])
      (s.eng 0).cmd 2 = some suspended ∧ (s.die (engDie 0)).posts = [] ++ mine :: [] ∧ (s.die (engDie 0)).faults = q) ∧
    ((withCmds [suspended]).die (engDie 0)).posts = [] ∧ mine.eng = 0 ∧ mine.num = 2 ∧
    (event 7).fva.toNat / 65536 = mine.fva.toNat / 65536 ∧ (event 7).ctx = mine.ctx ∧ (event 7).code = mine.code ∧
    ({ event 1 with ctx := 1 } : FaultEvent).ctx ≠ mine.ctx ∧
    -- walks: not taken, nobody waits, a fault, a leaf that may be read
    (((onDie (fun d => { d with walks := [{ walkOf [] with taken := false }] }) (walkFor [] 0)).die 0).walks[0]? =
      some { walkOf [] with taken := false }) ∧
    ((walkFor [] 0).die 0).walks[0]? = some (walkOf []) ∧
    (((walkFor [walkReq] 0).die 0).walks[0]? = some (walkOf [walkReq]) ∧ ((walkFor [walkReq] 0).die 0).walks.eraseIdx 0 = [] ∧
      ((walkFor [walkReq] 0).walk 0 0 0x10000).fin = .fault 0 ∧ engDie walkReq.eng = 0 ∧
      ((walkFor [walkReq] 0).eng walkReq.eng).cmd walkReq.num = some (copyIn .active) ∧ (copyIn .active).ue = none ∧
      savedBytes { copyIn .active with slots := (copyIn .active).slots.map (fun b => b.held (copyIn .active)) } = 0 ∧
      (walkFor [walkReq] 0).contribs = []) ∧
    ((walkFor [walkReq] 0x20000000017).walk 0 0 0x10000).fin = .leaf 0x20000000017 0x10000 ∧
    -- its table read with no error, and with one
    (let s := walkFor [walkReq] 0;
      (s.walkRead 0 (s.walk 0 0 0x10000)).2 = none ∧ ((badTable s).walkRead 0 (s.walk 0 0 0x10000)).2 ≠ none) ∧
    -- a leaf that may be read and may not be written
    (match (walkFor [walkReq] 0x20000000017).useLeaf 0 0x10000 0x20000000017 0x10000 true false with
      | .ok x => x == (2 ^ 41, 1)
      | .error _ => false) = true ∧
    (match (walkFor [walkReq] 0x20000000017).useLeaf 0 0x10000 0x20000000017 0x10000 true true with
      | .ok _ => false
      | .error code => code == 1) = true ∧
    tlbFind ((walkFor [walkReq] 0x20000000017).die 0).tlb 0 0x10000 = none ∧
    -- an earlier walk of the same engine
    ((walkAfter.die 0).walks[0]? = some (walkOf [walkReq]) ∧ ((walkAfter.die 0).walks.eraseIdx 0).all (fun v => v.out.isNone) = true ∧
      ((walkAfter.die 0).walks.eraseIdx 0).any (fun v => v.req.any (fun q => q.eng == walkReq.eng && decide (q.seq < walkReq.seq))) =
        true) ∧
    -- an access of a switch that no link carries
    (sentOut.contribs.find? (fun x => decide (x.eng = 0 ∧ x.num = 2) && !x.accepted)).isSome = true := by
  and_intros <;> decide +kernel

/-- A `mv.win` that serves windrow 0 of core 0, whose rows of 64 bytes come from address `src` of device memory. -/
def winCmd (src : Nat) (rows : Nat) : Cmd :=
  { cmd 1 (.mvWin { copyOp with dst := 2 }) .active (coreAt 0x1000) (BitVec.ofNat 64 src) (leBytes 4 0 ++ leBytes 4 rows ++ leBytes 24 0) with
    rows := rows }
def winState (src rows : Nat) (f : Windrow → Windrow) : State :=
  let s := onCore (fun k => { k with
    windrows := k.windrows.set 0 (f { anyWindrow with served := some (0, 1) })
    sb := [(0, { lo := 0, hi := 0, eng := 0, num := 1, mark := 0, live := true })] })
  let s := onKernel (fun k => { k with desc := { k.desc with sv := true, slo := 0, shi := 0 } }) (withCmds [winCmd src rows] s)
  let s := onDie (fun d => { d with l1 := [(0, [{ ctx := 0, va := 0x10000, size := 0x10000, leaf := 0x1001F }])] }) s
  { s with pkg := some 0, ctxs := [(0, { storageCtx with grants := [(0, 0x200000)] })] }
/-- What the next bytes of its row read and where they go. -/
def winSrc (c : Cmd) (k : Nat) : List Acc :=
  if 0 < c.rows then [{ bytesAcc (c.reg 1) ((c.done : Nat) : Int) k true false false with lo := 0, hi := 64 }] else []
def winDst (c : Cmd) (k : Nat) : Acc :=
  { bytesAcc (BitVec.ofNat 64 (2 ^ 62)) ((0x2000 + c.done : Nat) : Int) k false true true with lo := 0x2000, hi := 0x2000 + 64 }

theorem witness_WindrowRowsAndStorageComplete :
    -- a row that arrives whole, one whose first half ends its source's granule, one past the rows of the command, and the second
    -- half of one that has begun, after the windrow was switched off
    (∀ x ∈ [(winCmd 0x10000 1, 0x10000, 64, true), (winCmd 0x1FFE0 1, 0x1FFE0, 32, true), (winCmd 0x10000 0, 0x10000, 64, true),
        ({ winCmd 0x10000 1 with done := 32, row := some { anyWindrow with served := some (0, 1) } }, 0x10000, 32, false)],
      let c := x.1
      let s := { winState x.2.1 c.rows (fun w => { w with en := x.2.2.2 }) with } |>.updCmd 0 1 (fun _ => c)
      let m : Mover := { id := 0, c := c, box := 0 }
      let now := (s.core 0).windrows[0]
      let begun : State := s.updCmd 0 1 (fun c => { c with row := some (c.row.getD now) })
      (s.eng 0).cmd 1 = some c ∧ (c.row.isSome = true ∨ now.en = true ∧ now.served = some (0, 1) ∧ (now.arrived - now.head).toNat < now.rows.toNat) ∧
      c.done < 64 ∧ s.peerCase 1 0 = .served (teamKey 1 0) ∧
      (s.kernels.get? 1).any (fun k => k.desc.ownsSem (s.core 0).windrows[0].sem.toNat) = true ∧
      ∃ s1 rs s2 ds, begun.resolveAll m (winSrc c x.2.2.1) [] = (s1, .ok rs) ∧ s1.resolveAll m [winDst c x.2.2.1] [] = (s2, .ok ds) ∧
        s2.mustWait m (rs ++ ds) = false ∧ s2.mem.wf = true ∧ (∀ q ∈ rs, ∀ p ∈ q.2, p.far = false) ∧
        (ds.flatMap (fun q => q.2)).map (fun p => (p.loc, p.n, p.far)) = [(dspLoc 0 (0x2000 + c.done), x.2.2.1, false)]) ∧
    -- a windrow with no room
    (let w := ((winState 0 1 (fun w => { w with arrived := 4 })).core 0).windrows[0];
      ¬(w.arrived - w.head).toNat < w.rows.toNat) ∧
    -- a storage command that has been sent, in each direction
    (∀ dir, ((stored dir).eng 0).cmd 1 = some (nvmCmd dir) ∧ (nvmCmd dir).slots = [nvmSlot] ∧ nvmSlot.ph = true ∧
      (stored dir).nvmLen (nvmCmd dir) = 512 ∧ nvmPieces (nvmCmd dir) 512 2 = [(((nvmCmd dir).reg 2).toNat % 2 ^ 62, 512)] ∧
      nvmSlot.saved = [(0x100000, [])] ∧ (stored dir).isOwn 0x100000 = true ∧ (stored dir).mem.wf = true ∧
      (∀ j, j < 512 → (stored dir).isLive (0x100000 + j) = true) ∧ ((stored dir).kernels.get? 1).all (fun k => !k.rb) = true ∧
      ((stored dir).kernels.get? 1).any (fun k => k.st.live && k.fl.fk == 0) = true) ∧
    -- its buffer in another package, which no link reaches
    ((withCmds [nvmCmd false]).linked = false ∧ (withCmds [nvmCmd false]).isOwn 0x100000 = false ∧ nvmSlot.saved[0]? = some (0x100000, [])) := by
  refine ⟨?_, by decide +kernel, ?_, by decide +kernel⟩
  · intro x hx
    fin_cases hx <;>
      refine ⟨?_, ?_, ?_, ?_, ?_, ok_two (f := fun u _ => u.resolveAll _ [winDst _ _] []) (p := fun _ rs s2 ds => s2.mustWait _ (rs ++ ds) = false ∧
          s2.mem.wf = true ∧ (∀ q ∈ rs, ∀ p ∈ q.2, p.far = false) ∧
          (ds.flatMap (fun q => q.2)).map (fun p => (p.loc, p.n, p.far)) = [(dspLoc 0 (0x2000 + _), _, false)]) ?_⟩ <;> decide +kernel
  · intro dir
    cases dir <;> decide +kernel

/-- A storage command that has translated nothing, and one that has translated its buffer, in a box that acts. -/
def nvmBegun (saved : List (Nat × List Byte)) (dir : Bool) : Cmd := { nvmCmd dir with slots := [{ nvmSlot with ph := false, saved := saved }] }
def nvmState (saved : List (Nat × List Byte)) (dir : Bool) : State :=
  let s := onDie (fun d => { d with l1 := [(0, [{ ctx := 0, va := 0x10000, size := 0x10000, leaf := 0x1001F }])] })
    (withCmds [nvmBegun saved dir])
  { s with pkg := some 0, ctxs := [(0, { storageCtx with grants := [(0, 0x200000)] })], cur := .box 0 1 0 1 }

theorem witness_StorageCommandsSend :
    (∀ dir, ((nvmState [] dir).eng 0).cmd 1 = some (nvmBegun [] dir) ∧ (nvmState [] dir).cur = .box 0 1 0 1 ∧
      (nvmBegun [] dir).slot 0 = some { nvmSlot with ph := false, saved := [] } ∧
      (nvmPieces (nvmBegun [] dir) ((nvmState [] dir).nvmLen (nvmBegun [] dir)) 2)[0]? = some (0x10000, 512) ∧
      (match (nvmState [] dir).resolve { id := 0, c := nvmBegun [] dir, box := 0 }
          (bytesAcc ((nvmBegun [] dir).reg 2) 0 512 dir (!dir) (!dir)) with
        | (_, .ok [_]) => true
        | _ => false) = true) ∧
    (∀ dir, let s := nvmState [(0x100000, [])] dir
      let c := nvmBegun [(0x100000, [])] dir
      let b : BoxSlot := { nvmSlot with ph := false }
      (s.eng 0).cmd 1 = some c ∧ c.slot 0 = some b ∧ (nvmPieces c (s.nvmLen c) 2).length ≤ b.saved.length ∧
      s.mustWait { id := 0, c := c, box := 0 } [(bytesAcc (c.reg 2) 0 (s.nvmLen c) dir (!dir) (!dir), s.nvmPlaces b (nvmPieces c (s.nvmLen c) 2))] = false ∧
      (∀ q ∈ s.nvmPlaces b (nvmPieces c (s.nvmLen c) 2), q.far = false) ∧ s.poison = [] ∧ s.injected = [] ∧ s.mem.wf = true) := by
  constructor <;> intro dir <;> cases dir <;> decide +kernel

theorem witness_ContributionsApplyOnce :
    -- formats and values of the sums and of the atomics
    (contribution.op = 10 ∧ ffmt contribution.fmt = some ⟨8, 23, 127, .ieee⟩ ∧ isBlock contribution.fmt = false ∧
      hasValue (decodeE contribution.fmt 0x3F800000) 1 ∧ hasValue (decodeE fFP32 contribution.val.toNat) 1 ∧
      hasValue (decodeE contribution.fmt 0xBF800000) (-1)) ∧
    ({ contribution with fmt := fI32 } : Contribution).fmt = fI32 ∧
    ((cmd 1 (.mvAtom 0 1 2 9 1 true) .active).op = .mvAtom 0 1 2 9 1 true ∧ (0 : Nat) < 2 ^ (8 * ({ contribution with fmt := 15 } : Contribution).size)) ∧
    -- over a link: the one contribution that is sent, its command's box at its last element; and at one before it
    (sentOut.contribs = [] ++ contribution :: [] ∧ contribution.accepted = false ∧ contribution.pkg = 1 ∧ sentOut.linked = true ∧
      ∃ b, (sentOut.eng 0).cmd 2 = some sender ∧ sender.st.gone = false ∧
        sender.slots.find? (fun b => b.box = contribution.box) = some b ∧ sender.boxLen b.box ≤ b.cur + 1) ∧
    base.contribs = [] ∧ base.linked = false ∧
    -- an atomic that its engine waits for
    (∃ r, ((onRun (fun r => { r with atomW := some (2, 3) })).eng 0).run = some r ∧ r.atomW = some (2, 3)) ∧
    -- one that the switch has accepted and not delivered
    (let s : State := { sentOut with contribs := [{ contribution with accepted := true }] };
      s.mem.wf = true ∧ (s.contribs.find? (fun y => y.accepted && decide (y.pa = 2 ^ 41))).isSome = true) := by
  and_intros <;> first
    | decide +kernel
    | exact one_fp32
    | exact ⟨_, _, _, rfl, by norm_num [dyadic]⟩
    | exact ⟨{ box := 0, ph := false, cur := 0, saved := [] }, by decide +kernel⟩

/-! ### Teams and kernels (06, 12 to 15) -/

/-- The kernel has two teams; the second waits in the loft bank, in a slot, or for its first core. -/
def second (f : Team → Team) (s : State := small 0x100) : State :=
  let s := onKernel (fun k => { k with desc := { k.desc with nsm := 7 } }) s
  { s with teams := s.teams.set (teamKey 1 1) (f (Team.start 1 1 [(0x100, 0x100, 1)])) }
/-- Package 0 with a switch asked for on core 0. -/
def asked (s : State := base) : State := { onCore (fun k => { k with switch := true }) s with pkg := some 0 }
def stopped (s : State := base) : State := onStrand (fun st => { st with st := .stopped }) s

/-- A record of a pipeline with one pipe, whose samples are `q`. -/
def pipeRec (q : List Nat) : Rec :=
  { ctx := 0, qid := 0, seq := 0, form := 3, rb := false, es := false, utag := 0, bad := none, st := .admitted, aged := false
    lids := [1], descs := [], args := [], stages := [(1, 1), (1, 1)], budget := 2
    pipes := [(0, { prd := 0, con := 1, depth := 8, pf := 0, cf := 0, sat := false, q := [1, 2], samples := q })]
    joinLeft := 0, joinSeen := 0, joinBad := false, joinReady := false, parent := none, fl := none, start := 0 }
/-- The kernel as the member of a gang. -/
def gang (s : State := base) : State := { s with recs := [(0, { pipeRec [] with form := 2 })] }
/-- A kernel of no gang on core 0, another of whose teams waits; a gang's team is in the bank there, and its other one on core 1. -/
def outside : State :=
  let s := onCore (fun k => { k with active := some (teamKey 9 0), held := some (teamKey 1 0) }) (gang (duo 0x100))
  let s := s.updTeam (teamKey 1 0) (fun t => { t with place := .held 0 })
  { s with kernels := s.kernels.set 9 { probeKernel with lid := 9, recId := 5 }
           teams := (s.teams.set (teamKey 9 0) { Team.start 9 0 [] with place := .active 0, started := true }).set (teamKey 9 1) (Team.start 9 1 []) }

theorem witness_TeamsSwitchAtTheirPoints :
    -- a quantum that brings a gang back, whose cores switch together
    ((outside.core 0).active = some (teamKey 9 0) ∧ outside.coreOn 0 = true ∧ outside.switchSet outside.cores.length [0] = [0, 1] ∧
      outside.isGang 5 = false ∧ outside.gangOf (teamKey 1 0) = some 0 ∧ (outside.cores.map (·.1)).Nodup ∧
      outside.teams.any (fun e => e.2.lid = 9 && outside.waits e.1 e.2) = true ∧
      ∀ d ∈ [0, 1], outside.maySwitch outside.gangAway d = true) ∧
    -- a parked team of a gang leaves alone
    (let s := onTeam (fun t => { t with parked := true }) gang
     (∀ x ∈ (s.core 0).residents, s.isParked x = true) ∧ s.switchSet s.cores.length [0] = [0]) ∧
    -- no gang on the core; a gang whose cores all switch, and one that must not
    ((∀ x ∈ (base.core 0).residents, base.gangOf x = none) ∧ base.teams.get? (teamKey 1 0) ≠ none) ∧
    (gang.gangOf (teamKey 1 0) = some 0 ∧ gang.switchSet gang.cores.length [0] = [0] ∧ gang.maySwitch gang.gangAway 0 = true ∧
      (gang.cores.map (·.1)).Nodup) ∧
    (let s := onKernel (fun k => { k with desc := { k.desc with lp := true } }) gang
     s.maySwitch s.gangAway 0 = false ∧ s.switchSet s.cores.length [0] = [0]) ∧
    gang.isGang probeKernel.recId = true ∧
    -- a strand in a loop
    ((onStrand (fun st => { st with loops := [level 0 1 false] })).strands.get? (strandKey 1 0)).any (fun st =>
      decide (st.loops ≠ [] ∧ st.st = .running)) = true ∧
    -- walker work holds a switch back
    ((asked (stopped (walking 0))).allStopped (teamKey 1 0) = true ∧ ((asked (stopped (walking 0))).core 0).switch = true ∧
      ((asked (stopped (walking 0))).core 0).stook.any (fun h => decide (h.team = teamKey 1 0 ∧ h.dispAt 0 = true) &&
      (match tileInstr h.word with
        | .twalk .. => true
        | _ => false)) = true) ∧
    -- requests: of a team that may leave, of one that may not, of a parked one; a quantum with and without a waiting team
    ((base.core 0).active = some (teamKey 1 0) ∧ (base.teams.get? (teamKey 1 0)).isSome = true ∧ base.coreOn 0 = true ∧
      base.sems = [] ∧ (base.core 0).switch = false ∧ base.mayLeave probeKernel = true ∧ base.isGang 0 = false ∧
      base.kernels.get? 1 = some probeKernel) ∧
    (onKernel (fun k => { k with desc := { k.desc with lp := true } })).mayLeave
      { probeKernel with desc := { probeKernel.desc with lp := true } } = false ∧
    ((onTeam (fun t => { t with parked := true })).teams.get? (teamKey 1 0)).map (·.parked) = some true ∧
    ((second id).teams.any (fun e => e.2.lid = 1 && (second id).waits e.1 e.2) = true ∧ probeKernel.st.live = true ∧
      probeKernel.desc.lp = false) ∧
    (base.teams.any (fun e => e.2.lid = 1 && base.waits e.1 e.2) = false) ∧ ((asked).core 0).switch = true ∧
    -- switches: a strand runs, all have stopped with an empty bank and with a team in it
    ((asked).allStopped (teamKey 1 0) = false) ∧
    ((asked stopped).allStopped (teamKey 1 0) = true ∧ ((asked stopped).core 0).switch = true ∧
      ((asked stopped).teams.get? (teamKey 1 0)).map (·.blocks) = some [] ∧ ((asked stopped).core 0).held = none) ∧
    (let s := onCore (fun k => { k with held := some (teamKey 1 1), loft := .filled })
        (second (fun t => { t with place := .held 0, started := true, park := some 5 }))
     (s.core 0).held = some (teamKey 1 1) ∧ (s.teams.get? (teamKey 1 1)).any (fun b => b.started && b.park.isSome && !b.parked) = true) ∧
    -- a team in the bank of an empty core that has not started, its kernel loaded
    (let s := onCore (fun k => { k with active := none, switch := true, held := some (teamKey 1 1), loft := .filled })
        (second (fun t => { t with place := .held 0 }))
     (s.core 0).active = none ∧ (s.core 0).held = some (teamKey 1 1) ∧ (s.core 0).switch = true ∧ s.coreOn 0 = true ∧
     (s.teams.get? (teamKey 1 1)).any (fun b => !b.started) = true ∧ (s.kernels.get? 1).any (fun j => decide (j.lid = 1 ∧ j.st ≠ .admitted) &&
       !s.imagesAway j && decide (((((s.updCore 0 (fun x => { x with held := none, loft := .empty, switch := false, due := false })).updTeam
         (teamKey 1 1) (fun y => { y with place := .active 0 })).updCore 0 (fun x => { x with active := some (teamKey 1 1) })).loadTeam j 0).2 =
           Faults.none)) = true) := by
  and_intros <;> decide +kernel

theorem own_below {s : State} (hp : s.pkg = some 0) {z : Nat} (h : z < 2 ^ 41) : s.isOwn z = true := by
  have hz : z / 2 ^ 41 = 0 := Nat.div_eq_of_lt h
  have hl : z < 2 ^ 48 := by omega
  simp only [State.isOwn, hp, hz, Bool.and_eq_true, decide_eq_true_eq]
  exact ⟨rfl, hl⟩

/-- The second team in the loft bank of core 0 with slot 2, and in slot 2 without a core. -/
def held (loft : LoftSt) : State :=
  { onCore (fun k => { k with held := some (teamKey 1 1), loft := loft })
      (second (fun t => { t with place := .held 0, bank := 1, slot := some 2 })) with pkg := some 0 }
def saved : State :=
  let s := second (fun t => { t with place := .saved 2, slot := some 2 })
  { onCore (fun k => { k with active := none }) s with pkg := some 0, teams := s.teams.erase (teamKey 1 0) }
def heldTeam : Team := { Team.start 1 1 [(0x100, 0x100, 1)] with place := .held 0, bank := 1, slot := some 2 }
def savedTeam : Team := { Team.start 1 1 [(0x100, 0x100, 1)] with place := .saved 2, slot := some 2 }

theorem witness_SpilledTeamsLeaveAndReturn :
    (∀ l, (held l).teams.get? (teamKey 1 1) = some heldTeam ∧ ((held l).core 0).loft = l ∧ ((held l).core 0).held =
      some (teamKey 1 1)) ∧
    (heldTeam.lid = teamKey 1 1 / 512 ∧ heldTeam.bank < 2 ∧ (held .clean).mem.wf = true ∧
      ((held .clean).kernels.get? 1).map (·.ctx) = some ((held .clean).lidCtx 1)) ∧
    ((held .clean).slotAt 0 2 + slotSize ≤ 2 ^ 48 ∧ (held .clean).slotAt 0 2 % 65536 = 0 ∧
      ∀ z, (held .clean).slotAt 0 2 ≤ z → z < (held .clean).slotAt 0 2 + slotSize → (held .clean).isOwn z = true) ∧
    ((held .clean).settled (teamKey 1 1) 0 heldTeam = true ∧ ((held .clean).core 0).switch = false ∧
      (held .clean).coreOn 0 = true ∧ heldTeam.blocks = [] ∧ heldTeam.park = none ∧
      (heldTeam.coreParts probeDesc 0).Pairwise (fun p q => p.2.1 + p.2.2 ≤ q.2.1) ∧
      (∀ p ∈ heldTeam.coreParts probeDesc 0, 0x100000 ≤ p.2.1 ∧ p.2.1 + p.2.2 ≤ slotSize) ∧
      ((held .clean).core 0).stook = []) ∧
    -- a fill of core 0
    (saved.teams.get? (teamKey 1 1) = some savedTeam ∧ (saved.core 0).loft = .empty ∧ saved.coreOn 0 = true ∧
      (saved.core 0).switch = false ∧ saved.goesTo (teamKey 1 1) 0 savedTeam = true ∧ saved.imagesAway probeKernel = false ∧
      saved.mayTake 0 probeDesc (saved.textImage probeKernel) savedTeam.kept.length = true ∧
      (saved.makeRoom 0).takes 0 probeDesc ((saved.makeRoom 0).textImage probeKernel) savedTeam.kept.length = true ∧
      (∀ p ∈ savedTeam.coreParts probeDesc 0, 0x100000 ≤ p.2.1 ∧ p.2.1 + p.2.2 ≤ slotSize) ∧ probeDesc.accRows.2 ≤ 512 ∧
      (∀ r ∈ savedTeam.owned, r.2 ≤ 2 ^ 23) ∧ probeDesc.tsz ≤ 2 ^ 18 ∧
      (((saved.makeRoom 0).restore (teamKey 1 1) 0 ((saved.makeRoom 0).freeBank 0) 2 savedTeam
        { probeKernel with desc := { probeDesc with nsm := 7 } }).kernels.get? 1).any (fun k => k.st.live) = true ∧
      (((saved.makeRoom 0).restore (teamKey 1 1) 0 ((saved.makeRoom 0).freeBank 0) 2 savedTeam
        { probeKernel with desc := { probeDesc with nsm := 7 } }).teams.get? (teamKey 1 1)).isSome = true) := by
  refine ⟨?_, by decide +kernel, ⟨by decide +kernel, by decide +kernel, ?_⟩, by decide +kernel, by decide +kernel⟩
  · intro l
    cases l <;> exact ⟨rfl, rfl, rfl⟩
  · intro z _ hz
    have h : (held .clean).slotAt 0 2 + slotSize ≤ 2 ^ 41 := by decide +kernel
    exact own_below rfl (by omega)

/-- A kernel of one team that waits for its first core; the kernel itself still ADMITTED. -/
def placing : State :=
  let s := small 0x100
  { onCore (fun k => { k with active := none }) s with
    teams := s.teams.set (teamKey 1 0) (Team.start 1 0 [(0, 0x100, 1)]), strands := [] }
def smallKernel : Kernel := { probeKernel with desc := { probeDesc with regions := [(0, 0x100, 1)] } }
def admitted (k : Kernel) : State := onKernel (fun _ => { k with st := .admitted }) (small 0x100)
/-- A kernel with data that no page maps. -/
def unmapped : Kernel := { smallKernel with desc := { smallKernel.desc with dsz := 16 } }
/-- The loads of the kernel's images on its placed cores. -/
def loads (s : State) (k : Kernel) : State × Faults :=
  (s.placed 1).foldl (fun (r : State × Faults) p => if r.2.fk = 0 then r.1.loadTeam k p.2 else r) (s, Faults.none)
/-- A kernel that rolls back two granules, the first of which it has logged twice. -/
def rolling : Kernel := { smallKernel with st := .rolling, log := [(0x100000, 3), (0x100100, 4), (0x100000, 5)] }
def rollingState : State := { onKernel (fun _ => rolling) (small 0x100) with pkg := some 0, live := [16] }
/-- The state that a relaunch looks at. -/
def gone (s : State) (k : Kernel) : State :=
  (k.used.foldl (fun (s : State) c => s.emptyGranary c k.ctx) (s.restoreLog k)).dropTeams k true
/-- One that may share a core, whose one core holds a team of another such kernel with 513 entries in the stook. -/
def sharing (r : Nat × Nat × Nat) (row : Nat) (k : Kernel) : Kernel :=
  { k with desc := { k.desc with tw := false, sv := false, regions := [r], abase := row, acnt := 1 } }
def crammed : State :=
  let s := onCore (fun k => { k with active := none, held := some (teamKey 9 0)
                                     stook := (List.range 513).map (fun i => probeSheaf i (teamKey 9 0) (clrWord 0)) }) rollingState
  { s with teams := [(teamKey 9 0, { Team.start 9 0 [(0x200, 0x100, 1)] with place := .held 0 })]
           kernels := s.kernels.set 9 (sharing (0x200, 0x100, 1) 1 { probeKernel with lid := 9 }) }
/-- A kernel whose text a page of another package holds, and a device whose links are down. -/
def awayKernel : Kernel := { smallKernel with desc := { smallKernel.desc with tva := 0x10000, tsz := 16 } }
/-- The kernel waits for one that has not triggered. -/
def waitsFor : Kernel := { smallKernel with producers := [0] }
def unfired : State :=
  let s := admitted waitsFor
  { s with recs := [(0, { pipeRec [] with form := 1, lids := [1, 2] })], kernels := s.kernels.set 2 { probeKernel with lid := 2 }
           teams := s.teams.set (teamKey 2 0) (Team.start 2 0 [(0, 0x100, 1)]) }

theorem witness_KernelsArePlacedLoadedAndRolledBack :
    -- placed: next, with a free core; its images load
    (placing.teams.get? (teamKey 1 0) = some (Team.start 1 0 [(0, 0x100, 1)]) ∧ placing.kernels.get? 1 = some probeKernel ∧
      probeKernel.lid = 1 ∧ (Team.start 1 0 [(0, 0x100, 1)]).place = .waiting ∧ placing.isGang 0 = false ∧
      placing.nextTeam probeKernel = some (teamKey 1 0) ∧ placing.coreFree 0 = true ∧ (placing.core 0).held = none ∧
      placing.goesTo (teamKey 1 0) 0 (Team.start 1 0 [(0, 0x100, 1)]) = true ∧ placing.imagesAway probeKernel = false ∧
      placing.mayTake 0 probeDesc (placing.textImage probeKernel) 0 = true ∧
      (placing.makeRoom 0).takes 0 probeDesc ((placing.makeRoom 0).textImage probeKernel) 0 = true ∧
      placing.mem.wf = true ∧ probeDesc.accRows.2 ≤ 512 ∧ (∀ r ∈ probeDesc.owned, r.2 ≤ 2 ^ 23) ∧
      (((placing.makeRoom 0).placeFresh (teamKey 1 0) 0 probeKernel).loadText probeKernel 0).2 = Faults.none ∧
      ((((placing.makeRoom 0).placeFresh (teamKey 1 0) 0 probeKernel).loadText probeKernel 0).1.loadData probeKernel 0).2 =
        Faults.none) ∧
    -- images that no link reaches
    ({ walkFor [] 0x20000000017 with kernels := [(1, awayKernel)] } : State).imagesAway awayKernel = true ∧
    placing.nextTeam probeKernel ≠ some (teamKey 1 1) ∧
    -- loaded: not ADMITTED, a failed read, every image in place
    probeKernel.st ≠ .admitted ∧
    ((loads (admitted unmapped) unmapped).2.fk ≠ 0 ∧ (loads (admitted unmapped) unmapped).1.kernels = (admitted unmapped).kernels) ∧
    ((loads (admitted smallKernel) smallKernel).2 = Faults.none ∧
      ((loads (admitted smallKernel) smallKernel).1.loadMoves smallKernel).2 = Faults.none ∧
      ((loads (admitted smallKernel) smallKernel).1.loadMoves smallKernel).1.kernels = (admitted smallKernel).kernels ∧
      ((loads (admitted smallKernel) smallKernel).1.loadMoves smallKernel).1.teams = (admitted smallKernel).teams ∧
      (admitted smallKernel).placed 1 = [(teamKey 1 0, 0)] ∧ (admitted smallKernel).producersFired smallKernel = true ∧
      (admitted smallKernel).imagesAway smallKernel = false) ∧
    (waitsFor.producers = [0] ∧ unfired.recs.any (fun e => decide (e.1 = 0 ∧ 2 ∈ e.2.lids)) = true ∧
      (unfired.kernels.get? 2).any (fun j => decide (j.lid = 2 ∧ j.fired = false ∧ j.st ≠ .draining) &&
        !unfired.allTriggered 2 j && !unfired.allEnded 2 j) = true) ∧
    -- rolled back
    (rollingState.kernels.get? 1 = some rolling ∧ rollingState.workGone 1 = true ∧ ((gone rollingState rolling).relaunchCores true rolling).isSome = true ∧
      (∀ e ∈ rollingState.teams, e.2.slot = none) ∧
      rollingState.isOwn 0x100000 = true ∧ rollingState.isLive 0x100000 = true ∧ rollingState.isLive 0x1001FF = true ∧
      rollingState.ctxs.get? (rollingState.lidCtx 1) = none ∧ rollingState.mem.wf = true ∧
      (∀ e ∈ rolling.log, ∀ f ∈ rolling.log,
        let old := par (rollingState.cfgWord 0 4) 0 48 + 288 * f.2 + 0x20
        e.1 + 256 ≤ old ∨ old + 256 ≤ e.1) ∧
      rolling.log = [(0x100000, 3), (0x100100, 4)] ++ (0x100000, 5) :: [] ∧
      rolling.log = [(0x100000, 3)] ++ (0x100100, 4) :: [(0x100000, 5)]) ∧
    -- on no core, as a gang's member and alone
    (let s := onCore (fun k => { k with active := some (teamKey 9 0) }) { rollingState with teams := [] }
     (gone s rolling).relaunchCores true rolling = none ∧ (gone s rolling).relaunchCores false rolling = none) ∧
    (gone (gang rollingState) rolling).relaunchCores true rolling = some [0] ∧
    -- on a core that other work must first leave
    (let k := sharing (0, 0x100, 1) 0 rolling
     (gone crammed k).relaunchCores true k = none ∧ ((gone crammed k).relaunchCores false k).isSome = true) ∧
    (small 0x100).workGone 1 = true ∧ dispatched.workGone 1 = false ∧
    -- a window in which the pipe was full and empty, and one in which it was full throughout
    ∀ q ∈ [[6, 2], [6, 8], []], ({ base with recs := [(0, pipeRec q)] } : State).recs.get? 0 = some (pipeRec q) := by
  and_intros <;> decide +kernel

/-! ### Queues, records, rings and the host window (14, 15, 17) -/

/-- Keys that have seen number 5, with packet 2 answered by a NAK; the device's own last number is 8. -/
def hostNak : Out := .rdmaNak 0 false { key := [], nonce := leBytes 12 1, header := 1, aad := leBytes 8 1 }
def hostKeys : Keys :=
  { phase := false, both := true, high := 5, answers := [(2, hostNak)], rx := [], tx := [], sendPhase := false, sent := 8 }
/-- Context 0 in RUN, in session 3, with a connection on port 0; its event ring has 64 slots at 0x14000. -/
def hostCtx : Ctx :=
  { Ctx.create 8 [] with
    st := .run, cfg := ((Vector.replicate 24 (0 : DWord)).set 6 8).set 1 0x14000, grants := [(0, 0x200000)], queues := [7]
    ehead := 1, etail := 3, est := 1, session := some 3, keys := some hostKeys
    conns := [true, false] }
/-- Queue 7: a ring of 4 slots at 0x10000 and completions at 0x12000; records 2 and 3 are not yet fetched. -/
def hostQueue : Queue :=
  { ctx := 0, b := { qid := 7, pri := 1, wgt := 0, hof := true, lsz := 2, csz := 2, lva := 0x10000, cva := 0x12000, resZero := true }
    st := .active, hc := 0, tail := 4, head := 2, chead := 1, ctail := 2, resv := 0, fetched := none, open_ := [], done := [] }
/-- Package 0 with that context and queue, one core, and a page of 64 KiB at 0x10000 that maps to itself. -/
def hosted (f : Ctx → Ctx) (g : Queue → Queue) : State :=
  let s := { State.reset with dev := .ready, pkg := some 0, ctxs := [(0, f hostCtx)], queues := [(7, g hostQueue)]
                              cores := [(0, Core.init)], nextRec := 1, nextLid := 0xFFFFFFFF, live := [1, 16] }
  { (s.updDie 0 (fun d => { d with wcache := [{ ctx := 0, lvl := 3, va := 0, tbl := 0x100000 }] })) with
    mem := s.mem.setNum 0x100008 8 0x1001F }

/-- A sealed packet of context 0 on port 0. -/
def packet (phase : Bool) (seq : BitVec 63) (dup : Bool) : Sealed :=
  { ctx := 0, port := false, phase := phase, seq := seq, tagOk := true, dup := dup }

/-- A packet above the highest number is accepted in every state of the context. -/
theorem accepted (f : Ctx → Ctx) (g : Queue → Queue) (hk : (f hostCtx).keys = hostCtx.keys)
    (hc : (f hostCtx).conns = hostCtx.conns) : ∃ u, Accepted (hosted f g) (packet false 6 false) (f hostCtx) false u :=
  ⟨_, rfl, by rw [hc]; decide, rfl, by decide, ⟨_, { hostKeys with high := 6 }, hk, rfl, Or.inr (Or.inl ⟨rfl, rfl, by decide, rfl⟩)⟩⟩

/-- Its context then has keys whose next number is below 2^62. -/
theorem accepted_keys : ∃ u k, Accepted (hosted id id) (packet false 6 false) hostCtx false u ∧
    (u.ctxs.get? (packet false 6 false).ctx.toNat).bind (·.keys) = some k ∧ k.sent + 1 < 2 ^ 62 :=
  ⟨_, _, ⟨rfl, by decide, rfl, by decide, ⟨_, { hostKeys with high := 6 }, rfl, rfl, Or.inr (Or.inl ⟨rfl, rfl, by decide, rfl⟩)⟩⟩, rfl, by decide⟩

/-- A retransmission is accepted again. -/
theorem accepted_again : ∃ u, Accepted (hosted id id) (packet false 2 true) hostCtx true u :=
  ⟨_, { ctx := rfl, conn := by decide, tag := rfl, num := by decide
        fresh := ⟨hostKeys, hostKeys, rfl, rfl, Or.inl (by decide)⟩ }⟩
/-- The first packet of a new phase is accepted. -/
theorem accepted_new_phase : ∃ u, Accepted (hosted id id) (packet true 1 false) hostCtx false u :=
  ⟨_, { ctx := rfl, conn := by decide, tag := rfl, num := by decide
        fresh := ⟨hostKeys, { hostKeys with phase := true, both := false, high := 1, answers := [] }, rfl, rfl,
          Or.inr (Or.inr (by decide))⟩ }⟩

/-- A pair in a state, as READY needs no command to keep it. -/
def withPair (x : BitVec 2) (c : Ctx) : Ctx := { c with pairs := [(3, { Pair.init with sst := x, cdva := 0x10000 })] }

/-- An unretired storage command of the context on pair 3. -/
def pairUsed : State :=
  { (hosted (withPair 2) id).updDie 0 (fun d => { d with
      engines := [(0, { issue := 1, retire := 0, run := none, cmds := [cmd 1 (.mvNvm 2 1 3 3 true) .active] })] }) with
    kernels := [(1, smallKernel)] }
/-- The page at 0x10000 in package 1. -/
def elsewhere (s : State) : State := s.setMem (s.mem.setNum 0x100008 8 0x2000001001F)

theorem witness_HostWindowMovesQueuesAndPairs :
    -- seals: a retransmission, the next number, a new phase; no keys, a bad tag, the highest number again, 2^62
    ((∃ u, Accepted (hosted id id) (packet false 2 true) hostCtx true u) ∧
      (∃ u, Accepted (hosted id id) (packet false 6 false) hostCtx false u) ∧
      (∃ u, Accepted (hosted id id) (packet true 1 false) hostCtx false u)) ∧
    windowWord? (packet false 6 false) (.tailWrite (packet false 6 false) 7 4) ∧
    ((hosted (fun c => { c with keys := none }) id).ctxs.get? 0).map (·.keys) = some none ∧
    ((packet false (2 ^ 62) false).seq.toNat = 2 ^ 62 ∧ hostCtx.keys = some hostKeys ∧
      hostCtx.session = some 3 ∧ hostCtx.conns.getD 0 false = true ∧ (packet false 5 false).seq.toNat ≤ 5) ∧
    -- outside CONFIG_LOCKED and RUN; a queue of another context
    (∃ u, Accepted (hosted (fun c => { c with st := .error }) id) (packet false 6 false) { hostCtx with st := .error } false u) ∧
    ({ hostCtx with st := .error } : Ctx).isLocked = false ∧
    ((hosted id id).queues.get? 6 = none ∧ hostCtx.isLocked = true) ∧
    -- the queue's pointers at both ends of what is valid, and the ring's
    ((hosted id id).queues.get? 7 = some hostQueue ∧
      ((6 - hostQueue.head).toNat = 2 ^ hostQueue.b.lsz.toNat ∧ (6 - hostQueue.tail).toNat ≤ (6 - hostQueue.head).toNat) ∧
      2 ^ hostQueue.b.lsz.toNat < (7 - hostQueue.head).toNat ∧ (3 - hostQueue.head).toNat < (3 - hostQueue.tail).toNat ∧
      (2 - hostQueue.chead).toNat = (hostQueue.ctail - hostQueue.chead).toNat ∧
      (hostQueue.ctail - hostQueue.chead).toNat < (3 - hostQueue.chead).toNat ∧
      (3 - hostCtx.ehead).toNat = (hostCtx.etail - hostCtx.ehead).toNat ∧
      (hostCtx.etail - hostCtx.ehead).toNat < (4 - hostCtx.ehead).toNat) ∧
    (∃ u, Accepted (hosted id (fun q => { q with st := .halted })) (packet false 6 false) hostCtx false u) ∧
    (∃ u, Accepted (hosted (fun c => { c with est := 3 }) id) (packet false 6 false) { hostCtx with est := 3 } false u) ∧
    -- storage pairs in each state, free and used
    (∀ x : BitVec 2, (∃ u, Accepted (hosted (withPair x) id) (packet false 6 false) (withPair x hostCtx) false u) ∧
      ((hosted (withPair x) id).pair 0 3).sst = x ∧ (hosted (withPair x) id).pairBusy 0 3 = false) ∧
    ((hosted id id).readVirt 0 0 0x10000 1024).2 = .ok (List.replicate 1024 0) ∧
    -- a pair that a command uses; Connect data where no page is, and in a package that no link reaches
    pairUsed.pairBusy 0 3 = true ∧ ((hosted id id).readVirt 0 0 0x20000 1024).2 = .fault 0x20000 ∧
    (hosted id id).farAway 0 0 0x10000 1024 false = false ∧ (elsewhere (hosted id id)).farAway 0 0 0x10000 1024 false = true ∧
    -- the device's next number below 2^62 and at it; a packet refused before and one not
    (holdsKeys (hosted id id) (packet false 6 false) hostCtx hostKeys ∧ hostKeys.sent + 1 < 2 ^ 62) ∧
    (2 ^ 62 ≤ ({ hostKeys with sent := 2 ^ 62 - 1 } : Keys).sent + 1 ∧ hostCtx.session = some 3) ∧
    (hostKeys.answers.get? (packet false 2 true).seq.toNat = some hostNak ∧ hostKeys.answers.get? (packet false 3 true).seq.toNat = none) ∧
    -- a write that waits for a link before it, and none
    (waitsBefore { hosted id id with held := [.write (packet false 5 false) 0x10000 [] []] } (packet false 6 false)) ∧
    (hosted id id).held = [] ∧
    -- the old phase after the new
    ((packet true 1 false).phase ≠ hostKeys.phase ∧ ({ hostKeys with both := false } : Keys).both = false) := by
  and_intros <;> first
    | decide +kernel
    | exact accepted _ _ rfl rfl
    | exact accepted_again
    | exact accepted_new_phase
    | exact Or.inl ⟨_, _, rfl⟩
    | exact ⟨.write (packet false 5 false) 0x10000 [] [], List.mem_cons_self .., packet false 5 false, rfl, rfl, Or.inl ⟨_, _, _, rfl⟩⟩
    | (intro x
       refine ⟨accepted (withPair x) id rfl rfl, ?_⟩
       revert x
       decide +kernel)

/-- A mark whose seq is 2, as the one slot of the ring at head. -/
def mark : Nat := 5 + 2 * 2 ^ 32
def fetching (n : Nat) : State :=
  let s := hosted id (fun q => { q with tail := 3 })
  s.setMem (s.mem.setNum 0x10080 8 n)
/-- The queue with its ring where no page is. -/
def astray : Queue := { hostQueue with b := { hostQueue.b with lva := 0x20000 } }
/-- The queue's record 1, fetched. -/
def fetched (x : Rec) : State := { hosted id (fun q => { q with fetched := some 1 }) with recs := [(1, x)], nextRec := 2 }
def rec1 (form : BitVec 4) : Rec := { Rec.blank 0 7 2 with form := form }
/-- A single kernel of one team, with a region of 0x100 bytes. -/
def single : Rec := { rec1 1 with descs := [smallKernel.desc], args := [9] }

/-- A record that a queue has fetched beside an open join, record 5 with seq 1, over a link that carries traffic. -/
def joining : State :=
  { (hosted id (fun q => { q with open_ := [5] })).updDie 0 (fun d => { d with links := [(0, { Link.init with st := .active })] }) with
    recs := [(5, { rec1 4 with seq := 1, st := .admitted, joinLeft := 1, joinSeen := 1 })], nextRec := 6 }
/-- The queue with its last mapped slot at head. -/
def split : Queue := { hostQueue with b := { hostQueue.b with lva := 0x1FF40 } }
/-- With its next page in package 1, and a record of two slots at head. -/
def farSecond : State :=
  let s := hosted id (fun _ => split)
  s.setMem ((s.mem.setNum 0x100010 8 0x2000001001F).setNum 0x1FFC0 8 (1 + 2 ^ 8 + 2 * 2 ^ 32))
/-- A gang of one team. -/
def pairOf : Rec :=
  let d : KDesc := { smallKernel.desc with tw := false }
  { rec1 2 with descs := [d], args := [9] }
/-- A ready parent at the head of its queue. -/
def parentReady : State :=
  { hosted id (fun q => { q with open_ := [1] }) with
    recs := [(1, { single with form := 4, joinReady := true, st := .admitted })], nextRec := 2 }
/-- A team in a loft bank with 513 sheaves, whose core has room otherwise for a kernel that asks for half the rows. -/
def narrow (base lo : Nat) : KDesc := { smallKernel.desc with tw := false, sv := false, abase := base, acnt := 1, regions := [(lo, 0x100, 1)] }
def stuffedRec : Rec := { rec1 1 with descs := [narrow 0 0], args := [9] }
def stuffed : State :=
  let h := (dispatched.core 0).stook.map (fun h => { h with team := teamKey 1 1, subs := [.opn] })
  { fetched stuffedRec with
    kernels := [(1, { smallKernel with desc := { narrow 1 0x1000 with nsm := 7 } })]
    teams := [(teamKey 1 1, { Team.start 1 1 [(0x1000, 0x100, 1)] with place := .held 0 })]
    cores := [(0, { Core.init with held := some (teamKey 1 1), loft := .filled, stook := (List.range 513).flatMap (fun n => h.map (fun x => { x with seq := n })) })] }

theorem plan_of {s : State} {x : Rec} {n : Nat} (h : (s.plan x).map List.length = some n) : ∃ cs, s.plan x = some cs := by
  cases hp : s.plan x with
  | none => simp [hp] at h
  | some cs => exact ⟨cs, rfl⟩

/-- A gang has a plan once some die has room for it. -/
theorem gang_plan {s : State} {x : Rec} (hf : x.form = 2) (hm : x.descs.any (s.moveConflict (x.qid / 1024) x.ctx) = false)
    (h : ∃ d ∈ List.range 8, (s.gangCores true x.seed
      ((x.descs.zip (x.descs.map KDesc.teams)).map (fun p => { desc := p.1, text := s.textAt (x.qid / 1024) x.ctx p.1, teams := p.2 }))
      (((s.cores.map (·.1)).filter s.coreFree).filter (fun c => decide (c / 64 = d)))).isSome = true) :
    ∃ cs, s.plan x = some cs := by
  obtain ⟨d, hd, hs⟩ := h
  obtain ⟨cs, hc⟩ := Option.isSome_iff_exists.1 hs
  simp only [State.plan, State.planIn, hm, hf, true_or, if_true, Bool.false_eq_true, if_false]
  refine ⟨_, List.getElem?_eq_getElem (Nat.mod_lt _ ?_)⟩
  exact List.length_pos_of_mem (List.mem_filterMap.2 ⟨d, hd, hc⟩)

/-- Records of each form at the launch ring's head, their descriptors at 0x11000: a single kernel, a child of the join with seq 1,
a gang of two, a pipeline of two stages, a continuation of one child. -/
def recSingle : Nat := 1 + 2 * 2 ^ 32 + 0x11000 * 2 ^ 64 + 9 * 2 ^ 128
def recChild : Nat := recSingle + 2 ^ 160 + 2 ^ 192
def recGang : Nat := 2 + 2 * 2 ^ 32 + 2 ^ 64 + (0x11000 + 9 * 2 ^ 64) * 2 ^ 128 * (1 + 2 ^ 128)
def recPipe : Nat :=
  3 + 2 * 2 ^ 32 + 2 ^ 64 + 2 ^ 72 + 2 * 2 ^ 80 + (0x11000 + 9 * 2 ^ 64 + 2 ^ 96 + 2 ^ 112 + 8 * 2 ^ 256) * 2 ^ 128 +
    (0x11000 + 9 * 2 ^ 64 + 2 ^ 96 + 2 ^ 112) * 2 ^ 256
def recJoin : Nat := 4 + 2 * 2 ^ 32 + 2 ^ 64 + 0x11000 * 2 ^ 128 + 9 * 2 ^ 192
/-- A well-formed descriptor of one team with a region of 0x100 bytes and one word of text. -/
def descNum : Nat := 0xA7D1 + 2 ^ 16 + 4 * 2 ^ 192 + (0x100 * 2 ^ 32 + 2 ^ 56) * 2 ^ 256 * 2 ^ 256

theorem fetched_competes (x : Rec) : competes (fetched x) { hostQueue with fetched := some 1 } 1 x :=
  ⟨rfl, Or.inr ⟨fun _ ho => absurd ho.1 List.not_mem_nil, rfl, Or.inr (fun _ hp => absurd hp List.not_mem_nil)⟩⟩

/-- A ready parent competes, ahead of any fetched record. -/
theorem witness_ReadyParentsCompete :
    competes parentReady { hostQueue with open_ := [1] } 1 { single with form := 4, joinReady := true, st := .admitted } :=
  ⟨rfl, Or.inl ⟨⟨by decide, _, rfl, rfl, rfl, rfl, fun p hp => absurd hp (by decide +revert)⟩, fun o ho => absurd ho (by simp)⟩⟩
theorem gang_fits {s : State} {w : Want} {cs : List Nat} {c r : Nat} (ht : w.teams = 1)
    (h : cs.filter (fun c => s.mayTake c w.desc w.text 0 && (!true || (s.core c).halves)) = [c]) :
    (s.gangCores true r [w] cs).isSome = true := by
  simp only [State.gangCores, h, ht]
  simp [pickFrom, Nat.mod_one]
theorem pair_plan : ∃ cs, (fetched pairOf).plan pairOf = some cs :=
  gang_plan rfl (by decide +kernel) ⟨0, by decide, gang_fits (c := 0) (by decide +kernel) (by decide +kernel)⟩

theorem single_plan {s : State} {room : Bool} {x : Rec} {d : KDesc} {c : Nat} (hf : x.form = 1) (hd : x.descs = [d]) (ht : d.teams = 1)
    (hm : x.descs.any (s.moveConflict (x.qid / 1024) x.ctx) = false)
    (h : ((s.cores.map (·.1)).filter s.coreFree).filter (fun c => s.mayTake c d (s.textAt (x.qid / 1024) x.ctx d) 0 &&
      (!room || (s.core c).halves)) = [c]) (hl : (if d.lp then d.teams else max 1 (d.teams - (s.freeSlots x.ctx).length)) = 1) :
    s.planIn room x = some [[c]] := by
  rw [hd] at hm
  rw [ht] at hl
  simp only [State.planIn, hd, hm, hf, h, ht, hl]
  simp [pickFrom, Nat.mod_one]

theorem witness_RecordBodies :
    (∀ n ∈ [recSingle, recChild, recGang, recPipe, recJoin], headerOk (hosted id id) hostQueue n) ∧
    bodyIs recSingle 0 [0x11000] [9] 0 [] ∧ bodyIs recChild 0 [0x11000] [9] 0 [] ∧ bodyIs recJoin 0 [0x11000] [9] 1 [] ∧
    bodyIs recGang 0 [0x11000, 0x11000] [9, 9] 0 [] ∧ bodyIs recPipe 0 [0x11000, 0x11000] [9, 9] 0 [(1, 1), (1, 1)] ∧
    -- a body that breaks a rule: a join of no children
    (∀ ks as J stages, ¬bodyIs (recJoin - 2 ^ 64) 0 ks as J stages) ∧
    -- descriptors that can be read and one that cannot, one that is well formed and one that is not
    ((hosted id id).farAway 0 0 0x11000 192 false = false ∧
      ((descriptorsRead 0 0 (hosted id id) [0x11000]).2).isSome = true ∧ (descriptorsRead 0 0 (hosted id id) [0x20000]).2 = none) ∧
    (parseDesc (leBytes 192 descNum)).isSome = true ∧ parseDesc (leBytes 192 (descNum + 1)) = none ∧
    -- the open join that a child names, over a link
    (joining.linked = true ∧ joining.openJoin { hostQueue with open_ := [5] } (recBits recChild 160 32) = some 5 ∧ 5 < joining.nextRec ∧
      ∃ x, joining.recs.get? 5 = some x ∧ 0 < x.joinSeen) ∧
    (hosted id id).openJoin hostQueue (recBits recChild 160 32) = none := by
  and_intros <;> first
    | (intro n hn; fin_cases hn <;> (change _ ∧ _; decide +kernel))
    | decide +kernel
    | (rintro ks as J stages ⟨-, h⟩
       have h' : 0 = 0 ∧ _ ∧ J = 0 ∧ J ≠ 0 ∧ _ := h
       exact h'.2.2.2.1 h'.2.2.1)

theorem witness_RecordsAreFetchedAndAdmitted :
    -- nothing to fetch; a ring that faults, one that no link reaches, one with an uncorrectable error
    ((hosted id (fun q => { q with tail := 2 })).queues.get? 7 = some { hostQueue with tail := 2 }) ∧
    ((hosted id (fun _ => astray)).dropLines.readSlots 0 0 (recordRun astray 1)).2 = .fault 0x20080 ∧
    ((elsewhere (fetching mark)).queues.get? 7 = some { hostQueue with tail := 3 } ∧
      (elsewhere (fetching mark)).farAway 0 0 0x10080 64 false = true ∧ (fetching mark).farAway 0 0 0x10080 64 false = false) ∧
    -- a first slot that is near, and the second in a package that no link reaches
    ((∀ a ∈ recordRun split 1, farSecond.farAway 0 0 a 64 false = false) ∧ (∃ a ∈ recordRun split 2, farSecond.farAway 0 0 a 64 false = true) ∧
      (match (farSecond.dropLines.readSlots 0 0 (recordRun split 1)).2 with
        | .ok h => leNat h / 2 ^ 8 % 16 == 1
        | _ => false) = true) ∧
    (match (({ fetching mark with poison := [0x10080] } : State).dropLines.readSlots 0 0 (recordRun hostQueue 1)).2 with
      | .ue _ => true
      | _ => false) = true ∧
    -- a mark of one slot; a header that names a slot not yet written, and one whose second slot faults
    ((fetching mark).queues.get? 7 = some { hostQueue with tail := 3 } ∧
      ((fetching mark).dropLines.readSlots 0 0 (recordRun { hostQueue with tail := 3 } 1)).2 = .ok (leBytes 64 mark) ∧
      (3 - hostQueue.head).toNat = 1) ∧
    (leNat (leBytes 64 (mark + 2 ^ 8)) / 2 ^ 8 % 16 = 1) ∧
    (((fetching mark).dropLines.readSlots 0 0 (recordRun split 2)).2 = .fault 0x20000 ∧ (4 - split.head).toNat = 2) ∧
    -- headers: a mark, a wrong seq, an unknown form
    (mark % 16 = 5 ∧ mark / 16 % 16 = 0 ∧ mark / 2 ^ 14 % 4 = 0 ∧ mark / 2 ^ 32 % 2 ^ 32 = hostQueue.head.toNat ∧
      mark / 2 ^ 12 % 2 = 0 ∧ mark / 2 ^ 64 = 0) ∧
    ¬((5 + 3 * 2 ^ 32) / 2 ^ 32 % 2 ^ 32 = hostQueue.head.toNat) ∧
    -- admission, with the slice's turn: a malformed record, a mark, a single kernel, a gang; and a queue that is not chosen
    (∀ x ∈ [{ rec1 2 with bad := some 2 }, rec1 5, single, { rec1 4 with joinLeft := 1, joinSeen := 1 }],
      competes (fetched x) { hostQueue with fetched := some 1 } 1 x ∧ x.joinReady = false ∧ (fetched x).winner 0 = some (7, 1) ∧
        (fetched x).nextSlice = some 0 ∧ (fetched x).lacksRoom { hostQueue with fetched := some 1 } = []) ∧
    (∃ cs, (fetched single).plan single = some cs) ∧ ((fetched single).plan single).map List.length = some 1 ∧
    (∃ cs, (fetched pairOf).plan pairOf = some cs) ∧ (pairOf.es = false ∧ pairOf.args.length = pairOf.descs.length) ∧
    (hosted id id).winner 0 = none ∧
    -- a ready parent
    parentReady.winner 0 = some (7, 1) ∧
    -- the last queue of its priority with admissions left and with none
    (∀ n, ((({ fetched single with turn := 3 } : State).updDie 0 (fun d => { d with wrr := [(1, (7, n))] })).die 0).wrr.get? 1 =
      some (7, n)) ∧
    -- a record that lacks only the stook entries of a core's held team
    (stuffed.winner 0 = none ∧ stuffed.planIn true stuffedRec = none ∧ stuffed.planIn false stuffedRec = some [[0]] ∧
      hostQueue.hasSlot = true) := by
  and_intros <;> first
    | decide +kernel
    | exact plan_of (n := 1) (by decide +kernel)
    | exact pair_plan
    | exact single_plan (d := narrow 0 0) rfl rfl (by decide +kernel) (by decide +kernel) (by decide +kernel) (by decide +kernel)
    | exact fun _ => rfl
    | (intro x hx
       fin_cases hx <;> exact ⟨fetched_competes _, rfl, by decide +kernel, by decide +kernel, by decide +kernel⟩)

/-- A record whose work is complete with a status. -/
def finished (st : BitVec 8) : Rec := { rec1 5 with st := .complete st }
/-- An event that waits, and a ring whose place is unmapped. -/
def waits (c : Ctx) : Ctx := { c with waiting := [leBytes 64 0x21] }
def written (s : State) (va : Nat) : Option Nat := (s.writeVirt 0 0 va (leBytes 64 0)).2
/-- The record of one kernel that has ended in a state. -/
def ran (st : KSt) : State :=
  { hosted id id with kernels := [(1, { smallKernel with st := st })], recs := [(1, { single with st := .admitted, lids := [1] })] }
/-- A child of record 5, which waits for `n` children. -/
def child : Rec := { finished 2 with parent := some 5 }
def joinOf (n : Nat) : State :=
  { hosted id id with recs := [(1, child), (5, { rec1 4 with st := .admitted, joinLeft := n })] }

theorem witness_CompletionsAndEventsFillTheirRings :
    -- the record's status, from each end of its kernel; one not admitted, and a mark behind another record
    (∀ st, (hosted id id).recStatus 1 (finished st) = some st) ∧
    (∀ x ∈ [(KSt.failed, 1), (.stopped, 3), (.serviced, 5), (.retired, 0)],
      (ran x.1).recStatus 1 { single with st := .admitted, lids := [1] } = some x.2 ∧ kernelEnded (ran x.1) 1) ∧
    ¬kernelEnded (ran .running) 1 ∧ (rec1 5).st = .ready ∧
    (hosted id (fun q => { q with open_ := [9, 1] })).recStatus 1 { rec1 5 with st := .admitted } = some 0 ∧
    -- a contribution on its way keeps a failed kernel's record; the record that completed first, of two known and of none
    ¬kernelEnded { ran .failed with contribs := [{ contribution with lid := 1 }] } 1 ∧
    ({ hostQueue with done := [1, 4] } : Queue).done.head? = some 1 ∧
    (({ hostQueue with open_ := [3, 1] } : Queue).open_.takeWhile (· ≠ 1) = [3] ∧
      (hosted id id).recStatus 3 { rec1 1 with st := .admitted } = none) ∧
    ¬countsDone { fetched (rec1 5) with recs := [(9, rec1 5)] } 9 ∧
    ({ hosted id id with recs := [(1, finished 2)] } : State).recs.get? 1 = some (finished 2) ∧
    -- completion slots that can be written, that fault, that no link reaches; a full ring; a queue HALTED for such a write
    ((hosted id id).writeVirt 0 0 (0x12000 + 128 * (2 % 4)) ((hosted id id).completionBytes hostQueue (finished 2) 2)).2 = none ∧
    ((hosted id id).writeVirt 0 0 0x20000 ((hosted id id).completionBytes hostQueue (finished 2) 2)).2 = some 0x20000 ∧
    ((elsewhere (hosted id id)).farAway 0 0 0x12100 128 true = true ∧ (hosted id id).farAway 0 0 0x12100 128 true = false) ∧
    (2 ^ hostQueue.b.csz.toNat ≤ ((5 : Word) - hostQueue.chead).toNat ∧ ¬2 ^ hostQueue.b.csz.toNat ≤ (hostQueue.ctail - hostQueue.chead).toNat) ∧
    ({ hostQueue with st := .halted, hc := 3 } : Queue).hc = 3 ∧ (finished 2).qid < 4096 ∧
    -- children of a join that waits for one and for two
    (∀ n ∈ [1, 2], child.parent = some 5 ∧ (joinOf n).recs.get? 1 = some child ∧
      (joinOf n).recs.get? 5 = some { rec1 4 with st := .admitted, joinLeft := n } ∧ (joinOf n).recStatus 1 child = some 2) ∧
    -- events: a ring not in use, full, with room and nothing waiting, and with an event whose write succeeds and faults
    ((hosted (fun c => { c with est := 0 }) id).ctxs.get? 0).map (·.est) = some 0 ∧
    (hostCtx.ringSize = 64 ∧ ((65 : Word) - hostCtx.ehead).toNat = 64) ∧ (hosted id id).nextEvents 0 hostCtx = [] ∧
    ((hosted waits id).nextEvents 0 (waits hostCtx) = [(leBytes 64 0x21, none)] ∧
      (hostCtx.etail - hostCtx.ehead).toNat < hostCtx.ringSize ∧ (hosted waits id).farAway 0 0 (0x14000 + 64 * 3) 64 true = false ∧
      written (hosted waits id) (0x14000 + 64 * 3) = none) ∧
    written (hosted waits id) 0x20000 = some 0x20000 ∧ (elsewhere (hosted waits id)).farAway 0 0 (0x14000 + 64 * 3) 64 true = true ∧
    -- a translation fault of the context before the backlog, behind it, in another die beside it, and alone once its write has
    -- halted the ring
    (((hosted waits id).updDie 0 (fun d => { d with faults := [event 1] })).nextEvents 0 (waits hostCtx)).map (·.2) = [some (0, 0)] ∧
    (((hosted waits id).updDie 0 (fun d => { d with faults := [{ event 1 with behind := 1 }] })).nextEvents 0 (waits hostCtx)).map (·.2) =
      [none] ∧
    (((hosted waits id).updDie 1 (fun d => { d with faults := [event 1] })).nextEvents 0 (waits hostCtx)).length = 2 ∧
    (((hosted waits id).updDie 0 (fun d => { d with faults := [event 1] })).nextEvents 0 { waits hostCtx with retry := some 1 }).length = 1 ∧
    -- a backlog with room and without
    (waits hostCtx).waiting.length < 256 ∧ ({ hostCtx with waiting := List.replicate 256 [] } : Ctx).waiting.length = 256 := by
  and_intros <;> first
    | decide +kernel
    | exact fun _ => rfl
    | (rintro (h | ⟨y, h, h'⟩) <;> revert h <;> decide +kernel)
    | (rintro (h | ⟨y, h, h'⟩)
       · revert h; decide +kernel
       · cases h; revert h'; decide +kernel)
    | (intro x hx
       fin_cases hx <;> exact ⟨by decide +kernel, Or.inr ⟨_, rfl, by decide +kernel, by decide +kernel⟩⟩)

/-! ### Contexts, management and sessions (13, 18, 19) -/

def mgmt : Mgmt := { sess := 3, op := 0, ctx := 0, tag := 0x77, len := 0, sound := true }
/-- The hosted device with a session of a kind, and its context in a state. -/
def managed (k : SessKind) (f : Ctx → Ctx) : State := { hosted f id with sessions := [(3, k)] }
def inSt (st : CtxSt) (c : Ctx) : Ctx := { c with st := st }
theorem asks (k : SessKind) (f : Ctx → Ctx) : Asks (managed k f) mgmt k := ⟨rfl, rfl, rfl, rfl, rfl⟩

/-- A tenant's context that passes the checks of LOCK: its root is the first of its granted bytes past 64 KiB. -/
def lockable (c : Ctx) : Ctx := { c with st := .unlocked, cfg := c.cfg.set 0 0x10000 }
/-- A grant of the granule at 0x200000 fits beside the one of `hostCtx`. -/
def okBinding : Binding := { qid := 8, pri := 0, wgt := 15, hof := false, lsz := 4, csz := 16, lva := 0x1000, cva := 0, resZero := true }

theorem witness_ContextsAreMadeConfiguredAndStarted :
    -- sessions of each kind, and one that is opening; a context that is FREE
    (∀ k f, Asks (managed k f) mgmt k) ∧ requestOf (.start (ask mgmt 0x0A 0)) = some (ask mgmt 0x0A 0, 2, 0x0A, 0) ∧
    (mgmt.op ≠ 0x0A ∧ ({ mgmt with len := 4097 } : Mgmt).len.toNat ≠ 0 ∧ ({ mgmt with sound := false } : Mgmt).sound = false) ∧
    -- a session that opens; a request that reaches X0 while its firmware changes
    (managed (.opening none) id).sessions.get? 3 = some (.opening none) ∧
    (∃ a ∈ ({ managed .admin id with activating := [(1, [[0]])] } : State).activating, ∃ ds ∈ a.2, 0 ∈ ds) ∧
    ({ managed .admin id with sessions := [] } : State).sessions.get? 3 = none ∧
    -- one that names a context which an earlier request waits for; one taken from the requests that wait; payloads of another
    -- operation's byte, of its length and not
    waitsForContext { managed .admin id with requests := [.stop (ask mgmt 0x0B 0)] } (ask mgmt 0x10 12) ∧
    ({ managed .admin id with cur := .waiting (.stop (ask mgmt 0x0B 0)), requests := [.stop (ask mgmt 0x0B 0)] } : State).cur =
      .waiting (.stop (ask mgmt 0x0B 0)) ∧
    ((payloadOf (.lock (ask mgmt 0x0A 0))).length = (ask mgmt 0x0A 0).len.toNat ∧
      (payloadOf (.grant (ask mgmt 0x03 16) 0 1)).length = (ask mgmt 0x03 16).len.toNat ∧
      payloadOf (.grant (ask mgmt 0x03 16) 0 1) = payloadOf (.release (ask mgmt 0x03 16) 0 1) ∧
      payloadOf (.resumeOne (ask mgmt 0x12 12) 5 7) = payloadOf (.failCommand (ask mgmt 0x12 12) 5 7) ∧
      (payloadOf (.lock (ask mgmt 0x02 16))).length ≠ (ask mgmt 0x02 16).len.toNat ∧
      (0x30 : BitVec 8).toNat ∉ [0x01, 0x2A]) ∧
    -- CREATE without a package number
    (Asks { managed .admin id with pkg := none } mgmt .admin ∧ ({ managed .admin id with pkg := none } : State).ctxs.get? 1 = none) ∧
    (Asks { managed .admin id with ctxs := [] } mgmt .admin ∧ ({ managed .admin id with ctxs := [] } : State).ctxs.get? 0 = none) ∧
    -- CREATE: a digest in use, a quota that fits exactly beside 8, one that does not
    ((managed .admin id).pkg ≠ none ∧ (32 : BitVec 6).toNat = 32 ∧ (24 : BitVec 6).toNat + 8 = 32 ∧
      (managed .admin id).ctxs.get? 1 = none ∧ ∀ c ∈ (managed .admin id).ctxs, c.2.digest ≠ List.replicate 64 0) ∧
    -- GRANT and RELEASE in CONFIG_UNLOCKED: beside the grant, meeting it, the grant itself; the frozen set
    ((managed .admin (inSt .unlocked)).ctxs.get? 0 = some (inSt .unlocked hostCtx) ∧
      (managed .admin (inSt .unlocked)).isOwn 0x200000 = true ∧ (managed .admin (inSt .unlocked)).isOwn 0x20FFFF = true ∧
      (∀ e ∈ (managed .admin (inSt .unlocked)).ctxs, ∀ g ∈ e.2.grants, (0x210000 : Nat) ≤ g.1 ∨ g.1 + g.2 ≤ 0x200000) ∧
      (0, 0x200000) ∈ hostCtx.grants) ∧
    ((inSt .locked hostCtx).st = .locked ∧ hostCtx.st = .run ∧ bindingOk okBinding = true ∧
      ¬(4 ≤ ({ okBinding with lsz := 3 } : Binding).lsz.toNat)) ∧
    (List.replicate 64 (0 : Byte)).length = 64 ∧
    -- a grant list that is full, and one that the range meets
    ((List.range 64).map (fun i => (i * 0x10000, 0x10000))).length = 64 ∧
    ((0x1F0000 : Nat) < 0 + 0x200000 ∧ (0 : Nat) < 0x1F0000 + 0x20000) ∧
    -- WRITE CONFIG in and out of range, BIND QUEUE of a free id and of one in use
    ((managed .admin (inSt .unlocked)).cfgOk 0 0x8000 = true ∧ (managed .admin (inSt .unlocked)).cfgOk 0 0x4000 = false) ∧
    ((managed .admin id).queues.get? 8 = none ∧ (managed .admin id).queues.get? 7 ≠ none ∧ hostCtx.queues.length < 256 ∧
      7 ∈ hostCtx.queues ∧ 8 ∉ hostCtx.queues ∧ okBinding.lsz.toNat = 4 ∧ okBinding.csz.toNat = 16) ∧
    -- LOCK that passes and that does not, START and the report
    ((managed .admin lockable).ctxs.get? 0 = some (lockable hostCtx) ∧ (managed .admin lockable).lockOk 0 (lockable hostCtx) = true ∧
      (managed .admin (inSt .unlocked)).lockOk 0 (inSt .unlocked hostCtx) = false) ∧
    (Asks (managed (.tenant 0) (inSt .locked)) mgmt (.tenant mgmt.ctx.toNat) ∧
      (managed (.tenant 0) (inSt .locked)).ctxs.get? 0 = some (inSt .locked hostCtx) ∧
      ({ mgmt with len := 32 } : Mgmt).len = 32) :=
  by and_intros <;> first
    | exact asks
    | exact asks _ _
    | exact ⟨rfl, rfl, rfl, rfl, rfl⟩
    | decide +kernel

/-- Values that fit a word of the block and that do not. -/
theorem witness_ConfigurationBlock :
    configFits (managed .admin id) 0 0x8000 ∧ ¬configFits (managed .admin id) 0 0x4000 ∧ configFits (managed .admin id) 6 1 ∧
      ¬configFits (managed .admin id) 10 (2 ^ 40) := by
  simp only [configFits]
  decide +kernel

theorem witness_ContextsStopAndAreScrubbed :
    ((managed .admin id).ctxs.get? 0 = some hostCtx ∧ hostCtx.isLocked = true ∧ hostCtx.est ≠ 0 ∧ mgmt.len = 0) ∧
    (inSt .error hostCtx).isLocked = false ∧ Idle (managed .admin id) 0 ∧ Asks (managed .admin id) mgmt .admin ∧
    Asks (managed (.tenant 0) id) mgmt (.tenant mgmt.ctx.toNat) ∧ (managed (.tenant 0) id).sessions.get? 3 = some (.tenant 0) ∧
    ((0, 0x200000) ∈ hostCtx.grants ∧ (managed .admin id).isOwn 0 = true ∧ (managed .admin id).isOwn 0x1FFFFF = true) :=
  by and_intros <;> first
    | decide +kernel
    | exact asks _ _
    | (constructor <;> decide +kernel)

/-- Command 2 of engine 0 is suspended at 0x12345678, for a kernel of context 0. -/
def serviced : State := { managed (.tenant 0) id with kernels := [(1, smallKernel)] }.updDie 0 (fun d => { d with
  engines := [(0, { issue := 2, retire := 1, run := none, cmds := [suspended] })]
  tlb := [{ ctx := 0, va := 0x10000, size := 0x10000, leaf := 0x1001F }], l1 := [(0, [{ ctx := 0, va := 0, size := 0x10000, leaf := 1 }])] })

/-- A host write to the page waits for a link. -/
def usingOld : State := { managed (.tenant 0) id with held := [.write (packet false 6 false) 0x10000 [] (List.replicate 32 0)] }

theorem witness_FaultServiceActsOnSuspendedCommands :
    Asks serviced mgmt (.tenant mgmt.ctx.toNat) ∧ serviced.ctxs.get? 0 = some hostCtx ∧
    (inSt .locked hostCtx).st ≠ .run ∧ serviced.suspended 0 0 1 = none ∧
    ((serviced.eng 0).cmd 2 = some suspended ∧ suspended.st = .suspended ∧ serviced.lidCtx suspended.lid = 0 ∧
      suspended.susp = some (0x5, 0x12345678) ∧ (serviced.dies.get? (0 / 128)).any (fun d => (d.engines.get? 0).isSome) = true) ∧
    ((0x12345678 : DWord).toNat ≤ 0x12345678 ∧ (0x12345678 : Nat) < (0x12345679 : DWord).toNat) ∧
    -- outside a range
    ¬((0x10000 : DWord).toNat ≤ (0x12345678 : DWord).toNat ∧ (0x12345678 : DWord).toNat < (0x20000 : DWord).toNat) ∧
    ({ usingOld with cur := .event .mvNop } : State).cur = .event .mvNop ∧ (0x10000 : DWord).toNat < (0x20000 : DWord).toNat ∧
    serviced.usesOld 0 true 0 0 = false ∧ serviced.usesOld 0 false 0x10000 0x20000 = false ∧
    ((inSt .error hostCtx).isLocked = false ∧ hostCtx.isLocked = true ∧ (0x10000 : DWord).toNat ≤ (0x20000 : DWord).toNat ∧
      (0x10000 : DWord).toNat < (0x20000 : DWord).toNat) ∧
    -- an access through a translation of the range is under way
    usingOld.usesOld 0 true 0 0 = true := by
  and_intros <;> first
    | exact ⟨rfl, rfl, rfl, rfl, rfl⟩
    | decide +kernel

/-- Links with a state on every die. -/
def oneLink (st : LinkSt) : Link :=
  { st := st, spu := false, bad := 0, swid := 0, lcrc := 0, lrtr := 0, lfail := 0, lflit := 0, seen := [5] }
def linked (st : LinkSt) (s : State) : State :=
  s.updDie 0 (fun d => { d with links := [(0, oneLink st)] })

def logged : LogEntry := { addr := 0, unit := 0, syn := 0, ctx := none, ue := false, inj := false, chan := 0, cnt := 0 }

theorem witness_CountersAndErrorLogs :
    -- SET PACKAGE with and without a context; the last word of the counter space, misaligned, past it
    Asks { managed .admin id with ctxs := [] } mgmt .admin ∧
    ((127 : BitVec 8).toNat < 128 ∧ 128 ≤ (128 : BitVec 8).toNat ∧ (managed .admin id).ctxs ≠ []) ∧
    Asks (managed .admin id) mgmt .admin ∧
    (((managed .admin id).die 0).latch = [] ∧ (0x482 : Nat) % 4 ≠ 0 ∧ 0x480 ≤ (0x480 : Nat) ∧ [0x482].length ≤ 400) ∧
    (((managed .admin id).updDie 0 (fun d => { d with latch := [(4, 7)] })).die 0).latch.get? (0x00 + 4) = some 7 ∧
    (((linked .active (managed .admin id)).die 0).links.get? 0 = some (oneLink .active)) ∧
    (((managed .admin id).updDie 0 (fun d => { d with windows := [{ base := 0, size := 2 }] })).die 0).windows[0]? =
      some { base := 0, size := 2 } ∧
    -- ERROR LOG of the last units, of none, and of an array of parity; scrub of live and of dead memory, of another package's, and of
    -- a scratchpad
    ((0x01FF : BitVec 16).toNat / 4096 = 0 ∧ (0x01FF : BitVec 16).toNat % 4096 < 512 ∧ (0x400F : BitVec 16).toNat % 4096 < 16 ∧
      (0x5003 : BitVec 16).toNat / 4096 = 5 ∧ (0x8003 : BitVec 16).toNat / 4096 = 8 ∧ (0x3018 : BitVec 16).toNat % 4096 % 8 = 0) ∧
    ((managed .admin id).dev = .ready ∧
      (let a := unitLoc 0x4000 0x10000
       arrKey a = (0x4000 : BitVec 16).toNat * 8 + 0 ∧ arrayAt 0x4000 0 = true ∧ a < 2 ^ 48 ∧ (managed .admin id).isLive a = true ∧
         (managed .admin id).isOwn a = true)) ∧
    (let a := unitLoc 0x4000 0x30000
     arrKey a = (0x4000 : BitVec 16).toNat * 8 + 0 ∧ (managed .admin id).isLive a = false) ∧
    (let a := unitLoc 0x4000 0x10000
     ({ managed .admin id with pkg := some 1 } : State).isOwn a = false) ∧
    (arrayAt 0x8000 0 = false ∧ loggedAt 0x8000 0 = true ∧ loggedAt 0x9000 0 = false ∧ arrayAt 0x9000 0 = false) ∧
    -- a log with room, and one that is full
    (((managed .admin id).arr 0).log.length < 16 ∧
      ({ ((managed .admin id).arr 0) with log := List.replicate 16 logged } : ErrArray).log.length = 16) ∧
    (let a := unitLoc 0 0
     arrKey a = (0 : BitVec 16).toNat * 8 + 0 ∧ arrayAt 0 0 = true ∧ 2 ^ 48 ≤ a) := by
  and_intros <;> first
    | exact ⟨rfl, rfl, rfl, rfl, rfl⟩
    | decide +kernel

/-- Image `idx` without a body, and a device in a start state. -/
def image (idx : BitVec 8) : Image := { magic := 0x59464D31, index := idx, version := 7, bodyLen := 0, body := [], sig := [] }
def starting (d : DevSt) : State := { managed .admin id with dev := d }
def loaded : Loaded := { version := 7, digest := [] }
/-- Every image in slot A of the dies that it runs on. -/
def allIn (d : DevSt) : State :=
  { starting d with fwA := (List.range 12).map (fun k => (k, (List.range 8).map (fun i => (i, loaded)))), starter := some mgmt }

theorem witness_FirmwareIsLoadedAndTheDeviceStarts :
    -- images: the first in ROM, the next in LOADING, one in READY, a wrong magic word and index, and no state that loads
    (∀ d, (starting d).sessions.get? mgmt.sess = some .admin ∧ (starting d).dev = d ∧ (starting d).activating = []) ∧
    (∀ i : BitVec 8, i.toNat ≤ 7 → (image i).magic = 0x59464D31 ∧ (image i).index.toNat ≤ 7 ∧ (image i).body.length =
      (image i).bodyLen.toNat ∧ ((starting .rom).floors.get? (image i).index.toNat).getD 0 ≤ (image i).version.toNat) ∧
    ¬((image 8).index.toNat ≤ 7) ∧
    -- activation: of an image in slot B, of none, and the end of one on one die
    (Asks { managed .admin id with fwB := [(11, [(5, loaded)])] } mgmt .admin ∧
      (∀ d, d < 12 → (0x800 : BitVec 12).getLsbD d = true →
        slotOf ({ managed .admin id with fwB := [(11, [(5, loaded)])] } : State).fwB d 5 ≠ none) ∧
      slotOf (managed .admin id).fwB 11 5 = none) ∧
    (({ managed .admin id with fwB := [(11, [(5, loaded)])], activating := [(5, [[11], [10]])] } : State).activating.get? 5 =
      some ([11] :: [[10]]) ∧
      slotOf ({ managed .admin id with fwB := [(11, [(5, loaded)])] } : State).fwB 11 5 = some loaded ∧ ([(0, hostCtx)].map (·.1)).Nodup ∧
      hostCtx.waiting.length < 256) ∧
    -- starts: with an image missing, with all; not yet and fully trained
    ((starting .loading).allLoaded = false ∧ (allIn .loading).allLoaded = true) ∧
    ((allIn (.starting false)).starter = some mgmt ∧ ∃ d ∈ (linked .training (allIn (.starting false))).dies,
      ∃ l ∈ d.2.links, l.2.st = .training) ∧
    ∀ w, (linked .active (allIn (.starting w))).dev = .starting w ∧
      ∀ d ∈ (linked .active (allIn (.starting w))).dies, ∀ l ∈ d.2.links, l.2.st ≠ .training := by
  and_intros <;> first
    | exact fun _ => ⟨rfl, rfl, rfl⟩
    | exact fun _ h => ⟨rfl, h, rfl, Nat.zero_le _⟩
    | exact ⟨rfl, rfl, rfl, rfl, rfl⟩
    | decide +kernel

/-- A team on core 0 that has a slot. -/
def busyCore : State :=
  let s := managed .admin id
  { s with kernels := [(1, smallKernel)], cores := [(0, { Core.init with active := some (teamKey 1 0) })]
           teams := [(teamKey 1 0, { Team.start 1 0 [(0, 0x100, 1)] with place := .active 0, slot := some 2 })] }

theorem witness_ServiceRequestsTakeUnitsOutAndIn :
    Asks (managed .admin id) mgmt .admin ∧
    (∀ st, (linked st (managed .admin id)).link 0 = oneLink st) ∧
    -- spares: none used, both used; units that have spares and that have none
    (managed .admin id).spares = [] ∧ [(0x4000, SpareUnit.channel 1), (0x4000, SpareUnit.channel 2)].countP
      (fun x => decide (x.1 = (0x4000 : BitVec 16).toNat) && match x.2 with | .channel _ => true | .row _ => false) = 2 ∧
    ((0x4000 : BitVec 16).toNat / 4096 = 4 ∧ (0x9000 : BitVec 16).toNat / 4096 = 9 ∧ (0xA000 : BitVec 16).toNat / 4096 = 10 ∧
      (0x900F : BitVec 16).toNat % 4096 = 15 ∧ (0xA007 : BitVec 16).toNat % 4096 = 7) ∧
    -- cores: none, one with no team, one with a team that has a slot, one whose spare is used
    ((managed .admin id).spareCores = [] ∧ (∀ k ∈ (managed .admin id).cores, k.2.retired = false) ∧
      ((managed .admin id).core 0).residents = [] ∧ ((managed .admin id).core 0).switch = false ∧
      ((managed .admin id).core 0).loft = .empty) ∧
    ((busyCore.core 0).active = some (teamKey 1 0) ∧ (busyCore.core 0).held = none ∧ busyCore.slotFor (teamKey 1 0) ≠ none ∧
      busyCore.kernels.get? (teamKey 1 0 / 512) = some smallKernel ∧ (busyCore.teams.get? (teamKey 1 0)).isSome = true) ∧
    ({ managed .admin id with spareCores := [(0, 5)] } : State).spareCores.get? (0 / 64 * 4 + 0 % 64 / 16) ≠ none ∧
    -- dies in and out
    (7 ∉ (managed .admin id).fencedDies) ∧ 7 ∈ ({ managed .admin id with fencedDies := [7] } : State).fencedDies :=
  by and_intros <;> first
    | decide +kernel
    | exact asks _ _
    | (intro st; cases st <;> decide +kernel)

/-- A device with management connection 1, whose fuse holds the digest `x`. -/
def spdm (x : Option (List Byte)) (k : SessKind) (f : Ctx → Ctx) : State :=
  { managed k f with mgmtConns := [(1, false)], fuseAdmin := x }

theorem witness_SessionsAreEstablishedAndEnded :
    ((spdm none .admin id).dev ≠ .off ∧ (spdm none .admin id).mgmtConns.get? 1 ≠ none ∧ (spdm none .admin id).mgmtConns.get? 2 = none) ∧
    (∀ d : List Byte, (spdm none .admin (fun c => { c with session := none })).tenantBusy d = false) ∧
    ((spdm none .admin id).ctxs.get? 0 = some hostCtx ∧ hostCtx.digest = [] ∧ hostCtx.session ≠ none) ∧
    -- FINISH with a blank fuse, the administrator's key, the tenant's key with and without a session, and no one's key
    (∀ x, (spdm x (.opening none) id).sessions.get? 3 = some (.opening none) ∧ (spdm x (.opening none) id).fuseAdmin = x) ∧
    ([] : List Byte) ≠ [1] ∧ (∀ e ∈ (spdm (some [1]) (.opening none) id).ctxs, e.2.digest ≠ [2]) ∧
    ((spdm (some [1]) (.opening none) id).ctxs = [(0, hostCtx)] ∧
      (spdm (some [1]) (.opening none) Ctx.noSession).ctxs = [(0, hostCtx.noSession)] ∧ hostCtx.noSession.session = none) ∧
    -- established sessions, and none
    (spdm none .admin id).sessions.get? 3 = some .admin ∧ (spdm none (.tenant 0) id).sessions.get? 3 = some (.tenant 0) ∧
    (∀ b, ((spdm none (.tenant 0) (fun c => { c with keys := some { hostKeys with both := b } })).ctxs.get? 0).map (·.keys) =
      some (some { hostKeys with both := b })) ∧ (spdm none .admin id).sessions.get? 4 = none :=
  by and_intros <;> first
    | decide +kernel
    | exact fun _ => ⟨rfl, rfl⟩
    | (intro d; simp [spdm, managed, hosted, State.tenantBusy, State.updDie, State.setDie])

/-! ### Connections, links, power and the clock (16, 17, 20 to 22) -/

theorem isOwn_hosted {f : Ctx → Ctx} {g : Queue → Queue} {z : Nat} (h : z < 2 ^ 41) : (hosted f g).isOwn z = true := own_below rfl h

/-- The page at 0x10000 in package 1, and a poisoned word in the package's memory. -/
def abroad : State := elsewhere (hosted id id)
def marred : State := { hosted id id with poison := [0x10000] }

theorem witness_ConnectionsAndRdmaReachTheContext :
    -- accesses by physical address: the last granted bytes, past them, and each state that allows them
    (∃ u, Accepted (hosted id id) (packet false 6 false) hostCtx false u) ∧
    ¬physicalOk (hosted id id) (packet false 6 false) hostCtx 0x1FFFE0 64 ∧
    (∃ u, Accepted (hosted (inSt .unlocked) id) (packet false 6 false) (inSt .unlocked hostCtx) false u) ∧
    (∃ u, Accepted (hosted id id) (packet false 2 true) hostCtx true u) ∧
    ((hosted id id).isLive 0x10000 = true ∧ (hosted id id).poison = [] ∧ (hosted id id).injected = [] ∧
      (hosted id id).mem.wf = true ∧ (List.replicate 64 (0 : Byte)).length % 32 = 0) ∧
    -- a retransmission: of a packet refused before, of one that was not, and of one that still waits
    (hostKeys.answers.get? (packet false 2 true).seq.toNat = some hostNak ∧ hostKeys.answers.get? (packet false 3 true).seq.toNat = none ∧
      (hosted id id).held = [] ∧
      Held.write (packet false 6 false) 0x10000 [] (List.replicate 32 0) ∈ usingOld.held) ∧
    -- by virtual address: a page and none, one that no link reaches; a queue's registers; a key that is none of the three
    ((match ((hosted id id).transAll 0 0 0x10000 64 false true).2 with | .ok ps => ps == [(0x10000, 64)] | .error _ => false) = true ∧
      (match ((hosted id id).transAll 0 0 0x20000 64 false true).2 with | .ok _ => false | .error f => f == 0x20000) = true ∧
      (match (abroad.transAll 0 0 0x10000 64 false true).2 with
        | .ok ps => ps.any (fun x => !abroad.isOwn x.1)
        | .error _ => false) = true ∧ abroad.linked = false ∧ ((hosted id id).queueOf 0 7).isSome = true ∧ (0 : Word) ≠ 3) ∧
    -- a write that covers a poisoned word in part; a read of another package, over a link and not, and of a poisoned word there
    (marred.edgeError 0 [(0x10008, 8)]).2 = some 0x10000 ∧
    ((hosted id id).isOwn (2 ^ 41) = false ∧ joining.linked = true ∧ (hosted id id).linked = false ∧
      ({ joining with poison := [2 ^ 41] } : State).poison.any (wordMeets (2 ^ 41) 32) = true) ∧
    -- connections
    ((hosted id id).dev ≠ .off ∧ ((hosted id id).mgmtConns.countP (fun e => e.2 == false)) = 0 ∧
      ((List.range 64).map (fun n => (n, false))).countP (fun e => e.2 == false) = 64) ∧
    ((hosted id id).ctxs.get? 0 = some hostCtx ∧ hostCtx.session ≠ none ∧ hostCtx.conns.getD 1 false = false ∧
      hostCtx.conns.getD 0 false = true ∧ hostCtx.conns.length = 2) ∧
    -- an unknown request on a connection of the context, whose next number is below 2^62
    (∃ u k, Accepted (hosted id id) (packet false 6 false) hostCtx false u ∧
      (u.ctxs.get? (packet false 6 false).ctx.toNat).bind (·.keys) = some k ∧ k.sent + 1 < 2 ^ 62) := by
  and_intros <;> first
    | decide +kernel
    | exact accepted id id rfl rfl
    | exact accepted_keys
    | exact accepted (inSt .unlocked) id rfl rfl
    | exact fun h => absurd h.2.2 (by decide +kernel)
    | exact accepted_again

/-- Granted bytes of the own package, in each state that allows the access. -/
theorem witness_PhysicalAccess :
    physicalOk (hosted id id) (packet false 6 false) hostCtx 0x1FFFE0 32 ∧
    physicalOk (hosted (inSt .unlocked) id) (packet false 6 false) (inSt .unlocked hostCtx) 0 32 ∧
    ∀ y, 0x10000 ≤ y → y < 0x10000 + 64 → (hosted id id).isOwn y = true :=
  ⟨⟨Or.inl rfl, by decide, by decide +kernel⟩, ⟨Or.inr rfl, by decide, by decide +kernel⟩, fun _ _ h => isOwn_hosted (by omega)⟩

/-- A window of package 1, and another list that the die keeps until it may take effect. -/
def window (i : Nat) : RedWindow := { base := BitVec.ofNat 48 (2 ^ 41 + i * 2 ^ 21), size := 0x200000 }
def sentAt : State := { sentOut with contribs := [{ contribution with pa := 2 ^ 41 + 2 ^ 21 }] }
def listed (s : State) : State := onDie (fun d => { d with windows := [window 0], newWindows := some [window 0, window 1] }) s

theorem witness_LinksPowerAndTheClock :
    -- links in each state; training with nine, eight, seven, four and three lanes
    (∀ st, ((linked st base).die (0 / 8)).links.get? (0 % 8) = some (oneLink st)) ∧
    ([0x1FF, 0xFF, 0x7F, 0xF, 7].map (fun g : BitVec 9 => (List.range 9).countP (fun k => g.getLsbD k)) = [9, 8, 7, 4, 3]) ∧
    (5 ∈ (oneLink .active).seen ∧ 6 ∉ (oneLink .active).seen ∧ (oneLink .retraining).spu = false ∧ (4 : BitVec 4).toNat < 9) ∧
    -- accesses that wait for a link, and none
    (base.held = [] ∧ usingOld.held ≠ []) ∧
    -- events to the one context
    ((hosted id id).ctxs = [(0, hostCtx)] ∧ hostCtx.est ≠ 0 ∧ hostCtx.waiting.length < 256 ∧
      (hosted id id).dev ≠ .off ∧ (hosted id id).carrier.getD 0 false = false) ∧
    -- the clock at each end, held and free; a device without power, and a core whose retirement is under way
    (({ base with mhz := 2200 } : State).mhz = 2200 + 275 * 0 ∧ ({ base with mhz := 4400 } : State).mhz = 2200 + 275 * 8 ∧
      ({ base with mhz := 2475, hold := true } : State).hold = true ∧ ({ base with hold := false } : State).hold = false) ∧
    (State.reset.dev = .off ∧ base.dev ≠ .off ∧ base.mem.wf = true ∧ ∀ c ∈ base.cores, c.2.retired = false) ∧
    ((onCore (fun k => { k with retired := true })).cores.any (fun c => c.2.retired) = true) ∧
    -- windows: the longest list of the smallest windows; dies with a link in training and without
    (let ws := (List.range 8).map window
     ws.length ≤ 8 ∧ ∀ w ∈ ws, w.base.toNat % 2 ^ 21 = 0 ∧ w.size.toNat % 2 ^ 21 = 0 ∧ 0 < w.size.toNat ∧
       w.base.toNat / 2 ^ 41 = (w.base.toNat + w.size.toNat - 1) / 2 ^ 41) ∧
    (((linked .training base).dies.get? 0).any (fun x => x.links.any (fun l => decide (l.2.st = .training))) = true ∧
      ((linked .active base).dies.get? 0).any (fun x => x.links.all (fun l => decide (l.2.st ≠ .training))) = true) ∧
    -- a list that waits: with no move to the addresses it changes, and with one in flight
    ((listed base).die 0).newWindows = some [window 0, window 1] ∧
    (listed base).movesTo [((window 1).base.toNat, (window 1).base.toNat + 2 ^ 21)] = false ∧
    (listed sentAt).movesTo [((window 1).base.toNat, (window 1).base.toNat + 2 ^ 21)] = true ∧
    -- an element of another die's engine on its way to a changed address
    (listed { sentAt with contribs := sentAt.contribs.map (fun x => { x with eng := 128 }) }).movesTo
      [((window 1).base.toNat, (window 1).base.toNat + 2 ^ 21)] = true ∧
    (∀ d ∈ base.dies, ∀ e ∈ d.2.engines, ∀ c ∈ e.2.cmds, c.st.gone = true) ∧
    ¬(∀ d ∈ (withCmds [copyIn .active]).dies, ∀ e ∈ d.2.engines, ∀ c ∈ e.2.cmds, c.st.gone = true) := by
  and_intros <;> first
    | decide +kernel
    | (intro st; cases st <;> decide +kernel)

/-! ### The machine as a whole -/

/-- A state whose next step is the agent of a placed instruction. -/
def placed (w nbits : Nat) : State := { State.reset with dev := .ready }.withFetchWord nbits w

/-- A poisoned word in the core's instruction scratchpad, where the strand fetches. -/
def unreadable : State := { base with poison := [ispLoc 0 0] }

theorem witness_StepRunsTheDecodedInstruction :
    -- a strand in its scratchpad, at the first offset and past the last, and with an illegal word
    ((placed 0x00700293 32).agenda = [.strand 0 0] ∧
      (∃ e, ({ placed 0x00700293 32 with cur := .strand 0 0, tick := 1, agenda := [] } : State).env = some e ∧ e.st.pc = 0x800000) ∧
      decodeStrand (BitVec.ofNat 32 ((placed 0x00700293 32).mem.num (ispLoc 0 0) 4)) = some (.addi 5 0 7) ∧
      ((placed 0x00700293 32).core 0).stale = []) ∧
    (∃ e, (onStrand (fun st => { st with pc := 0x840000 })).env = some e ∧ 0x840000 ≤ e.st.pc.toNat) ∧
    decodeStrand 0 ≠ some .sdone ∧ decodeStrand 0x0041230B = none ∧
    -- an engine, a walker, a sub-tile, the head of each queue, a box, an event
    ((placed 0x3E 64).agenda = [.engine 0] ∧ (∃ r, ((placed 0x3E 64).eng 0).run = some r ∧ r.ended = false ∧ r.pc = 0) ∧
      decodeMove (BitVec.ofNat 64 ((placed 0x3E 64).mem.num (moveLoc 0) 8)) = some .mvRet) ∧
    ((walking 0).walkers.get? 0).isSome = true ∧
    (dispatched.core 0).sheaf 0 ≠ none ∧ (decodeTile (clrWord 0x1000)).isSome = true ∧
    ((sending true id).core 0).xq.length = 1 ∧ decodeTile xferWord = some (.xfer noHdr 0 0 0) ∧
    issuesMove (.mvCopy copyOp) = true ∧ misfetch .thermalHold = false ∧ Instr.thermalHold.kind = .event ∧
    -- a fetch that meets an error, and one that meets none; a word that issues for the first time
    (unreadable.fetchCheck.2 = true ∧ base.fetchCheck.2 = false ∧ base.poison = [] ∧ base.injected = []) ∧
    (∃ e, base.env = some e ∧ e.st.wait = none ∧ (base.strands.get? e.key).any (fun st => decide (st.wait = none)) = true) ∧
    -- a strand that waits in a word it holds, before its execution (a full register) or at the engine; a request that waits
    (∃ e, (onStrand (fun st => { st with wait := some .engine, held := some .sdone })).env = some e ∧ e.st.wait ≠ none ∧
      e.st.held = some .sdone) ∧
    (∃ e, (onStrand (fun st => { st with wait := some (.full 7), held := some .sdone })).env = some e ∧ e.st.held = some .sdone) ∧
    (let s : State := { base with agenda := [.waiting .thermalHold], requests := [.thermalHold] };
      Instr.thermalHold ∈ s.requests ∧ s.agenda = [.waiting .thermalHold]) := by
  and_intros <;> decide +kernel

theorem witness_EncodedInstructionsDecode :
    Instr.thermalHold.kind = .event ∧ (Instr.addi 31 0 0x800).kind ≠ .event ∧ (Instr.addi 31 0 0x800).wf = true := by decide +kernel

theorem witness_EveryStepKeepsTheMemoryCanonical :
    dispatched.mem.wf = true ∧ ∃ t, step (placed 0x00532023 32) = .next t := ⟨by decide +kernel, ⟨_, rfl⟩⟩

end Sys2Proof.Tests
end

section
/-! SUPPORT. The words that compute a register from two registers (R85, R87): each is a value word or a word whose result comes
later, and its value, stated on numbers in one place and on words in the other, is the same word. -/

namespace Sys2Proof.Machine

/-! ## Words that write one register -/

section

variable {s : State} {e : Env} {srcs : List XReg} {d : XReg} {f : Strand → Word} {v : Word}
  {o : Host.Outcome State Fault Refusal}

theorem next_of_valueWord (h : Ready s e srcs [d]) (ho : o = valueWord s srcs d f) (hv : f e.st = v) :
    o = .next (completed e (e.st.setX d v) s) := by
  rw [ho, ← hv]
  exact strandWord_ready h _

theorem next_of_laterWord (h : Ready s e srcs [d]) (ho : o = laterWord s srcs d f) (hv : f e.st = v) :
    o = .next (completed e (e.st.later d v) s) := by
  rw [ho, ← hv]
  exact strandWord_ready h _

end

/-! ## Values as numbers -/

theorem sshiftRight_eq_ofInt_div (x : Word) (n : Nat) : x.sshiftRight n = BitVec.ofInt 32 (x.toInt / 2 ^ n) := by
  simp [BitVec.sshiftRight, Int.shiftRight_eq_div_pow]

theorem ite_slt_eq (x y : Word) : (if x.slt y then (1 : Word) else 0) = if x.toInt < y.toInt then 1 else 0 := by
  simp [BitVec.slt]

theorem ite_ult_eq (x y : Word) : (if x.ult y then (1 : Word) else 0) = if x.toNat < y.toNat then 1 else 0 := by
  simp [BitVec.ult]

theorem upperWord_ofInt (z : Int) :
    (((BitVec.ofInt 64 z : DWord) >>> 32).truncate 32 : Word) = BitVec.ofInt 32 (z / 2 ^ 32) := by
  apply BitVec.eq_of_toNat_eq
  simp only [BitVec.truncate_eq_setWidth, BitVec.toNat_setWidth, BitVec.toNat_ushiftRight, BitVec.toNat_ofInt,
    Nat.shiftRight_eq_div_pow]
  omega

theorem signExtend_eq_ofInt (x : Word) : (x.signExtend 64 : DWord) = BitVec.ofInt 64 x.toInt := rfl

theorem zeroExtend_eq_ofInt (x : Word) : (x.zeroExtend 64 : DWord) = BitVec.ofInt 64 x.toNat := by
  rw [BitVec.ofInt_natCast, BitVec.ofNat_toNat]

/-- The high half of a product of two integers is the upper word of the product of their 64-bit words. -/
theorem ofInt_mul_div_eq {x y : DWord} {u v : Int} (hx : x = BitVec.ofInt 64 u) (hy : y = BitVec.ofInt 64 v) :
    BitVec.ofInt 32 (u * v / 2 ^ 32) = ((x * y) >>> 32).truncate 32 := by
  rw [hx, hy, ← BitVec.ofInt_mul, upperWord_ofInt]

theorem ofNat_mul_div_eq (x y : Word) :
    BitVec.ofNat 32 (x.toNat * y.toNat / 2 ^ 32) =
      ((x.zeroExtend 64 * y.zeroExtend 64 : DWord) >>> 32).truncate 32 := by
  rw [← ofInt_mul_div_eq (zeroExtend_eq_ofInt x) (zeroExtend_eq_ofInt y), ← BitVec.ofInt_natCast]
  norm_cast

/-- R85: the high halves and the arithmetic shift are computed on integers, every other value on words. -/
theorem registerWords_write_their_value : clauseRegisterWordsWriteTheirValue := by
  intro s e d a b h x y n
  refine ⟨?_, ?_, ?_, ?slt, ?sltu, ?_, ?_, ?sra, ?_, ?_, ?_, ?mulh, ?mulhsu, ?mulhu⟩ <;> unfold exec
  case slt => exact next_of_valueWord h rfl (ite_slt_eq x y)
  case sltu => exact next_of_valueWord h rfl (ite_ult_eq x y)
  case sra => exact next_of_valueWord h rfl (sshiftRight_eq_ofInt_div x n)
  case mulh => exact next_of_valueWord h rfl (ofInt_mul_div_eq (signExtend_eq_ofInt x) (signExtend_eq_ofInt y))
  case mulhsu => exact next_of_valueWord h rfl (ofInt_mul_div_eq (signExtend_eq_ofInt x) (zeroExtend_eq_ofInt y))
  case mulhu => exact next_of_valueWord h rfl (ofNat_mul_div_eq x y)
  all_goals exact next_of_valueWord h rfl rfl

/-! ## Divisions (R87) -/

theorem ofInt_tdiv_eq_sdiv (x y : Word) : BitVec.ofInt 32 (x.toInt.tdiv y.toInt) = x.sdiv y :=
  BitVec.eq_of_toInt_eq (by rw [BitVec.toInt_ofInt, BitVec.toInt_sdiv])

theorem ofNat_div_eq_udiv (x y : Word) : BitVec.ofNat 32 (x.toNat / y.toNat) = x / y := by
  rw [← BitVec.toNat_udiv, BitVec.ofNat_toNat, BitVec.setWidth_eq]

theorem ite_ofInt_tmod_eq_srem (x y : Word) : (if y = 0 then x else BitVec.ofInt 32 (x.toInt.tmod y.toInt)) = x.srem y := by
  rw [← BitVec.toInt_srem, BitVec.ofInt_toInt]
  split
  case isTrue hy => rw [hy]; exact BitVec.srem_zero.symm
  case isFalse => rfl

theorem ite_ofNat_mod_eq_umod (x y : Word) : (if y = 0 then x else BitVec.ofNat 32 (x.toNat % y.toNat)) = x % y := by
  rw [← BitVec.toNat_umod, BitVec.ofNat_toNat, BitVec.setWidth_eq]
  split
  case isTrue hy => rw [hy]; exact BitVec.umod_zero.symm
  case isFalse => rfl

theorem sdiv_mul_add_srem {x y : Word} (h : ¬(x = 0x80000000 ∧ y = 0xFFFFFFFF)) :
    (x.sdiv y).toInt * y.toInt + (x.srem y).toInt = x.toInt := by
  rw [BitVec.toInt_sdiv_of_ne_or_ne x y (not_and_or.1 h), BitVec.toInt_srem, Int.tdiv_mul_add_tmod]

theorem natAbs_srem_lt (x : Word) {y : Word} (h : y ≠ 0) : (x.srem y).toInt.natAbs < y.toInt.natAbs := by
  rw [BitVec.toInt_srem, Int.natAbs_tmod]
  exact Nat.mod_lt _ (Int.natAbs_pos.2 (BitVec.toInt_inj.not.2 h))

/-- A remainder that is not zero has the sign of the dividend. -/
theorem srem_eq_zero_or_neg_iff (x y : Word) : x.srem y = 0 ∨ ((x.srem y).toInt < 0 ↔ x.toInt < 0) := by
  by_cases h : y.toInt ∣ x.toInt
  · exact .inl (BitVec.eq_of_toInt_eq (by rw [BitVec.toInt_srem, Int.tmod_eq_zero_of_dvd h]; rfl))
  · right
    rw [← Int.sign_eq_neg_one_iff_neg, ← Int.sign_eq_neg_one_iff_neg, BitVec.toInt_srem, Int.sign_tmod, if_neg h]

/-- R87: the quotients and remainders of words, but for a quotient by zero, which is all ones. -/
theorem divisions_give_their_result : clauseDivisionsGiveTheirResult := by
  intro s e d a b h x y
  refine ⟨if y = 0 then 0xFFFFFFFF else x.sdiv y, x.srem y, if y = 0 then 0xFFFFFFFF else x / y, x % y,
    ?div, ?rem, ?divu, ?remu, ?zero, ?overflow, ?unsigned, ?signed⟩
  case div => unfold exec; exact next_of_laterWord h rfl (by rw [← ofInt_tdiv_eq_sdiv])
  case rem => unfold exec; exact next_of_laterWord h rfl (ite_ofInt_tmod_eq_srem x y)
  case divu => unfold exec; exact next_of_laterWord h rfl (by rw [← ofNat_div_eq_udiv])
  case remu => unfold exec; exact next_of_laterWord h rfl (ite_ofNat_mod_eq_umod x y)
  case zero =>
    intro hy
    rw [if_pos hy, if_pos hy, hy]
    exact ⟨rfl, BitVec.srem_zero, rfl, BitVec.umod_zero⟩
  case overflow =>
    intro hx hy
    rw [hx, hy]
    decide
  case unsigned =>
    intro hy
    rw [if_neg hy]
    exact ⟨BitVec.toNat_udiv, BitVec.toNat_umod⟩
  case signed =>
    intro hy hc
    rw [if_neg hy]
    exact ⟨sdiv_mul_add_srem hc, natAbs_srem_lt x hy, srem_eq_zero_or_neg_iff x y⟩

/-- Settles O4: both clauses hold; the values of the model and of the statement agree as numbers. -/
theorem registerWordsComputeTheirValue : Obligations.RegisterWordsComputeTheirValue :=
  ⟨registerWords_write_their_value, divisions_give_their_result⟩

end Sys2Proof.Machine
end

section
/-! SUPPORT. Hardware loops (R95 to R99): the loop-end event level by level, the shared begin of a loop, and the words that act
on the loop stack. -/

namespace Sys2Proof.Machine

/-! ## The loop-end event (R97, R117) -/

theorem rotate_eq_rotated (st : Strand) : st.rotate = rotated st := by
  have hp : (((st.p.set 5 st.p[4]).set 6 st.p[5]).set 7 st.p[6]).set 4 st.p[7] =
      #v[st.p[0], st.p[1], st.p[2], st.p[3], st.p[7], st.p[4], st.p[5], st.p[6]] := by
    refine Vector.ext fun i hi => ?_
    interval_cases i <;> simp
  have hr : st.rrb + 15 = BitVec.ofNat 4 ((st.rrb.toNat + 15) % 16) := by
    apply BitVec.eq_of_toNat_eq
    simp
  simp only [Strand.rotate, rotated, hp, hr]

/-- The event reads the levels that it is given and not those that the strand holds. -/
theorem loopEndAux_with_loops (a : Word) (ls ms : List LoopLevel) (st : Strand) :
    loopEndAux a ls { st with loops := ms } = loopEndAux a ls st := by
  induction ls generalizing st with
  | nil => rfl
  | cons l ls ih =>
    have hrot : ({ st with loops := ms } : Strand).rotate = { st.rotate with loops := ms } := rfl
    simp only [loopEndAux, hrot]
    cases l.rot <;> simp only [if_true, if_false, Bool.false_eq_true, ih]

theorem loopEnd_of_stop {st : Strand} {a : Word} {l : LoopLevel} {ls : List LoopLevel} (hl : st.loops = l :: ls)
    (hs : l.stop = a) :
    st.loopEnd a =
      let st' := if l.rot then rotated st else st
      if l.index.toNat + 1 < l.count.toNat then
        { st' with loops := { l with index := l.index + 1 } :: ls, pc := l.start }
      else ({ st' with loops := ls } : Strand).loopEnd a := by
  simp only [Strand.loopEnd, hl, loopEndAux, hs, if_true, rotate_eq_rotated, loopEndAux_with_loops]

theorem atEnd_eq_false {st : Strand} {a : Word} (h : st.loops = [] ∨ ∃ l ls, st.loops = l :: ls ∧ l.stop ≠ a) :
    st.atEnd a = false := by
  rcases h with h | ⟨l, ls, h, hs⟩
  · simp [Strand.atEnd, h]
  · simp [Strand.atEnd, h, hs]

theorem loopEnd_follows_innermost_level : clauseLoopEndEventFollowsTheInnermostLevel := by
  intro st a
  refine ⟨fun h => loopEnd_of_not_atEnd st a (atEnd_eq_false h), ?_⟩
  intro l ls hl hs st'
  rw [loopEnd_of_stop hl hs]
  exact ⟨fun h => if_pos h, fun h => if_neg (Nat.not_lt.2 h)⟩

/-! ## Words that begin a loop (R96, R99) -/

theorem shiftLeft_two_eq_mul (x : Word) : x <<< 2 = 4 * x := by
  rw [BitVec.shiftLeft_eq_mul_twoPow, BitVec.mul_comm]
  rfl

/-- The four words that begin a loop differ in where their count comes from and in the rotation alone. -/
theorem exec_loop_word {s : State} {e : Env} {x : XReg} {n : BitVec 10} {off : BitVec 11} {rot : Bool} {word : Instr}
    {count : Nat}
    (h : word = (if rot then .lpBeginRot x off else .lpBegin x off) ∧ count = (e.st.getX x).toNat ∧ Ready s e [x] [] ∨
      word = (if rot then .lpBeginiRot n off else .lpBegini n off) ∧ count = n.toNat ∧ s.env = some e) :
    exec word s = .next ((loopBegin e s count off rot).apply e) := by
  rcases h with ⟨rfl, rfl, h⟩ | ⟨rfl, rfl, h⟩
  · cases rot
    · exact strandWord_ready h _
    · exact strandWord_ready h _
  · cases rot
    · exact strandWord_acts h _
    · exact strandWord_acts h _

/-- R96: `loop_begin` case by case. -/
theorem loopBegin_pushes_one_level : clauseLoopBeginPushesOneLevel := by
  intro s e x n off a last fault outside rot word count hw
  have hlast : e.st.pc + (off.zeroExtend 32 <<< 2) = last := by rw [shiftLeft_two_eq_mul]
  rw [exec_loop_word hw]
  unfold loopBegin
  simp only [hlast]
  refine ⟨?skips, ?skipsOut, ?tooMany, ?tooDeep, ?outside, ?pushed⟩
  case skips =>
    intro h0 hlo hhi
    rw [if_pos h0, if_pos ⟨hlo, hhi⟩]
    rfl
  case skipsOut =>
    intro h0 hout
    rw [if_pos h0, if_neg hout]
    rfl
  case tooMany =>
    intro hbig
    rw [if_neg (by omega), if_pos hbig]
    rfl
  case tooDeep =>
    intro hpos hle hdeep
    rw [if_neg (by omega), if_neg (by omega), if_pos hdeep]
    rfl
  case outside =>
    rintro hpos hle hdeep ⟨l, ls, hl, hout⟩
    rw [if_neg (by omega), if_neg (by omega), if_neg hdeep, if_pos]
    · rfl
    · simpa [hl, BitVec.ult] using hout
  case pushed =>
    intro hpos hle hdeep hin
    rw [if_neg (by omega), if_neg (by omega), if_neg hdeep, if_neg]
    · rfl
    · intro hout
      cases hl : e.st.loops with
      | nil => simp [hl] at hout
      | cons l ls => exact hin ⟨l, ls, hl, by simpa [hl, BitVec.ult] using hout⟩

/-! ## Words that act on the loop stack (R59, R98) -/

theorem toNat_fld {k : Nat} (w : BitVec k) (lo n : Nat) : (fld w lo n).toNat = w.toNat / 2 ^ lo % 2 ^ n := by
  simp [fld, BitVec.extractLsb'_toNat, Nat.shiftRight_eq_div_pow]

/-- A word of custom-0 with funct3 010 (R59). -/
theorem decodeStrand_eq_decC010 {w : Word} (hop : w.toNat % 2 ^ 7 = 11) (hf : w.toNat / 2 ^ 12 % 2 ^ 3 = 2) :
    decodeStrand w = (decC010 w).filter Instr.wf := by
  have h7 : (fld w 0 7).toNat = 11 := by rw [toNat_fld, Nat.pow_zero, Nat.div_one, hop]
  have h3 : (fld w 12 3).toNat = 2 := by rw [toNat_fld, hf]
  simp only [decodeStrand, Sys2Proof.strandWord, h7, decCustom0, h3]

theorem wf_lpIdx (d : XReg) (lvl : BitVec 5) : (Instr.lpIdx d lvl).wf = decide (lvl.toNat ≤ 5) := rfl

/-- R98: a level of 6 to 31 is no field of `lp.idx`. -/
theorem decodeStrand_lpIdx_deep (d : XReg) {lvl : BitVec 5} (h : 6 ≤ lvl.toNat) :
    decodeStrand (BitVec.ofNat 32 (0x0400200B + d.toNat * 2 ^ 7 + lvl.toNat * 2 ^ 20)) = none := by
  have hd := d.isLt
  have hl := lvl.isLt
  have hw := BitVec.toNat_ofNat (0x0400200B + d.toNat * 2 ^ 7 + lvl.toNat * 2 ^ 20) 32
  generalize BitVec.ofNat 32 (0x0400200B + d.toNat * 2 ^ 7 + lvl.toNat * 2 ^ 20) = w at hw ⊢
  have h25 : (fld w 25 7).toNat = 2 := by rw [toNat_fld]; omega
  have h20 : ¬(fld w 20 5).toNat ≤ 5 := by rw [toNat_fld]; omega
  rw [decodeStrand_eq_decC010 (by omega) (by omega)]
  simp only [decC010, h25]
  split
  · simp [wf_lpIdx, h20]
  · rfl

theorem loopStack_words_act_on_named_level : clauseLoopStackWordsActOnNamedLevel := by
  intro s e d lvl fault
  refine ⟨?empty, ?innermost, ?index, decodeStrand_lpIdx_deep d⟩
  case empty =>
    intro he hl
    constructor
    · exact (strandWord_acts he _).trans (by rw [hl]; rfl)
    · exact (strandWord_acts he _).trans (by rw [hl]; rfl)
  case innermost =>
    intro l ls he hl
    constructor
    · exact (strandWord_acts he _).trans (by rw [hl]; rfl)
    · exact (strandWord_acts he _).trans (by rw [hl]; rfl)
  case index =>
    intro h
    refine ⟨fun hlen => ?_, fun l hl => ?_⟩
    · exact (strandWord_ready h _).trans (by rw [List.getElem?_eq_none hlen]; rfl)
    · exact (strandWord_ready h _).trans (by rw [hl]; rfl)

/-- Settles O7: level by level for the loop-end event, case by case for the words. -/
theorem loopsFollowTheirLevels : Obligations.LoopsFollowTheirLevels :=
  ⟨loopEnd_follows_innermost_level, loopBegin_pushes_one_level, loopStack_words_act_on_named_level⟩

end Sys2Proof.Machine
end

section
/-! SUPPORT. Traps (R100 to R106): what a strand word sees of the state, pending results on the entry into a handler, the return
from it, and the failure of a kernel, which no later part of it takes back. -/

namespace Sys2Proof.Machine

/-! ## What a strand word sees -/

/-- The objects of an environment are those of the state. -/
theorem env_objects {s : State} {e : Env} (h : s.env = some e) :
    s.kernels.get? e.tm.lid = some e.kn ∧ s.strands.get? e.key = some e.st ∧
      e.key = strandKey e.tm.lid (e.tm.num * 4 + e.slot) ∧ e.slot < 4 := by
  unfold State.env at h
  split at h
  · simp only [Option.bind_eq_some_iff, Option.ite_none_right_eq_some, Bool.and_eq_true, decide_eq_true_eq] at h
    obtain ⟨tk, -, tm, -, kn, hkn, st, hst, ⟨-, hsl⟩, he⟩ := h
    obtain rfl := Option.some.inj he
    exact ⟨hkn, hst, rfl, hsl⟩
  · cases h

theorem strandLid_strandKey {lid num : Nat} (h : num < 2048) : strandLid (strandKey lid num) = lid := by
  unfold strandLid strandKey
  omega

/-! ## Pending results (R91, R101) -/

/-- A register holds the last of the results that are written to it, or else what it held. -/
theorem getX_foldl_setX {r : XReg} (hr : r ≠ 0) (ps : List (XReg × Word)) (st : Strand) :
    (ps.foldl (fun t p => t.setX p.1 p.2) st).getX r =
      (ps.filter (fun p => p.1 == r)).foldl (fun _ p => p.2) (st.getX r) := by
  induction ps generalizing st with
  | nil => rfl
  | cons p ps ih =>
    obtain ⟨q, v⟩ := p
    rw [List.foldl_cons, ih]
    by_cases hq : q = r
    · subst hq
      simp [getX_setX_same st hr]
    · simp [hq, getX_setX_other st (Ne.symm hq)]

theorem foldl_setX_frame (ps : List (XReg × Word)) (st : Strand) :
    ∃ x, ps.foldl (fun t p => t.setX p.1 p.2) st = { st with x := x } := by
  induction ps generalizing st with
  | nil => exact ⟨st.x, rfl⟩
  | cons p ps ih =>
    obtain ⟨x, hx⟩ := ih (st.setX p.1 p.2)
    refine ⟨x, hx.trans ?_⟩
    unfold Strand.setX
    split <;> rfl

/-- The arrival of every pending result changes registers alone. -/
theorem deliverAll_frame (st : Strand) : ∃ x, st.deliverAll = { st with x := x, pend := [] } := by
  obtain ⟨x, hx⟩ := foldl_setX_frame st.pend st
  exact ⟨x, by rw [Strand.deliverAll, hx]⟩

theorem deliverAll_getX (st : Strand) {r : XReg} (hr : r ≠ 0) :
    st.deliverAll.getX r = (st.pend.filter (fun p => p.1 == r)).foldl (fun _ p => p.2) (st.getX r) :=
  getX_foldl_setX hr st.pend st

theorem deliverAll_getX_full (st : Strand) {r : XReg} (h : st.isEmpty r = false) : st.deliverAll.getX r = st.getX r := by
  by_cases hr : r = 0
  · rw [hr, getX_zero, getX_zero]
  · have hnone : st.pend.filter (fun p => p.1 == r) = [] :=
      List.filter_eq_nil_iff.2 (fun p hp => by simpa using List.any_eq_false.1 h p hp)
    rw [deliverAll_getX st hr, hnone, List.foldl_nil]

/-! ## Entering a handler and returning from it (R101, R104) -/

theorem takeTrap_eq_trapped (st : Strand) (cause : Nat) (done : Bool) (info : Word) :
    st.takeTrap cause done info = trapped st cause done info := by
  obtain ⟨x, hx⟩ := deliverAll_frame st
  simp only [Strand.takeTrap, trapped, hx]

theorem trap_of_in_kernel (s : State) (core key : Nat) {st : Strand} {cause : Nat} (done : Bool) (info : Word)
    (hf : st.hflag = false) (hc : cause ≤ 4) (hk : st.ktvec ≠ 0) :
    s.trap core key st cause done info = s.setStrand key (s.boundary core (trapped st cause done info) false) := by
  rcases trap_cases s core key st cause done info with ⟨-, -, -, h⟩ | ⟨-, h4 | h0, -⟩ | ⟨ht, -⟩
  · rw [h, takeTrap_eq_trapped]
    simp only [State.setStrand, set_set]
    rfl
  · omega
  · exact absurd h0 hk
  · simp [hf] at ht

theorem inKernelTrap_enters_handler : clauseInKernelTrapEntersTheHandler := by
  intro s core key st cause done info hf hc hk st' t
  have ht : t = s.setStrand key st' := trap_of_in_kernel s core key done info hf hc hk
  obtain ⟨x, hx⟩ := deliverAll_frame st
  rw [ht]
  refine ⟨get?_set_same _ _ _, fun k hne => get?_set_other _ hne _, rfl, rfl, rfl, ?code, rfl, rfl, rfl, rfl, rfl, ?full,
    fun r hr => deliverAll_getX_full st hr, ?arrived⟩
  case code => exact Nat.mod_eq_of_lt (by omega)
  case full => exact fun r => rfl
  case arrived =>
    intro r v hr hp
    exact (deliverAll_getX st hr).trans (by rw [hp]; rfl)

theorem trapReturn_of_not_done {st : Strand} (h : st.kdone = false) :
    st.trapReturn = { st with loops := st.saved, saved := [], hflag := false, pc := st.kepc } := by
  simp [Strand.trapReturn, h]

theorem trapReturn_of_done {st : Strand} (h : st.kdone = true) :
    st.trapReturn = ({ st with loops := st.saved, saved := [], hflag := false } : Strand).loopEnd st.kepc := by
  simp [Strand.trapReturn, h]

theorem exec_tret_in_handler {s : State} {e : Env} (he : s.env = some e) (hf : e.st.hflag = true) :
    exec .tret s = .next (s.setStrand e.key (s.boundary e.core e.st.trapReturn
      (e.st.kdone && ({ e.st with loops := e.st.saved } : Strand).atEnd e.st.kepc))) :=
  (strandWord_acts he _).trans (by rw [if_pos hf]; rfl)

theorem trapReturn_restores_loops : clauseTrapReturnRestoresTheLoops := by
  intro s e he hf back
  rw [exec_tret_in_handler he hf]
  refine ⟨fun hd => ?again, fun hd => ?completed⟩
  case again => rw [trapReturn_of_not_done hd, hd]; rfl
  case completed => rw [hd, Bool.true_and, trapReturn_of_done hd]; rfl

/-! ## Strands and kernels at the end of a kernel's work (R348) -/

/-- Two states with the same strands and the same kernels. -/
def SameWork (s t : State) : Prop := t.strands = s.strands ∧ t.kernels = s.kernels

theorem sameWork_refl (s : State) : SameWork s s := ⟨rfl, rfl⟩

theorem sameWork_trans {s t u : State} (h : SameWork s t) (k : SameWork t u) : SameWork s u :=
  ⟨k.1.trans h.1, k.2.trans h.2⟩

theorem sameWork_of_errors {s t : State} (h : sameButErrors s t) : SameWork s t := by
  unfold sameButErrors at h
  rw [← h]
  exact ⟨rfl, rfl⟩

theorem sameWork_foldl {α : Type} {f : State → α → State} (h : ∀ s a, SameWork s (f s a)) (xs : List α) (s : State) :
    SameWork s (xs.foldl f s) := by
  induction xs generalizing s with
  | nil => exact sameWork_refl s
  | cons x xs ih => exact sameWork_trans (h s x) (ih _)

theorem zero_sameWork (s : State) (a n : Nat) : SameWork s (s.zero a n) :=
  have ⟨hs, hk⟩ := sameWork_of_errors (writeCheck_errors s a n)
  ⟨hs, hk⟩

theorem makeLive_sameWork (s : State) (pa : Nat) : SameWork s (s.makeLive pa) := by
  unfold State.makeLive
  split
  · exact sameWork_refl s
  · exact ⟨rfl, rfl⟩

theorem atHome_sameWork {f : State → State} (h : ∀ s, SameWork s (f s)) (s : State) (pa n : Nat) :
    SameWork s (s.atHome pa n f) :=
  sameWork_trans (sameWork_trans (sameWork_foldl (fun s (p : Nat × Nat) => makeLive_sameWork s p.1) _ s) (h _))
    (sameWork_foldl (fun s _ => sameWork_of_errors (fire_errors s _ _)) _ _)

theorem zeroHome_sameWork (s : State) (a n : Nat) : SameWork s (s.zeroHome a n) := by
  unfold State.zeroHome
  split
  · exact atHome_sameWork (fun s => zero_sameWork s a n) s a n
  · exact zero_sameWork s a n

theorem clearBank_sameWork (s : State) (c b : Nat) : SameWork s (s.clearBank c b) :=
  sameWork_foldl (fun s (p : Nat × Nat × Nat) => zero_sameWork s p.1 p.2.2) (bankParts c b) s

theorem dropHeld_sameWork (s : State) (lid : Nat) : SameWork s (s.dropHeld lid) := by
  refine sameWork_foldl (fun s c => ?_) _ s
  split
  · split
    · have hbank (b : Nat) (f : Core → Core) : SameWork s ((s.clearBank c.1 b).updCore c.1 f) := clearBank_sameWork s c.1 b
      dsimp only
      split
      · exact sameWork_trans (hbank _ _) (zeroHome_sameWork _ _ _)
      · exact hbank _ _
    · exact sameWork_refl s
  · exact sameWork_refl s

theorem vacate_sameWork (s : State) : SameWork s s.vacate := by
  refine sameWork_foldl (fun s c => ?_) _ s
  split
  · split
    · exact ⟨rfl, rfl⟩
    · exact sameWork_refl s
  · exact sameWork_refl s

/-- A strand after the work of kernel `lid` has ended. -/
def Strand.workEnded (lid : Nat) (st : Strand) : Strand :=
  if st.lid = lid then { st with st := .ended, wait := none, arrivals := [] } else st

@[simp] theorem workEnded_lid (lid : Nat) (st : Strand) : (st.workEnded lid).lid = st.lid := by
  unfold Strand.workEnded
  split <;> rfl

theorem workEnded_st (lid : Nat) (st : Strand) : (st.workEnded lid).st = if st.lid = lid then .ended else st.st := by
  unfold Strand.workEnded
  split <;> rfl

theorem endWork_kernels (s : State) (lid : Nat) :
    (s.endWork lid).kernels = s.kernels.modify lid (fun k => { k with groups := [], bars := [] }) :=
  (sameWork_trans (dropHeld_sameWork _ lid) (vacate_sameWork _)).2

theorem endWork_strands (s : State) (lid : Nat) :
    (s.endWork lid).strands = s.strands.map (fun x => (x.1, x.2.workEnded lid)) := by
  refine (sameWork_trans (dropHeld_sameWork _ lid) (vacate_sameWork _)).1.trans ?_
  refine List.map_congr_left (fun x _ => ?_)
  unfold Strand.workEnded
  split <;> rfl

theorem get?_map_snd {α : Type} (t : Tbl α) (f : α → α) (n : Nat) :
    Tbl.get? (t.map (fun x => (x.1, f x.2))) n = (t.get? n).map f := by
  induction t with
  | nil => rfl
  | cons x t ih =>
    simp only [List.map_cons, Tbl.get?]
    split
    · rfl
    · exact ih

/-! ## A kernel that has failed (R348, R349) -/

/-- Kernel `lid` has FAILED with `f` as its first fault, whatever later sections were filled, and no strand of it is left to
run. -/
structure HasFailed (lid : Nat) (f : Faults) (s : State) : Prop where
  record : ∃ k, s.kernels.get? lid = some k ∧ k.st = .failed ∧ { k.fl with tile := f.tile, move := f.move } = f
  strands : ∀ key st, s.strands.get? key = some st → st.lid = lid → st.st = .ended

theorem merge_of_none (old new : Faults) (h : old.fk = 0) : old.merge new = new := if_pos h

/-- A later failure fills the tile and the move section at most. -/
theorem merge_keeps_first {old f : Faults} (new : Faults) (hf : f.fk ≠ 0)
    (h : { old with tile := f.tile, move := f.move } = f) :
    { old.merge new with tile := f.tile, move := f.move } = f := by
  have hfk : old.fk ≠ 0 := by rw [← h] at hf; exact hf
  rw [Faults.merge, if_neg hfk]
  exact h

theorem hasFailed_endWork {lid : Nat} {f : Faults} {s : State} (h : HasFailed lid f s) (l : Nat) :
    HasFailed lid f (s.endWork l) := by
  obtain ⟨⟨k, hk, hst, hfl⟩, hended⟩ := h
  constructor
  · rw [endWork_kernels, get?_modify, hk]
    split
    · exact ⟨_, rfl, hst, hfl⟩
    · exact ⟨k, rfl, hst, hfl⟩
  · intro key st hget hlid
    rw [endWork_strands, get?_map_snd, Option.map_eq_some_iff] at hget
    obtain ⟨st0, h0, rfl⟩ := hget
    rw [workEnded_lid] at hlid
    rw [workEnded_st]
    split
    · rfl
    · exact hended key st0 h0 hlid

/-- A failed kernel whose entry is written again with its first fault still stands failed. -/
theorem hasFailed_setKernel {lid : Nat} {f : Faults} {s : State} (h : HasFailed lid f s) (l : Nat) (k : Kernel)
    (hk : l = lid → k.st = .failed ∧ { k.fl with tile := f.tile, move := f.move } = f) :
    HasFailed lid f (s.setKernel l k) := by
  obtain ⟨⟨k0, hk0, h0⟩, hended⟩ := h
  refine ⟨?_, hended⟩
  rw [State.setKernel_kernels, get?_set]
  split
  · exact ⟨k, rfl, hk (Eq.symm ‹_›)⟩
  · exact ⟨k0, hk0, h0⟩

/-- Later failures do not take back an earlier one. -/
theorem hasFailed_failAll {lid : Nat} {f : Faults} (hf : f.fk ≠ 0) (n : Nat) (more : List (Nat × Faults)) {s : State}
    (h : HasFailed lid f s) : HasFailed lid f (failAll n more s) := by
  induction n generalizing more s with
  | zero => exact h
  | succ n ih =>
    cases more with
    | nil => exact h
    | cons x more =>
      obtain ⟨l, g⟩ := x
      have hkeep (k : Kernel) (hk : s.kernels.get? l = some k) (new : Faults) (hl : l = lid) :
          { k.fl.merge new with tile := f.tile, move := f.move } = f := by
        obtain ⟨⟨k0, hk0, -, hfl⟩, -⟩ := h
        rw [← hl, hk] at hk0
        cases hk0
        exact merge_keeps_first new hf hfl
      unfold failAll
      split
      · exact ih more h
      · rename_i k hk
        split
        · exact ih _ (hasFailed_endWork (hasFailed_setKernel h l _ (fun hl => ⟨rfl, hkeep k hk _ hl⟩)) l)
        · split
          · exact ih more (hasFailed_setKernel h l _ (fun hl => ⟨‹_›, hkeep k hk _ hl⟩))
          · exact ih more h

/-- A live kernel that has no fault yet fails with the fault that it is given, as its member of the record. -/
theorem fail_hasFailed {s : State} {lid : Nat} {k : Kernel} {f : Faults} (hk : s.kernels.get? lid = some k)
    (hlive : k.st.live = true) (h0 : k.fl.fk = 0) (hf : f.fk ≠ 0) :
    HasFailed lid { f with fm := k.member } (s.fail lid f) := by
  have hholds : k.holds = true := by simp [Kernel.holds, hlive]
  unfold State.fail
  simp only [failAll, hk, hholds, if_true, merge_of_none k.fl _ h0]
  refine hasFailed_failAll (f := { f with fm := k.member }) hf _ _ ⟨?record, ?strands⟩
  case record =>
    rw [endWork_kernels, get?_modify, if_pos rfl, State.setKernel_kernels, get?_set_same]
    exact ⟨_, rfl, rfl, rfl⟩
  case strands =>
    intro key st hget hlid
    rw [endWork_strands, get?_map_snd, Option.map_eq_some_iff] at hget
    obtain ⟨st0, h0, rfl⟩ := hget
    rw [workEnded_lid] at hlid
    rw [workEnded_st, if_pos hlid]

/-! ## Fatal traps (R106) -/

theorem fatal_fails_kernel {s : State} {e : Env} (cause : Nat) (info : Word) (he : s.env = some e) (hn : e.tm.num < 512)
    (hlive : e.kn.st.live = true) (h0 : e.kn.fl.fk = 0) :
    KernelFailed e cause info ((s.setStrand e.key e.st).fatal e.key cause info) := by
  obtain ⟨hkn, -, hkey, hsl⟩ := env_objects he
  have hlid : strandLid e.key = e.tm.lid := by rw [hkey]; exact strandLid_strandKey (by omega)
  have hpc : (((s.setStrand e.key e.st).strands.get? e.key).map (·.pc)).getD 0 = e.st.pc := by
    rw [State.setStrand_strands, get?_set_same]
    rfl
  unfold State.fatal
  rw [hpc, hlid]
  obtain ⟨⟨k, hk, hst, hfl⟩, hended⟩ := fail_hasFailed (s := s.setStrand e.key e.st)
    (f := { Faults.none with fk := 1, cause := cause, sid := strandNum e.key, info := info, pc := e.st.pc })
    hkn hlive h0 Nat.one_ne_zero
  simp only [Faults.mk.injEq] at hfl
  obtain ⟨hfk, hfm, -, hcause, hsid, -, hinfo, hpc, -⟩ := hfl
  exact ⟨⟨k, hk, hst, hfk, hfm, hcause, hinfo, hpc, hsid⟩, hended⟩

/-- R106: a trap of a fatal cause, without a handler, or inside one. -/
theorem fatalTrap_fails_kernel : clauseFatalTrapFailsTheKernel := by
  intro s e cause done info he hn hlive h0 t
  rcases trap_cases s e.core e.key e.st cause done info with ⟨hf, hle, hk, -⟩ | ⟨hf, -, ht⟩ | ⟨hf, ht⟩
  · exact ⟨fun _ hfatal => (hfatal.elim (Nat.not_lt.2 hle) hk).elim, fun h => by simp [hf] at h⟩
  · refine ⟨fun _ _ => ?_, fun h => by simp [hf] at h⟩
    rw [show t = _ from ht]
    exact fatal_fails_kernel cause info he hn hlive h0
  · refine ⟨fun h => by simp [hf] at h, fun _ => ?_⟩
    rw [show t = _ from ht]
    exact fatal_fails_kernel 15 _ he hn hlive h0

/-! ## Words that trap (R100, R105) -/

/-- R59: the word of `trap` with its code. -/
theorem decodeStrand_trap (code : BitVec 5) :
    decodeStrand (BitVec.ofNat 32 (0x0600200B + code.toNat * 2 ^ 20)) = some (.trap code) := by
  have hc := code.isLt
  have hw := BitVec.toNat_ofNat (0x0600200B + code.toNat * 2 ^ 20) 32
  generalize BitVec.ofNat 32 (0x0600200B + code.toNat * 2 ^ 20) = w at hw ⊢
  have h25 : (fld w 25 7).toNat = 3 := by rw [toNat_fld]; omega
  have h7 : fld w 7 5 = 0 := BitVec.eq_of_toNat_eq (by rw [toNat_fld]; change _ = 0; omega)
  have h15 : fld w 15 5 = 0 := BitVec.eq_of_toNat_eq (by rw [toNat_fld]; change _ = 0; omega)
  have h20 : fld w 20 5 = code := BitVec.eq_of_toNat_eq (by rw [toNat_fld]; omega)
  rw [decodeStrand_eq_decC010 (by omega) (by omega)]
  simp only [decC010, h25, h7, h15, h20, and_self, if_true]
  rfl

theorem trapWords_raise_their_cause : clauseTrapWordsRaiseTheirCause := by
  intro s e code w he raises
  refine ⟨strandWord_acts he _, strandWord_acts he _, strandWord_acts he _, decodeStrand_trap code, ?tret,
    strandWord_acts he _, strandWord_acts he _, ?outside⟩
  case tret => exact (decodeStrand_eq_decC010 (by decide) (by decide)).trans (by decide)
  case outside =>
    intro hf
    exact (strandWord_acts he _).trans (by rw [hf]; rfl)

/-- Settles O8: the trap's own cases, with the failure of a kernel kept through the failures that follow it. -/
theorem trapsEnterTheHandlerAndReturn : Obligations.TrapsEnterTheHandlerAndReturn :=
  ⟨trapWords_raise_their_cause, inKernelTrap_enters_handler, fatalTrap_fails_kernel, trapReturn_restores_loops⟩

end Sys2Proof.Machine
end

section
/-! SUPPORT. Groups (R351 to R355): the members of a kernel's groups and what a leave does to its barriers (R362), the group
words, and the span of a group. -/

namespace Sys2Proof.Machine

/-! ## Members of a group (R352, R353) -/

@[simp] theorem members_setMembers_same (k : Kernel) (g : Nat) (ms : List Nat) : (k.setMembers g ms).members g = ms := by
  unfold Kernel.members Kernel.setMembers
  cases ms with
  | nil => simp [get?_erase_same]
  | cons m ms => simp [get?_set_same]

theorem members_setMembers_other (k : Kernel) {g h : Nat} (hne : h ≠ g) (ms : List Nat) :
    (k.setMembers g ms).members h = k.members h := by
  unfold Kernel.members Kernel.setMembers
  cases ms with
  | nil => simp [get?_erase_other _ hne]
  | cons m ms => simp [get?_set_other _ hne]

/-- Membership is held in the table of groups alone. -/
theorem setMembers_frame (k : Kernel) (g : Nat) (ms : List Nat) :
    { k.setMembers g ms with groups := k.groups } = k := rfl

@[simp] theorem members_settleBars (k : Kernel) (g h : Nat) : (k.settleBars g).members h = k.members h := rfl

theorem leave_of_member {k : Kernel} {g num : Nat} (h : num ∈ k.members g) :
    k.leave g num = (k.setMembers g ((k.members g).filter (· ≠ num))).settleBars g := by
  simp [Kernel.leave, h]

/-! ## Phases that a change of the members completes (R361, R362) -/

theorem foldr_add_eq_ofNat_sum (cs : List Word) : cs.foldr (· + ·) 0 = BitVec.ofNat 32 (cs.map BitVec.toNat).sum := by
  induction cs with
  | nil => rfl
  | cons c cs ih =>
    rw [List.foldr_cons, ih, List.map_cons, List.sum_cons, BitVec.ofNat_add, BitVec.ofNat_toNat, BitVec.setWidth_eq]

theorem combine_eq_phaseResult (op : Nat) (cs : List Word) : combine op cs = phaseResult op cs := by
  unfold combine phaseResult
  split
  case h_1 => exact List.foldl_eq_foldr
  case h_2 => exact List.foldl_eq_foldr
  case h_3 => exact List.foldl_eq_foldr.trans (foldr_add_eq_ofNat_sum cs)
  case h_4 => simp [List.countP_eq_length_filter, bne, beq_eq_decide]
  case h_5 h1 h2 h3 h4 => rw [if_neg h1, if_neg h2, if_neg h3, if_neg h4]

/-- The open phase of a barrier has an arrival, and every strand of `ms` has arrived in it. -/
def PhaseEnds (b : Bar) (ms : List Nat) : Prop :=
  b.broken = false ∧ b.arr ≠ [] ∧ ∀ m ∈ ms, ∃ p ∈ b.arr, p.1 = m

/-- A barrier after its open phase has completed. -/
def phaseEnded (b : Bar) : Bar :=
  { b with results := b.results.set b.k (phaseResult (b.word.toNat / 256 % 8) (b.arr.map (·.2))), k := b.k + 1, arr := [] }

theorem settle_of_phaseEnds {b : Bar} {ms : List Nat} (h : PhaseEnds b ms) : b.settle ms = phaseEnded b := by
  obtain ⟨hbroken, harr, hall⟩ := h
  unfold Bar.settle phaseEnded
  rw [if_pos (by simpa [hbroken, harr] using hall), combine_eq_phaseResult]
  rfl

theorem settle_of_not_phaseEnds {b : Bar} {ms : List Nat} (h : ¬PhaseEnds b ms) : b.settle ms = b := by
  unfold Bar.settle
  rw [if_neg]
  intro hends
  exact h (by simpa [PhaseEnds, and_assoc] using hends)

theorem bars_get?_settleBars {k : Kernel} {n : Nat} {b : Bar} (g : Nat) (h : k.bars.get? n = some b) :
    (k.settleBars g).bars.get? n = some (if b.grp = g then b.settle (k.members g) else b) := by
  unfold Kernel.settleBars
  rw [get?_map_snd k.bars (fun b => if b.grp = g then b.settle (k.members g) else b), h]
  rfl

/-- A leave by a member completes the open phases of the group's barriers in which every other member has arrived. -/
theorem leave_settles_bars {k : Kernel} {g num n : Nat} {b : Bar} (hm : num ∈ k.members g) (hb : k.bars.get? n = some b) :
    let ends : Prop := b.word.toNat % 256 = g ∧ b.broken = false ∧ b.arr ≠ [] ∧
      ∀ m ∈ k.members g, m ≠ num → ∃ p ∈ b.arr, p.1 = m
    (ends → (k.leave g num).bars.get? n = some (phaseEnded b)) ∧ (¬ends → (k.leave g num).bars.get? n = some b) := by
  intro ends
  have hends : ends ↔ b.grp = g ∧ PhaseEnds b ((k.members g).filter (· ≠ num)) := by
    simp [ends, PhaseEnds, Bar.grp]
  have hget := bars_get?_settleBars (k := k.setMembers g ((k.members g).filter (· ≠ num))) g hb
  rw [members_setMembers_same] at hget
  rw [leave_of_member hm, hget, hends]
  refine ⟨fun ⟨hg, hp⟩ => by rw [if_pos hg, settle_of_phaseEnds hp], fun hnot => ?_⟩
  by_cases hg : b.grp = g
  · rw [if_pos hg, settle_of_not_phaseEnds (fun hp => hnot ⟨hg, hp⟩)]
  · rw [if_neg hg]

/-! ## The group words (R355) -/

theorem exec_grpJoin_eq (x : XReg) (s : State) : exec (.grpJoin x) s = execGrpJoin x s := rfl
theorem exec_grpLeave_eq (x : XReg) (s : State) : exec (.grpLeave x) s = execGrpLeave x s := rfl
theorem exec_grpSize_eq (d x : XReg) (s : State) : exec (.grpSize d x) s = execGrpSize d x s := rfl
theorem exec_grpRank_eq (d x : XReg) (s : State) : exec (.grpRank d x) s = execGrpRank d x s := rfl

section

variable {s : State} {e : Env} {x : XReg} {dsts : List XReg}

theorem groupWord_of_number (h : Ready s e [x] dsts) (hg : (e.st.getX x).toNat ≤ 255) (f : Env → Nat → WordEnd) :
    groupWord s x dsts f = .next ((f e (e.st.getX x).toNat).apply e) :=
  (strandWord_ready h _).trans (by rw [if_neg (Nat.not_lt.2 hg)])

theorem groupWord_outside (h : Ready s e [x] dsts) (hg : 255 < (e.st.getX x).toNat) (f : Env → Nat → WordEnd) :
    groupWord s x dsts f = .next (s.trap e.core e.key e.st 12 false (e.st.getX x)) :=
  (strandWord_ready h _).trans (by rw [if_pos hg, apply_trap])

end

/-- The word of `grp.join`, case by case. -/
theorem exec_grpJoin {s : State} {e : Env} {x : XReg} (h : Ready s e [x] []) (hg : (e.st.getX x).toNat ≤ 255) :
    let g := (e.st.getX x).toNat
    let ms := e.kn.members g
    (e.st.num ∈ ms → exec (.grpJoin x) s = .next (completed e e.st s)) ∧
    (e.st.num ∉ ms → g ≠ 0 → 16 ≤ e.kn.memberships e.st.num →
      exec (.grpJoin x) s = .next (s.trap e.core e.key e.st 12 false (BitVec.ofNat 32 (0xFFFFFE00 + g)))) ∧
    (e.st.num ∉ ms → (g = 0 ∨ e.kn.memberships e.st.num < 16) →
      exec (.grpJoin x) s = .next (completed e e.st (s.setKernel e.tm.lid (e.kn.setMembers g (ms ++ [e.st.num]))))) := by
  intro g ms
  simp only [exec_grpJoin_eq, execGrpJoin, groupWord_of_number h hg]
  refine ⟨fun hm => ?member, fun hm h0 h16 => ?tooMany, fun hm hfit => ?joins⟩
  case member => rw [if_pos (List.contains_iff_mem.2 hm), apply_done]
  case tooMany =>
    rw [if_neg (mt List.contains_iff_mem.1 hm), if_pos ⟨h0, h16⟩, apply_trap, BitVec.ofNat_add]
    rfl
  case joins => rw [if_neg (mt List.contains_iff_mem.1 hm), if_neg (by omega), apply_done]

/-- The word of `grp.leave`, case by case. -/
theorem exec_grpLeave {s : State} {e : Env} {x : XReg} (h : Ready s e [x] []) (hg : (e.st.getX x).toNat ≤ 255) :
    let g := (e.st.getX x).toNat
    let ms := e.kn.members g
    (g = 0 → exec (.grpLeave x) s = .next (s.trap e.core e.key e.st 12 false 0xFFFFFE00)) ∧
    (g ≠ 0 → e.st.num ∉ ms → exec (.grpLeave x) s = .next (completed e e.st s)) ∧
    (g ≠ 0 → e.st.num ∈ ms →
      exec (.grpLeave x) s = .next (completed e e.st (s.setKernel e.tm.lid (e.kn.leave g e.st.num)))) := by
  intro g ms
  simp only [exec_grpLeave_eq, execGrpLeave, groupWord_of_number h hg]
  refine ⟨fun h0 => ?kernelGroup, fun h0 hm => ?stranger, fun h0 hm => ?leaves⟩
  case kernelGroup => rw [if_pos h0, apply_trap]
  case stranger => rw [if_neg h0, if_pos (by simpa using hm), apply_done]
  case leaves => rw [if_neg h0, if_neg (by simpa using hm), apply_done]

theorem exec_grpSize {s : State} {e : Env} {x d : XReg} (h : Ready s e [x] [d]) (hg : (e.st.getX x).toNat ≤ 255) :
    exec (.grpSize d x) s =
      .next (completed e (e.st.setX d (BitVec.ofNat 32 (e.kn.members (e.st.getX x).toNat).length)) s) := by
  rw [exec_grpSize_eq, execGrpSize]
  exact groupWord_of_number h hg _

theorem exec_grpRank_of_idxOf? {s : State} {e : Env} {x d : XReg} {i : Option Nat} (h : Ready s e [x] [d])
    (hg : (e.st.getX x).toNat ≤ 255) (hi : (e.kn.members (e.st.getX x).toNat).idxOf? e.st.num = i) :
    exec (.grpRank d x) s = .next (completed e (e.st.setX d ((i.map (BitVec.ofNat 32)).getD 0xFFFFFFFF)) s) := by
  rw [exec_grpRank_eq, execGrpRank]
  rw [groupWord_of_number h hg, hi]
  cases i <;> rfl

/-- A rank is a place in the join order. -/
theorem idxOf?_eq_some_of_first {ms : List Nat} {num r : Nat} (hr : ms[r]? = some num)
    (hfirst : ∀ r', r' < r → ms[r']? ≠ some num) : ms.idxOf? num = some r := by
  obtain ⟨hlt, hget⟩ := List.getElem?_eq_some_iff.1 hr
  refine List.idxOf?_eq_some_iff.2 ⟨hlt, hget, fun j hj hnum => hfirst j hj ?_⟩
  rw [List.getElem?_eq_getElem (Nat.lt_trans hj hlt), hnum]

/-! ## The encodings of the group words (R59, R355) -/

/-- A word of custom-0 with funct3 101 and index 0 decodes by its other three fields (R59). -/
theorem decodeStrand_of_decC101 {sub : Nat} (hsub : sub < 64) {x d : XReg} {i : Instr} (hwf : i.wf = true)
    (hi : ∀ w : Word, (fld w 26 6).toNat = sub → fld w 20 6 = 0 → fld w 15 5 = x → fld w 7 5 = d → decC101 w = some i) :
    decodeStrand (BitVec.ofNat 32 (sub * 2 ^ 26 + x.toNat * 2 ^ 15 + 0x5000 + d.toNat * 2 ^ 7 + 0x0B)) = some i := by
  have hx := x.isLt
  have hd := d.isLt
  have hw := BitVec.toNat_ofNat (sub * 2 ^ 26 + x.toNat * 2 ^ 15 + 0x5000 + d.toNat * 2 ^ 7 + 0x0B) 32
  generalize BitVec.ofNat 32 _ = w at hw ⊢
  have h0 : (fld w 0 7).toNat = 11 := by rw [toNat_fld]; omega
  have h12 : (fld w 12 3).toNat = 5 := by rw [toNat_fld]; omega
  have h26 : (fld w 26 6).toNat = sub := by rw [toNat_fld]; omega
  have h20 : fld w 20 6 = 0 := BitVec.eq_of_toNat_eq (by rw [toNat_fld]; change _ = 0; omega)
  have h15 : fld w 15 5 = x := BitVec.eq_of_toNat_eq (by rw [toNat_fld]; omega)
  have h7 : fld w 7 5 = d := BitVec.eq_of_toNat_eq (by rw [toNat_fld]; omega)
  simp only [decodeStrand, Sys2Proof.strandWord, h0, decCustom0, h12, hi w h26 h20 h15 h7, Option.filter_some, hwf, if_true]

theorem decodeStrand_groupWords (x d : XReg) :
    let word (sub d : Nat) : Word := BitVec.ofNat 32 (sub * 2 ^ 26 + x.toNat * 2 ^ 15 + 0x5000 + d * 2 ^ 7 + 0x0B)
    decodeStrand (word 0 0) = some (.grpJoin x) ∧ decodeStrand (word 1 0) = some (.grpLeave x) ∧
    decodeStrand (word 2 d.toNat) = some (.grpSize d x) ∧ decodeStrand (word 3 d.toNat) = some (.grpRank d x) := by
  refine ⟨decodeStrand_of_decC101 (sub := 0) (d := 0) (by decide) rfl ?join,
    decodeStrand_of_decC101 (sub := 1) (d := 0) (by decide) rfl ?leave,
    decodeStrand_of_decC101 (sub := 2) (by decide) rfl ?size, decodeStrand_of_decC101 (sub := 3) (by decide) rfl ?rank⟩ <;>
  · intro w hsub hidx hx hd
    simp [decC101, hsub, hidx, hx, hd]

theorem groupWords_keep_join_order : clauseGroupWordsKeepTheJoinOrder := by
  intro s e d x g ms num bad
  refine ⟨fun hg => ⟨fun h => ?outside, fun h => ?outsideRead⟩, fun hg h => ?change, fun hg h => ?read,
    decodeStrand_groupWords x d⟩
  case outside =>
    exact ⟨(exec_grpJoin_eq x s).trans (groupWord_outside h hg _), (exec_grpLeave_eq x s).trans (groupWord_outside h hg _)⟩
  case outsideRead =>
    exact ⟨(exec_grpSize_eq d x s).trans (groupWord_outside h hg _),
      (exec_grpRank_eq d x s).trans (groupWord_outside h hg _)⟩
  case change =>
    have hzero : g = 0 ↔ g.toNat = 0 := BitVec.toNat_eq
    obtain ⟨hagain, htooMany, hjoins⟩ := exec_grpJoin h hg
    obtain ⟨hkernelGroup, hstranger, hleaves⟩ := exec_grpLeave h hg
    rw [hzero, ne_eq, hzero]
    refine ⟨hagain, htooMany, fun hm hfit => ?joins, hkernelGroup, hstranger, fun h0 hm => ?leaves⟩
    case joins =>
      exact ⟨_, hjoins hm hfit, members_setMembers_same _ _ _, fun _ hne => members_setMembers_other _ hne _,
        setMembers_frame _ _ _⟩
    case leaves =>
      refine ⟨_, hleaves h0 hm, ?_, fun m hne => ?_, ?_, fun n b hb => leave_settles_bars hm hb⟩
      · rw [leave_of_member hm, members_settleBars, members_setMembers_same]
      · rw [leave_of_member hm, members_settleBars, members_setMembers_other _ hne]
      · rw [leave_of_member hm]
        rfl
  case read =>
    refine ⟨exec_grpSize h hg, fun hm => ?stranger, fun r hr hfirst => ?rank⟩
    case stranger => exact exec_grpRank_of_idxOf? h hg (List.idxOf?_eq_none_iff.2 hm)
    case rank => exact exec_grpRank_of_idxOf? h hg (idxOf?_eq_some_of_first hr hfirst)

/-! ## The span of a group (R267, R354) -/

/-- Cores that lie in one domain of `w` cores. -/
def OneDomain (w : Nat) (cs : List Nat) : Prop := ∀ c ∈ cs, ∀ d ∈ cs, c / w = d / w

theorem oneDomain_cons_iff (w c : Nat) (cs : List Nat) : OneDomain w (c :: cs) ↔ ∀ d ∈ cs, d / w = c / w := by
  constructor
  · intro h d hd
    exact h d (List.mem_cons_of_mem c hd) c List.mem_cons_self
  · intro h a ha b hb
    have hc (d : Nat) (hd : d ∈ c :: cs) : d / w = c / w := by
      rcases List.mem_cons.1 hd with rfl | hd
      · rfl
      · exact h d hd
    exact (hc a ha).trans (hc b hb).symm

theorem oneDomain_mul {w : Nat} {cs : List Nat} (h : OneDomain w cs) (v : Nat) : OneDomain (w * v) cs := by
  intro c hc d hd
  rw [← Nat.div_div_eq_div_mul, ← Nat.div_div_eq_div_mul, h c hc d hd]

theorem spanOfCores_narrowest {cs : List Nat} (hne : cs ≠ []) :
    (OneDomain 1 cs → spanOfCores cs = some .core) ∧
    (¬OneDomain 1 cs → OneDomain 8 cs → spanOfCores cs = some .cluster) ∧
    (¬OneDomain 8 cs → OneDomain 64 cs → spanOfCores cs = some .die) ∧
    (¬OneDomain 64 cs → spanOfCores cs = some .device) := by
  cases cs with
  | nil => exact absurd rfl hne
  | cons c cs =>
    have hcluster (h : OneDomain 1 (c :: cs)) : OneDomain 8 (c :: cs) := oneDomain_mul h 8
    have hdie (h : OneDomain 8 (c :: cs)) : OneDomain 64 (c :: cs) := oneDomain_mul h 8
    simp only [oneDomain_cons_iff, Nat.div_one] at hcluster hdie ⊢
    simp only [spanOfCores, List.all_eq_true, decide_eq_true_eq]
    refine ⟨fun h => ?_, fun hn h => ?_, fun hn h => ?_, fun hn => ?_⟩
    · rw [if_pos h]
    · rw [if_neg hn, if_pos h]
    · rw [if_neg (mt hcluster hn), if_neg hn, if_pos h]
    · rw [if_neg (mt hcluster (mt hdie hn)), if_neg (mt hdie hn), if_neg hn]

theorem groupCores_of_no_team {s : State} {tk : Nat} (k : Kernel) (h : s.teams.get? tk = none) :
    s.groupCores k tk = k.cores := by
  unfold State.groupCores
  rw [h]

/-- A team counts on the core that holds it or last held it, or else on every core of the kernel. -/
theorem mem_groupCores_iff {s : State} {tk : Nat} {t : Team} (k : Kernel) (c : Nat) (h : s.teams.get? tk = some t) :
    c ∈ s.groupCores k tk ↔ t.place = .active c ∨ t.place = .spent c ∨ t.place = .held c ∨
      ((∀ x, t.place ≠ .active x ∧ t.place ≠ .spent x ∧ t.place ≠ .held x) ∧
        (t.lastCore = some c ∨ (t.lastCore = none ∧ c ∈ k.cores))) := by
  unfold State.groupCores
  rw [h]
  cases hp : t.place <;> cases hl : t.lastCore <;> simp [hp, hl, eq_comm]

theorem groupSpan_eq {s : State} {lid : Nat} {k : Kernel} (g : Nat) (h : s.kernels.get? lid = some k) :
    s.groupSpan lid g = spanOfCores ((k.members g).flatMap (fun n => s.groupCores k (teamKey lid (n / 4)))) := by
  unfold State.groupSpan
  rw [h]
  rfl

theorem groupSpan_is_narrowest_domain : clauseGroupSpanIsTheNarrowestDomain := by
  intro s lid g k hk ms on within
  have hon (n c : Nat) : on n c ↔ c ∈ s.groupCores k (teamKey lid (n / 4)) := by
    cases ht : s.teams.get? (teamKey lid (n / 4)) with
    | none => simp only [on, ht, groupCores_of_no_team k ht]
    | some t => simp only [on, ht, mem_groupCores_iff k c ht]
  have hwithin (w : Nat) : within w ↔ OneDomain w (ms.flatMap (fun n => s.groupCores k (teamKey lid (n / 4)))) := by
    simp only [within, OneDomain, hon, List.mem_flatMap]
    constructor
    · rintro h c ⟨n, hn, hc⟩ d ⟨m, hm, hd⟩
      exact h n m c d hn hm hc hd
    · intro h n m c d hn hm hc hd
      exact h c ⟨n, hn, hc⟩ d ⟨m, hm, hd⟩
  rw [groupSpan_eq g hk]
  refine ⟨fun hnil => ?empty, ?covered⟩
  case empty => rw [show k.members g = [] from hnil]; rfl
  case covered =>
    rintro ⟨n, hn, c, hc⟩
    simp only [hwithin]
    exact spanOfCores_narrowest (List.ne_nil_of_mem (List.mem_flatMap.2 ⟨n, hn, (hon n c).1 hc⟩))

/-- Settles O12: the words by their cases, and the span as the narrowest domain that contains the cores of the members. -/
theorem groupWordsKeepTheJoinOrder : Obligations.GroupWordsKeepTheJoinOrder :=
  ⟨groupWords_keep_join_order, groupSpan_is_narrowest_domain⟩

end Sys2Proof.Machine
end
